-- ==== Sys2Proof/Word.lean ====
section
/-! DEFINITION. The word types of the Paliz: a byte, the register word and the scalar word. Bit 0 is the
least significant bit of every one of them (R6). -/

namespace Sys2Proof

/-- One byte of memory. -/
abbrev Byte := BitVec 8

/-- A package register (R515). -/
abbrev W32 := BitVec 32

/-- A scalar register, an address or a stair-time count. -/
abbrev W64 := BitVec 64

/-- A sparse table: pairs of a key and an entry, keys strictly rising, no entry equal to what an
unlisted key holds. -/
abbrev Tbl (α : Type) := List (Nat × α)

end Sys2Proof
end

