-- ==== Sys2Proof/Machine/RegMap.lean ====
section
/-! DEFINITION. The register map (R515 to R517, R524) and the field tables of every block: each register
with its package register address, and each field with its bits, access code (R7), reset value and
same-cycle code (R10), as the field tables of the chapters give them. A reset column that names a source
instead of a number (fused, strap, profile, record, store, flash) stands here as 0; Machine/Regs.lean
overlays the source. -/

namespace Sys2Proof.Machine

/-- The access codes of R7; `res` is no field. -/
inductive Acc
  | rw | ro | w1c | w1s | wo | rc | rwl | rws
  deriving DecidableEq, Repr

/-- The same-cycle codes of R10; `none` is the dash. -/
inductive SameCycle
  | sw | hw | set | add | none
  deriving DecidableEq, Repr

/-- Every register of the package (R524). -/
inductive Reg
  | GLB_ID | GLB_MAP | GLB_SCRATCH0 | GLB_SCRATCH1 | GLB_DENY_LOG | GLB_DENY_COUNT | TIME_CTRL 
  | TIME_STATUS | TIME_NOW_LO | TIME_NOW_HI | TIME_EPOCH_LO | TIME_EPOCH_HI | TIME_EVENT | TIME_LATE_COUNT 
  | TIME_OFFSET | TIME_ROOT | TIME_PORT_DELAY | TIME_PORT_ASYM | ALC_CTRL | ALC_STATUS | ALC_FAULT 
  | ALC_FAULT_DETAIL | ALC_BREAK0 | ALC_BREAK1 | ALC_ISTORE_HOLD | ALC_ID | ALC_BUNDLE_COUNT 
  | ALC_STALL_COUNT | ALC_HC_CTRL | ALC_HC_STATUS | ALC_HC_FAULT | ALC_HC_FAULT_DETAIL | XU_STATUS 
  | XU_PLANES | XU_CHK_CTRL | XU_CHK_STATUS | XU_CHK_COUNT | XU_PASS_COUNT | XU_BUSY_CYCLES | TW_STATUS 
  | TW_NEXT | TW_DONE | TW_SHARE | TW_DESC | CE_STATUS | CE_ERROR | CE_PACKETS | CE_RETRY_COUNT 
  | CE_GRANT_RETRY | MEZ_CTRL | MEZ_STATUS | MEZ_HITS | MEZ_MISSES | MEZ_INVAL_LINES | HBM_CHAN_STATUS 
  | HBM_CHAN_CTRL | HBM_ECC_CE | HBM_ECC_UE | HBM_ERR_LOG | HBM_RETIRED_HIT | HBM_POISON_READS 
  | HBM_STACK_STATUS | HBM_CLASS_WEIGHT | HBM_INTERLEAVE | HBM_PART_MAP | HBM_PART_BASE | HBM_RETIRE_COUNT 
  | NAR_STATUS | NAR_REQS | NAR_RANGE_ERR | NAR_MEZ_HITS | TGEN_CTRL | TGEN_START_LINE | TGEN_COUNT 
  | TGEN_SEED | TGEN_CONST_HI | TGEN_STATUS | TGEN_ERRORS | TGEN_FIRST_FAIL | TGEN_LANES0 | TGEN_LANES1 
  | SYNC_CMD | SYNC_CMD_STATUS | SYNC_DATA | SYNC_EVENT | SYNC_LOG | SYNC_ENTRIES | SYNC_MSG_DROPPED 
  | ANN_CTRL | ANN_STATUS | ANN_SWEEPS | ANN_ERROR | ANN_UPDATES | ANN_FLIPS | ANN_EXCH | VST_ADMIN_CTRL 
  | VST_ADMIN_STATUS | VST_ADMIN_SQ_LO | VST_ADMIN_SQ_HI | VST_ADMIN_CQ_LO | VST_ADMIN_CQ_HI 
  | VST_DB_RECORD_LO | VST_DB_RECORD_HI | VST_Q_STATUS | VST_EVENT | VST_DB_DROPPED | POOL_CFG | POOL_FREE 
  | POOL_ERRORS | POOL_LOG | POOL_LOG_BLOCK | PART_CTRL | PART_STATUS | PART_CLOCK | PART_PROFILE 
  | PART_QUAR_LO | PART_QUAR_HI | VI_CFG | VI_MSIX | VI_QUOTA | VI_USED | VI_STATUS | VI_EVENT | IC_SRC_CFG 
  | IC_SRC_STATE | IC_TGT_CTRL | IC_TGT_STATUS | IC_TGT_CLAIM | IC_TGT_EOI | IC_EVENT | IC_SWI 
  | IC_BAD_EOI_COUNT | IC_VI_NOTICE | IC_VI_SYNC | IC_VI_EOI | CLZ_PORT_CTRL | CLZ_PORT_STATUS 
  | CLZ_PORT_PEER | CLZ_EVENT | CLZ_FEC_CE | CLZ_FEC_UE | CLZ_CRC_ERR | CLZ_REPLAYS | CLZ_WIN_MISS 
  | CLZ_DROPPED | CLZ_WIN_BASE_LO | CLZ_WIN_BASE_HI | CLZ_WIN_PERIOD | CLZ_WIN_CFG | CLZ_WIN_OFFSET 
  | CLZ_WIN_LEN | CLZ_WIN_NOTIFY | CLZ_DIM | CLZ_DIR_LO | CLZ_DIR_HI | CLZ_FLOW | CLZ_EXC_MATCH 
  | CLZ_EXC_MASK | CLZ_EXC_PORTS_LO | CLZ_EXC_PORTS_HI | PCI_ID | PCI_LINK | PCI_EVENT | PCI_HOST_ERR 
  | PCI_BAR_ERR | PCI_BAR4_BASE | PCI_PASID | MGT_STATUS | MGT_CTRL | MGT_EVENT | MGT_FLASH | RAS_CTRL 
  | RAS_EVENT | RAS_LAST_ID | RAS_REC_CMD | RAS_REC_STATUS | RAS_RETIRE | RAS_RETIRE_STATUS | RAS_REC_DATA 
  | RAS_RCPT | RAS_THRESH_A | RAS_THRESH_B | RAS_THRESH_C | RAS_BUCKET | SDC_SH_CTRL | SDC_SH_SEED 
  | SDC_SH_STATUS | SDC_SH_TILES | SDC_SH_EVENTS | SDC_SH_SKIPPED | SDC_SCAN_STATUS | SDC_EVENT | SDC_CTRL 
  | SDC_SCAN_PASS | SDC_SCAN_FAIL | SDC_SCAN_ABORT | SDC_PACK_ID | SDC_PACK_SEQ | SDC_PACK_STATE | INJ_CTRL 
  | INJ_TARGET | INJ_PARAM | INJ_START_LO | INJ_START_HI | INJ_PERIOD | INJ_REPEAT | INJ_COUNT 
  | BOOT_STATUS | BOOT_CTRL | BOOT_PMC_VER | BOOT_HALL_VER | BOOT_READY_MS | BOOT_EVENT | BOOT_OVERRIDE 
  | BOOT_PMC_FAULT | LC_STATUS | LC_CMD | LC_ID | LC_NEXT_ID | LC_FLOOR | LC_SERIAL_LO | LC_SERIAL_HI 
  | PWR_CTRL | PWR_STATUS | PWR_EVENT | PWR_LIMIT | PWR_RAILS | PWR_BOARD_OFFSET | PWR_HALL_STATUS 
  | PWR_HALL_POWER 
  deriving DecidableEq, Repr

/-- Where a register lies: the address of its first instance, the number and stride of its windows, and
the number and stride of its instances within a window (R516). -/
structure RegRow where
  base : Nat
  windows : Nat
  winStride : Nat
  count : Nat
  stride : Nat
  deriving DecidableEq, Repr

/-- A register field: its register, bits, access code, same-cycle code and reset value. -/
structure Fld where
  reg : Reg
  hi : Nat
  lo : Nat
  acc : Acc
  same : SameCycle
  reset : Nat
  deriving DecidableEq, Repr

/-- The map of R517 and R524. -/
def Reg.row : Reg → RegRow
  | .GLB_ID => ⟨0x0, 1, 0x0, 1, 0⟩
  | .GLB_MAP => ⟨0x4, 1, 0x0, 1, 0⟩
  | .GLB_SCRATCH0 => ⟨0x8, 1, 0x0, 1, 0⟩
  | .GLB_SCRATCH1 => ⟨0xC, 1, 0x0, 1, 0⟩
  | .GLB_DENY_LOG => ⟨0x10, 1, 0x0, 1, 0⟩
  | .GLB_DENY_COUNT => ⟨0x14, 1, 0x0, 1, 0⟩
  | .TIME_CTRL => ⟨0x1000, 1, 0x0, 1, 0⟩
  | .TIME_STATUS => ⟨0x1004, 1, 0x0, 1, 0⟩
  | .TIME_NOW_LO => ⟨0x1008, 1, 0x0, 1, 0⟩
  | .TIME_NOW_HI => ⟨0x100C, 1, 0x0, 1, 0⟩
  | .TIME_EPOCH_LO => ⟨0x1010, 1, 0x0, 1, 0⟩
  | .TIME_EPOCH_HI => ⟨0x1014, 1, 0x0, 1, 0⟩
  | .TIME_EVENT => ⟨0x1018, 1, 0x0, 1, 0⟩
  | .TIME_LATE_COUNT => ⟨0x101C, 1, 0x0, 1, 0⟩
  | .TIME_OFFSET => ⟨0x1020, 1, 0x0, 1, 0⟩
  | .TIME_ROOT => ⟨0x1024, 1, 0x0, 1, 0⟩
  | .TIME_PORT_DELAY => ⟨0x1100, 1, 0x0, 64, 4⟩
  | .TIME_PORT_ASYM => ⟨0x1200, 1, 0x0, 64, 4⟩
  | .ALC_CTRL => ⟨0x60000, 256, 0x100, 1, 0⟩
  | .ALC_STATUS => ⟨0x60004, 256, 0x100, 1, 0⟩
  | .ALC_FAULT => ⟨0x60008, 256, 0x100, 1, 0⟩
  | .ALC_FAULT_DETAIL => ⟨0x6000C, 256, 0x100, 1, 0⟩
  | .ALC_BREAK0 => ⟨0x60010, 256, 0x100, 1, 0⟩
  | .ALC_BREAK1 => ⟨0x60014, 256, 0x100, 1, 0⟩
  | .ALC_ISTORE_HOLD => ⟨0x60018, 256, 0x100, 1, 0⟩
  | .ALC_ID => ⟨0x6001C, 256, 0x100, 1, 0⟩
  | .ALC_BUNDLE_COUNT => ⟨0x60020, 256, 0x100, 1, 0⟩
  | .ALC_STALL_COUNT => ⟨0x60024, 256, 0x100, 1, 0⟩
  | .ALC_HC_CTRL => ⟨0x70000, 8, 0x100, 1, 0⟩
  | .ALC_HC_STATUS => ⟨0x70004, 8, 0x100, 1, 0⟩
  | .ALC_HC_FAULT => ⟨0x70008, 8, 0x100, 1, 0⟩
  | .ALC_HC_FAULT_DETAIL => ⟨0x7000C, 8, 0x100, 1, 0⟩
  | .XU_STATUS => ⟨0x30000, 256, 0x100, 1, 0⟩
  | .XU_PLANES => ⟨0x30004, 256, 0x100, 1, 0⟩
  | .XU_CHK_CTRL => ⟨0x30008, 256, 0x100, 1, 0⟩
  | .XU_CHK_STATUS => ⟨0x3000C, 256, 0x100, 1, 0⟩
  | .XU_CHK_COUNT => ⟨0x30010, 256, 0x100, 1, 0⟩
  | .XU_PASS_COUNT => ⟨0x30014, 256, 0x100, 1, 0⟩
  | .XU_BUSY_CYCLES => ⟨0x30018, 256, 0x100, 1, 0⟩
  | .TW_STATUS => ⟨0x40000, 256, 0x100, 1, 0⟩
  | .TW_NEXT => ⟨0x40004, 256, 0x100, 1, 0⟩
  | .TW_DONE => ⟨0x40008, 256, 0x100, 1, 0⟩
  | .TW_SHARE => ⟨0x4000C, 256, 0x100, 1, 0⟩
  | .TW_DESC => ⟨0x40010, 256, 0x100, 8, 4⟩
  | .CE_STATUS => ⟨0x2000, 64, 0x40, 1, 0⟩
  | .CE_ERROR => ⟨0x2004, 64, 0x40, 1, 0⟩
  | .CE_PACKETS => ⟨0x2008, 64, 0x40, 1, 0⟩
  | .CE_RETRY_COUNT => ⟨0x200C, 64, 0x40, 1, 0⟩
  | .CE_GRANT_RETRY => ⟨0x2010, 64, 0x40, 1, 0⟩
  | .MEZ_CTRL => ⟨0x3000, 8, 0x100, 1, 0⟩
  | .MEZ_STATUS => ⟨0x3004, 8, 0x100, 1, 0⟩
  | .MEZ_HITS => ⟨0x3008, 8, 0x100, 1, 0⟩
  | .MEZ_MISSES => ⟨0x300C, 8, 0x100, 1, 0⟩
  | .MEZ_INVAL_LINES => ⟨0x3010, 8, 0x100, 1, 0⟩
  | .HBM_CHAN_STATUS => ⟨0x18000, 256, 0x40, 1, 0⟩
  | .HBM_CHAN_CTRL => ⟨0x18004, 256, 0x40, 1, 0⟩
  | .HBM_ECC_CE => ⟨0x18008, 256, 0x40, 1, 0⟩
  | .HBM_ECC_UE => ⟨0x1800C, 256, 0x40, 1, 0⟩
  | .HBM_ERR_LOG => ⟨0x18010, 256, 0x40, 1, 0⟩
  | .HBM_RETIRED_HIT => ⟨0x18014, 256, 0x40, 1, 0⟩
  | .HBM_POISON_READS => ⟨0x18018, 256, 0x40, 1, 0⟩
  | .HBM_STACK_STATUS => ⟨0x1C000, 8, 0x40, 1, 0⟩
  | .HBM_CLASS_WEIGHT => ⟨0x1C004, 8, 0x40, 1, 0⟩
  | .HBM_INTERLEAVE => ⟨0x1D000, 16, 0x10, 1, 0⟩
  | .HBM_PART_MAP => ⟨0x1D004, 16, 0x10, 1, 0⟩
  | .HBM_PART_BASE => ⟨0x1D008, 16, 0x10, 1, 0⟩
  | .HBM_RETIRE_COUNT => ⟨0x1D100, 1, 0x0, 1, 0⟩
  | .NAR_STATUS => ⟨0x4000, 8, 0x40, 1, 0⟩
  | .NAR_REQS => ⟨0x4004, 8, 0x40, 1, 0⟩
  | .NAR_RANGE_ERR => ⟨0x4008, 8, 0x40, 1, 0⟩
  | .NAR_MEZ_HITS => ⟨0x400C, 8, 0x40, 1, 0⟩
  | .TGEN_CTRL => ⟨0x24000, 256, 0x40, 1, 0⟩
  | .TGEN_START_LINE => ⟨0x24004, 256, 0x40, 1, 0⟩
  | .TGEN_COUNT => ⟨0x24008, 256, 0x40, 1, 0⟩
  | .TGEN_SEED => ⟨0x2400C, 256, 0x40, 1, 0⟩
  | .TGEN_CONST_HI => ⟨0x24010, 256, 0x40, 1, 0⟩
  | .TGEN_STATUS => ⟨0x24014, 256, 0x40, 1, 0⟩
  | .TGEN_ERRORS => ⟨0x24018, 256, 0x40, 1, 0⟩
  | .TGEN_FIRST_FAIL => ⟨0x2401C, 256, 0x40, 1, 0⟩
  | .TGEN_LANES0 => ⟨0x24020, 256, 0x40, 1, 0⟩
  | .TGEN_LANES1 => ⟨0x24024, 256, 0x40, 1, 0⟩
  | .SYNC_CMD => ⟨0x5000, 8, 0x100, 1, 0⟩
  | .SYNC_CMD_STATUS => ⟨0x5004, 8, 0x100, 1, 0⟩
  | .SYNC_DATA => ⟨0x5010, 8, 0x100, 16, 4⟩
  | .SYNC_EVENT => ⟨0x5050, 8, 0x100, 1, 0⟩
  | .SYNC_LOG => ⟨0x5054, 8, 0x100, 1, 0⟩
  | .SYNC_ENTRIES => ⟨0x5058, 8, 0x100, 1, 0⟩
  | .SYNC_MSG_DROPPED => ⟨0x505C, 8, 0x100, 1, 0⟩
  | .ANN_CTRL => ⟨0x6000, 8, 0x40, 1, 0⟩
  | .ANN_STATUS => ⟨0x6004, 8, 0x40, 1, 0⟩
  | .ANN_SWEEPS => ⟨0x6008, 8, 0x40, 1, 0⟩
  | .ANN_ERROR => ⟨0x600C, 8, 0x40, 1, 0⟩
  | .ANN_UPDATES => ⟨0x6010, 8, 0x40, 1, 0⟩
  | .ANN_FLIPS => ⟨0x6014, 8, 0x40, 1, 0⟩
  | .ANN_EXCH => ⟨0x6018, 8, 0x40, 1, 0⟩
  | .VST_ADMIN_CTRL => ⟨0x80000, 256, 0x100, 1, 0⟩
  | .VST_ADMIN_STATUS => ⟨0x80004, 256, 0x100, 1, 0⟩
  | .VST_ADMIN_SQ_LO => ⟨0x80008, 256, 0x100, 1, 0⟩
  | .VST_ADMIN_SQ_HI => ⟨0x8000C, 256, 0x100, 1, 0⟩
  | .VST_ADMIN_CQ_LO => ⟨0x80010, 256, 0x100, 1, 0⟩
  | .VST_ADMIN_CQ_HI => ⟨0x80014, 256, 0x100, 1, 0⟩
  | .VST_DB_RECORD_LO => ⟨0x80018, 256, 0x100, 1, 0⟩
  | .VST_DB_RECORD_HI => ⟨0x8001C, 256, 0x100, 1, 0⟩
  | .VST_Q_STATUS => ⟨0x80040, 256, 0x100, 16, 4⟩
  | .VST_EVENT => ⟨0x90000, 1, 0x0, 1, 0⟩
  | .VST_DB_DROPPED => ⟨0x90004, 1, 0x0, 1, 0⟩
  | .POOL_CFG => ⟨0x7000, 64, 0x20, 1, 0⟩
  | .POOL_FREE => ⟨0x7004, 64, 0x20, 1, 0⟩
  | .POOL_ERRORS => ⟨0x7008, 64, 0x20, 1, 0⟩
  | .POOL_LOG => ⟨0x700C, 64, 0x20, 1, 0⟩
  | .POOL_LOG_BLOCK => ⟨0x7010, 64, 0x20, 1, 0⟩
  | .PART_CTRL => ⟨0x8000, 16, 0x20, 1, 0⟩
  | .PART_STATUS => ⟨0x8004, 16, 0x20, 1, 0⟩
  | .PART_CLOCK => ⟨0x8008, 16, 0x20, 1, 0⟩
  | .PART_PROFILE => ⟨0x8200, 1, 0x0, 1, 0⟩
  | .PART_QUAR_LO => ⟨0x8204, 1, 0x0, 1, 0⟩
  | .PART_QUAR_HI => ⟨0x8208, 1, 0x0, 1, 0⟩
  | .VI_CFG => ⟨0x10000, 256, 0x20, 1, 0⟩
  | .VI_MSIX => ⟨0x10004, 256, 0x20, 1, 0⟩
  | .VI_QUOTA => ⟨0x10008, 256, 0x20, 1, 0⟩
  | .VI_USED => ⟨0x1000C, 256, 0x20, 1, 0⟩
  | .VI_STATUS => ⟨0x10010, 256, 0x20, 1, 0⟩
  | .VI_EVENT => ⟨0x10014, 256, 0x20, 1, 0⟩
  | .IC_SRC_CFG => ⟨0x14000, 1024, 0x8, 1, 0⟩
  | .IC_SRC_STATE => ⟨0x14004, 1024, 0x8, 1, 0⟩
  | .IC_TGT_CTRL => ⟨0x16000, 10, 0x20, 1, 0⟩
  | .IC_TGT_STATUS => ⟨0x16004, 10, 0x20, 1, 0⟩
  | .IC_TGT_CLAIM => ⟨0x16008, 10, 0x20, 1, 0⟩
  | .IC_TGT_EOI => ⟨0x1600C, 10, 0x20, 1, 0⟩
  | .IC_EVENT => ⟨0x16200, 1, 0x0, 1, 0⟩
  | .IC_SWI => ⟨0x16204, 1, 0x0, 1, 0⟩
  | .IC_BAD_EOI_COUNT => ⟨0x16208, 1, 0x0, 1, 0⟩
  | .IC_VI_NOTICE => ⟨0x17000, 256, 0x10, 1, 0⟩
  | .IC_VI_SYNC => ⟨0x17004, 256, 0x10, 1, 0⟩
  | .IC_VI_EOI => ⟨0x17008, 256, 0x10, 1, 0⟩
  | .CLZ_PORT_CTRL => ⟨0xA0000, 64, 0x400, 1, 0⟩
  | .CLZ_PORT_STATUS => ⟨0xA0004, 64, 0x400, 1, 0⟩
  | .CLZ_PORT_PEER => ⟨0xA0008, 64, 0x400, 1, 0⟩
  | .CLZ_EVENT => ⟨0xA000C, 64, 0x400, 1, 0⟩
  | .CLZ_FEC_CE => ⟨0xA0010, 64, 0x400, 1, 0⟩
  | .CLZ_FEC_UE => ⟨0xA0014, 64, 0x400, 1, 0⟩
  | .CLZ_CRC_ERR => ⟨0xA0018, 64, 0x400, 1, 0⟩
  | .CLZ_REPLAYS => ⟨0xA001C, 64, 0x400, 1, 0⟩
  | .CLZ_WIN_MISS => ⟨0xA0020, 64, 0x400, 1, 0⟩
  | .CLZ_DROPPED => ⟨0xA0024, 64, 0x400, 1, 0⟩
  | .CLZ_WIN_BASE_LO => ⟨0xA0040, 64, 0x400, 1, 0⟩
  | .CLZ_WIN_BASE_HI => ⟨0xA0044, 64, 0x400, 1, 0⟩
  | .CLZ_WIN_PERIOD => ⟨0xA0048, 64, 0x400, 1, 0⟩
  | .CLZ_WIN_CFG => ⟨0xA0100, 64, 0x400, 16, 16⟩
  | .CLZ_WIN_OFFSET => ⟨0xA0104, 64, 0x400, 16, 16⟩
  | .CLZ_WIN_LEN => ⟨0xA0108, 64, 0x400, 16, 16⟩
  | .CLZ_WIN_NOTIFY => ⟨0xA010C, 64, 0x400, 16, 16⟩
  | .CLZ_DIM => ⟨0xB0000, 1, 0x0, 4, 4⟩
  | .CLZ_DIR_LO => ⟨0xB0010, 1, 0x0, 8, 8⟩
  | .CLZ_DIR_HI => ⟨0xB0014, 1, 0x0, 8, 8⟩
  | .CLZ_FLOW => ⟨0xB0104, 1, 0x0, 255, 4⟩
  | .CLZ_EXC_MATCH => ⟨0xB0800, 1, 0x0, 256, 16⟩
  | .CLZ_EXC_MASK => ⟨0xB0804, 1, 0x0, 256, 16⟩
  | .CLZ_EXC_PORTS_LO => ⟨0xB0808, 1, 0x0, 256, 16⟩
  | .CLZ_EXC_PORTS_HI => ⟨0xB080C, 1, 0x0, 256, 16⟩
  | .PCI_ID => ⟨0x9000, 1, 0x0, 1, 0⟩
  | .PCI_LINK => ⟨0x9004, 1, 0x0, 1, 0⟩
  | .PCI_EVENT => ⟨0x9008, 1, 0x0, 1, 0⟩
  | .PCI_HOST_ERR => ⟨0x900C, 1, 0x0, 1, 0⟩
  | .PCI_BAR_ERR => ⟨0x9010, 1, 0x0, 1, 0⟩
  | .PCI_BAR4_BASE => ⟨0x9100, 1, 0x0, 256, 4⟩
  | .PCI_PASID => ⟨0x9500, 1, 0x0, 256, 4⟩
  | .MGT_STATUS => ⟨0xA000, 1, 0x0, 1, 0⟩
  | .MGT_CTRL => ⟨0xA004, 1, 0x0, 1, 0⟩
  | .MGT_EVENT => ⟨0xA008, 1, 0x0, 1, 0⟩
  | .MGT_FLASH => ⟨0xA00C, 1, 0x0, 1, 0⟩
  | .RAS_CTRL => ⟨0xC0000, 1, 0x0, 1, 0⟩
  | .RAS_EVENT => ⟨0xC0004, 1, 0x0, 1, 0⟩
  | .RAS_LAST_ID => ⟨0xC0008, 1, 0x0, 1, 0⟩
  | .RAS_REC_CMD => ⟨0xC000C, 1, 0x0, 1, 0⟩
  | .RAS_REC_STATUS => ⟨0xC0010, 1, 0x0, 1, 0⟩
  | .RAS_RETIRE => ⟨0xC0014, 1, 0x0, 1, 0⟩
  | .RAS_RETIRE_STATUS => ⟨0xC0018, 1, 0x0, 1, 0⟩
  | .RAS_REC_DATA => ⟨0xC0020, 1, 0x0, 24, 4⟩
  | .RAS_RCPT => ⟨0xC0100, 1, 0x0, 8, 4⟩
  | .RAS_THRESH_A => ⟨0xC0200, 1, 0x0, 16, 16⟩
  | .RAS_THRESH_B => ⟨0xC0204, 1, 0x0, 16, 16⟩
  | .RAS_THRESH_C => ⟨0xC0208, 1, 0x0, 16, 16⟩
  | .RAS_BUCKET => ⟨0xD0000, 1, 0x0, 36864, 4⟩
  | .SDC_SH_CTRL => ⟨0x20000, 8, 0x100, 1, 0⟩
  | .SDC_SH_SEED => ⟨0x20004, 8, 0x100, 1, 0⟩
  | .SDC_SH_STATUS => ⟨0x20008, 8, 0x100, 1, 0⟩
  | .SDC_SH_TILES => ⟨0x2000C, 8, 0x100, 1, 0⟩
  | .SDC_SH_EVENTS => ⟨0x20010, 8, 0x100, 1, 0⟩
  | .SDC_SH_SKIPPED => ⟨0x20014, 8, 0x100, 1, 0⟩
  | .SDC_SCAN_STATUS => ⟨0x20018, 8, 0x100, 1, 0⟩
  | .SDC_EVENT => ⟨0x2001C, 8, 0x100, 1, 0⟩
  | .SDC_CTRL => ⟨0x21000, 1, 0x0, 1, 0⟩
  | .SDC_SCAN_PASS => ⟨0x21004, 1, 0x0, 1, 0⟩
  | .SDC_SCAN_FAIL => ⟨0x21008, 1, 0x0, 1, 0⟩
  | .SDC_SCAN_ABORT => ⟨0x2100C, 1, 0x0, 1, 0⟩
  | .SDC_PACK_ID => ⟨0x21100, 16, 0x10, 1, 0⟩
  | .SDC_PACK_SEQ => ⟨0x21104, 16, 0x10, 1, 0⟩
  | .SDC_PACK_STATE => ⟨0x21108, 16, 0x10, 1, 0⟩
  | .INJ_CTRL => ⟨0xB000, 16, 0x20, 1, 0⟩
  | .INJ_TARGET => ⟨0xB004, 16, 0x20, 1, 0⟩
  | .INJ_PARAM => ⟨0xB008, 16, 0x20, 1, 0⟩
  | .INJ_START_LO => ⟨0xB00C, 16, 0x20, 1, 0⟩
  | .INJ_START_HI => ⟨0xB010, 16, 0x20, 1, 0⟩
  | .INJ_PERIOD => ⟨0xB014, 16, 0x20, 1, 0⟩
  | .INJ_REPEAT => ⟨0xB018, 16, 0x20, 1, 0⟩
  | .INJ_COUNT => ⟨0xB01C, 16, 0x20, 1, 0⟩
  | .BOOT_STATUS => ⟨0xC000, 1, 0x0, 1, 0⟩
  | .BOOT_CTRL => ⟨0xC004, 1, 0x0, 1, 0⟩
  | .BOOT_PMC_VER => ⟨0xC008, 1, 0x0, 1, 0⟩
  | .BOOT_HALL_VER => ⟨0xC00C, 1, 0x0, 1, 0⟩
  | .BOOT_READY_MS => ⟨0xC010, 1, 0x0, 1, 0⟩
  | .BOOT_EVENT => ⟨0xC014, 1, 0x0, 1, 0⟩
  | .BOOT_OVERRIDE => ⟨0xC018, 1, 0x0, 1, 0⟩
  | .BOOT_PMC_FAULT => ⟨0xC01C, 1, 0x0, 1, 0⟩
  | .LC_STATUS => ⟨0xD000, 1, 0x0, 1, 0⟩
  | .LC_CMD => ⟨0xD004, 1, 0x0, 1, 0⟩
  | .LC_ID => ⟨0xD008, 1, 0x0, 1, 0⟩
  | .LC_NEXT_ID => ⟨0xD00C, 1, 0x0, 1, 0⟩
  | .LC_FLOOR => ⟨0xD010, 1, 0x0, 1, 0⟩
  | .LC_SERIAL_LO => ⟨0xD014, 1, 0x0, 1, 0⟩
  | .LC_SERIAL_HI => ⟨0xD018, 1, 0x0, 1, 0⟩
  | .PWR_CTRL => ⟨0xE000, 1, 0x0, 1, 0⟩
  | .PWR_STATUS => ⟨0xE004, 1, 0x0, 1, 0⟩
  | .PWR_EVENT => ⟨0xE008, 1, 0x0, 1, 0⟩
  | .PWR_LIMIT => ⟨0xE00C, 1, 0x0, 1, 0⟩
  | .PWR_RAILS => ⟨0xE010, 1, 0x0, 1, 0⟩
  | .PWR_BOARD_OFFSET => ⟨0xE014, 1, 0x0, 1, 0⟩
  | .PWR_HALL_STATUS => ⟨0xE040, 1, 0x0, 8, 8⟩
  | .PWR_HALL_POWER => ⟨0xE044, 1, 0x0, 8, 8⟩

/-- Every register, in the order of R524. -/
def allRegs0 : List Reg :=
  [.GLB_ID, .GLB_MAP, .GLB_SCRATCH0, .GLB_SCRATCH1, .GLB_DENY_LOG,
   .GLB_DENY_COUNT, .TIME_CTRL, .TIME_STATUS, .TIME_NOW_LO, .TIME_NOW_HI,
   .TIME_EPOCH_LO, .TIME_EPOCH_HI, .TIME_EVENT, .TIME_LATE_COUNT, .TIME_OFFSET,
   .TIME_ROOT, .TIME_PORT_DELAY, .TIME_PORT_ASYM, .ALC_CTRL, .ALC_STATUS,
   .ALC_FAULT, .ALC_FAULT_DETAIL, .ALC_BREAK0, .ALC_BREAK1, .ALC_ISTORE_HOLD,
   .ALC_ID, .ALC_BUNDLE_COUNT, .ALC_STALL_COUNT, .ALC_HC_CTRL, .ALC_HC_STATUS,
   .ALC_HC_FAULT, .ALC_HC_FAULT_DETAIL, .XU_STATUS, .XU_PLANES, .XU_CHK_CTRL,
   .XU_CHK_STATUS, .XU_CHK_COUNT, .XU_PASS_COUNT, .XU_BUSY_CYCLES, .TW_STATUS]
def allRegs1 : List Reg :=
  [.TW_NEXT, .TW_DONE, .TW_SHARE, .TW_DESC, .CE_STATUS,
   .CE_ERROR, .CE_PACKETS, .CE_RETRY_COUNT, .CE_GRANT_RETRY, .MEZ_CTRL,
   .MEZ_STATUS, .MEZ_HITS, .MEZ_MISSES, .MEZ_INVAL_LINES, .HBM_CHAN_STATUS,
   .HBM_CHAN_CTRL, .HBM_ECC_CE, .HBM_ECC_UE, .HBM_ERR_LOG, .HBM_RETIRED_HIT,
   .HBM_POISON_READS, .HBM_STACK_STATUS, .HBM_CLASS_WEIGHT, .HBM_INTERLEAVE, .HBM_PART_MAP,
   .HBM_PART_BASE, .HBM_RETIRE_COUNT, .NAR_STATUS, .NAR_REQS, .NAR_RANGE_ERR,
   .NAR_MEZ_HITS, .TGEN_CTRL, .TGEN_START_LINE, .TGEN_COUNT, .TGEN_SEED,
   .TGEN_CONST_HI, .TGEN_STATUS, .TGEN_ERRORS, .TGEN_FIRST_FAIL, .TGEN_LANES0]
def allRegs2 : List Reg :=
  [.TGEN_LANES1, .SYNC_CMD, .SYNC_CMD_STATUS, .SYNC_DATA, .SYNC_EVENT,
   .SYNC_LOG, .SYNC_ENTRIES, .SYNC_MSG_DROPPED, .ANN_CTRL, .ANN_STATUS,
   .ANN_SWEEPS, .ANN_ERROR, .ANN_UPDATES, .ANN_FLIPS, .ANN_EXCH,
   .VST_ADMIN_CTRL, .VST_ADMIN_STATUS, .VST_ADMIN_SQ_LO, .VST_ADMIN_SQ_HI, .VST_ADMIN_CQ_LO,
   .VST_ADMIN_CQ_HI, .VST_DB_RECORD_LO, .VST_DB_RECORD_HI, .VST_Q_STATUS, .VST_EVENT,
   .VST_DB_DROPPED, .POOL_CFG, .POOL_FREE, .POOL_ERRORS, .POOL_LOG,
   .POOL_LOG_BLOCK, .PART_CTRL, .PART_STATUS, .PART_CLOCK, .PART_PROFILE,
   .PART_QUAR_LO, .PART_QUAR_HI, .VI_CFG, .VI_MSIX, .VI_QUOTA]
def allRegs3 : List Reg :=
  [.VI_USED, .VI_STATUS, .VI_EVENT, .IC_SRC_CFG, .IC_SRC_STATE,
   .IC_TGT_CTRL, .IC_TGT_STATUS, .IC_TGT_CLAIM, .IC_TGT_EOI, .IC_EVENT,
   .IC_SWI, .IC_BAD_EOI_COUNT, .IC_VI_NOTICE, .IC_VI_SYNC, .IC_VI_EOI,
   .CLZ_PORT_CTRL, .CLZ_PORT_STATUS, .CLZ_PORT_PEER, .CLZ_EVENT, .CLZ_FEC_CE,
   .CLZ_FEC_UE, .CLZ_CRC_ERR, .CLZ_REPLAYS, .CLZ_WIN_MISS, .CLZ_DROPPED,
   .CLZ_WIN_BASE_LO, .CLZ_WIN_BASE_HI, .CLZ_WIN_PERIOD, .CLZ_WIN_CFG, .CLZ_WIN_OFFSET,
   .CLZ_WIN_LEN, .CLZ_WIN_NOTIFY, .CLZ_DIM, .CLZ_DIR_LO, .CLZ_DIR_HI,
   .CLZ_FLOW, .CLZ_EXC_MATCH, .CLZ_EXC_MASK, .CLZ_EXC_PORTS_LO, .CLZ_EXC_PORTS_HI]
def allRegs4 : List Reg :=
  [.PCI_ID, .PCI_LINK, .PCI_EVENT, .PCI_HOST_ERR, .PCI_BAR_ERR,
   .PCI_BAR4_BASE, .PCI_PASID, .MGT_STATUS, .MGT_CTRL, .MGT_EVENT,
   .MGT_FLASH, .RAS_CTRL, .RAS_EVENT, .RAS_LAST_ID, .RAS_REC_CMD,
   .RAS_REC_STATUS, .RAS_RETIRE, .RAS_RETIRE_STATUS, .RAS_REC_DATA, .RAS_RCPT,
   .RAS_THRESH_A, .RAS_THRESH_B, .RAS_THRESH_C, .RAS_BUCKET, .SDC_SH_CTRL,
   .SDC_SH_SEED, .SDC_SH_STATUS, .SDC_SH_TILES, .SDC_SH_EVENTS, .SDC_SH_SKIPPED,
   .SDC_SCAN_STATUS, .SDC_EVENT, .SDC_CTRL, .SDC_SCAN_PASS, .SDC_SCAN_FAIL,
   .SDC_SCAN_ABORT, .SDC_PACK_ID, .SDC_PACK_SEQ, .SDC_PACK_STATE, .INJ_CTRL]
def allRegs5 : List Reg :=
  [.INJ_TARGET, .INJ_PARAM, .INJ_START_LO, .INJ_START_HI, .INJ_PERIOD,
   .INJ_REPEAT, .INJ_COUNT, .BOOT_STATUS, .BOOT_CTRL, .BOOT_PMC_VER,
   .BOOT_HALL_VER, .BOOT_READY_MS, .BOOT_EVENT, .BOOT_OVERRIDE, .BOOT_PMC_FAULT,
   .LC_STATUS, .LC_CMD, .LC_ID, .LC_NEXT_ID, .LC_FLOOR,
   .LC_SERIAL_LO, .LC_SERIAL_HI, .PWR_CTRL, .PWR_STATUS, .PWR_EVENT,
   .PWR_LIMIT, .PWR_RAILS, .PWR_BOARD_OFFSET, .PWR_HALL_STATUS, .PWR_HALL_POWER]
def allRegs : List Reg :=
  allRegs0 ++ allRegs1 ++ allRegs2 ++ allRegs3 ++ allRegs4 ++ allRegs5

namespace F

def GLB_ID_STEPPING : Fld := ⟨.GLB_ID, 31, 24, .ro, .none, 0xB0⟩
def GLB_ID_ORDER : Fld := ⟨.GLB_ID, 23, 16, .ro, .none, 0x0⟩  -- fused
def GLB_ID_DEVICE : Fld := ⟨.GLB_ID, 15, 0, .ro, .none, 0x0⟩  -- fused
def GLB_MAP_MAP_VERSION : Fld := ⟨.GLB_MAP, 15, 0, .ro, .none, 0x1⟩
def GLB_SCRATCH0_DATA : Fld := ⟨.GLB_SCRATCH0, 31, 0, .rws, .none, 0x0⟩
def GLB_SCRATCH1_DATA : Fld := ⟨.GLB_SCRATCH1, 31, 0, .rws, .none, 0x0⟩
def GLB_DENY_LOG_VALID : Fld := ⟨.GLB_DENY_LOG, 31, 31, .w1c, .set, 0x0⟩
def GLB_DENY_LOG_OVERRUN : Fld := ⟨.GLB_DENY_LOG, 30, 30, .w1c, .set, 0x0⟩
def GLB_DENY_LOG_AGENT : Fld := ⟨.GLB_DENY_LOG, 29, 28, .ro, .none, 0x0⟩
def GLB_DENY_LOG_HALL : Fld := ⟨.GLB_DENY_LOG, 27, 25, .ro, .none, 0x0⟩
def GLB_DENY_LOG_WRITE : Fld := ⟨.GLB_DENY_LOG, 24, 24, .ro, .none, 0x0⟩
def GLB_DENY_LOG_WORD : Fld := ⟨.GLB_DENY_LOG, 23, 0, .ro, .none, 0x0⟩
def GLB_DENY_COUNT_COUNT : Fld := ⟨.GLB_DENY_COUNT, 31, 0, .rw, .add, 0x0⟩
def TIME_CTRL_PRIORITY : Fld := ⟨.TIME_CTRL, 31, 24, .rw, .none, 0x80⟩
def TIME_CTRL_ROLE : Fld := ⟨.TIME_CTRL, 23, 22, .rw, .none, 0x0⟩
def TIME_CTRL_REF_FREQ : Fld := ⟨.TIME_CTRL, 21, 21, .ro, .none, 0x0⟩  -- strap
def TIME_CTRL_PPS_IN_EN : Fld := ⟨.TIME_CTRL, 20, 20, .rw, .none, 0x0⟩
def TIME_CTRL_PPS_OUT_EN : Fld := ⟨.TIME_CTRL, 19, 19, .rw, .none, 0x0⟩
def TIME_STATUS_STATE : Fld := ⟨.TIME_STATUS, 31, 29, .ro, .none, 0x0⟩
def TIME_STATUS_IS_ROOT : Fld := ⟨.TIME_STATUS, 28, 28, .ro, .none, 0x0⟩
def TIME_STATUS_REF_PRESENT : Fld := ⟨.TIME_STATUS, 27, 27, .ro, .none, 0x0⟩
def TIME_STATUS_PPS_PRESENT : Fld := ⟨.TIME_STATUS, 26, 26, .ro, .none, 0x0⟩
def TIME_STATUS_UPSTREAM_VALID : Fld := ⟨.TIME_STATUS, 25, 25, .ro, .none, 0x0⟩
def TIME_STATUS_UPSTREAM_PORT : Fld := ⟨.TIME_STATUS, 24, 19, .ro, .none, 0x0⟩
def TIME_NOW_LO_NOW_LO : Fld := ⟨.TIME_NOW_LO, 31, 0, .ro, .none, 0x0⟩
def TIME_NOW_HI_NOW_HI : Fld := ⟨.TIME_NOW_HI, 31, 0, .ro, .none, 0x0⟩
def TIME_EPOCH_LO_EPOCH_LO : Fld := ⟨.TIME_EPOCH_LO, 31, 0, .rw, .none, 0x0⟩
def TIME_EPOCH_HI_EPOCH_HI : Fld := ⟨.TIME_EPOCH_HI, 31, 0, .rw, .none, 0x0⟩
def TIME_EVENT_UNALIGNED_LAUNCH : Fld := ⟨.TIME_EVENT, 5, 5, .w1c, .set, 0x0⟩
def TIME_EVENT_ROOT_CONFLICT : Fld := ⟨.TIME_EVENT, 4, 4, .w1c, .set, 0x0⟩
def TIME_EVENT_ROOT_CHANGE : Fld := ⟨.TIME_EVENT, 3, 3, .w1c, .set, 0x0⟩
def TIME_EVENT_HOLDOVER_ENTER : Fld := ⟨.TIME_EVENT, 2, 2, .w1c, .set, 0x0⟩
def TIME_EVENT_REF_LOST : Fld := ⟨.TIME_EVENT, 1, 1, .w1c, .set, 0x0⟩
def TIME_EVENT_LOCK_LOST : Fld := ⟨.TIME_EVENT, 0, 0, .w1c, .set, 0x0⟩
def TIME_LATE_COUNT_LATE : Fld := ⟨.TIME_LATE_COUNT, 31, 0, .rw, .add, 0x0⟩
def TIME_OFFSET_FILT : Fld := ⟨.TIME_OFFSET, 31, 0, .ro, .none, 0x0⟩
def TIME_ROOT_ROOT_PRIORITY : Fld := ⟨.TIME_ROOT, 31, 24, .ro, .none, 0x0⟩
def TIME_ROOT_ROOT_CONFIGURED : Fld := ⟨.TIME_ROOT, 23, 23, .ro, .none, 0x0⟩
def TIME_ROOT_HOPS : Fld := ⟨.TIME_ROOT, 21, 17, .ro, .none, 0x0⟩
def TIME_ROOT_ROOT_ID : Fld := ⟨.TIME_ROOT, 16, 0, .ro, .none, 0x0⟩
def TIME_PORT_DELAY_VALID : Fld := ⟨.TIME_PORT_DELAY, 31, 31, .ro, .none, 0x0⟩
def TIME_PORT_DELAY_DELAY : Fld := ⟨.TIME_PORT_DELAY, 23, 0, .ro, .none, 0x0⟩
def TIME_PORT_ASYM_ASYM : Fld := ⟨.TIME_PORT_ASYM, 15, 0, .rw, .none, 0x0⟩
def ALC_CTRL_ISTORE_FORCE : Fld := ⟨.ALC_CTRL, 7, 7, .rw, .none, 0x0⟩
def ALC_CTRL_BREAK1_EN : Fld := ⟨.ALC_CTRL, 6, 6, .rw, .none, 0x0⟩
def ALC_CTRL_BREAK0_EN : Fld := ⟨.ALC_CTRL, 5, 5, .rw, .none, 0x0⟩
def ALC_CTRL_STEP : Fld := ⟨.ALC_CTRL, 4, 4, .wo, .none, 0x0⟩
def ALC_CTRL_RESUME : Fld := ⟨.ALC_CTRL, 3, 3, .wo, .none, 0x0⟩
def ALC_CTRL_HALT : Fld := ⟨.ALC_CTRL, 2, 2, .wo, .none, 0x0⟩
def ALC_STATUS_STATE : Fld := ⟨.ALC_STATUS, 31, 28, .ro, .none, 0x0⟩
def ALC_STATUS_SHIFT_BUSY : Fld := ⟨.ALC_STATUS, 27, 24, .ro, .none, 0x0⟩
def ALC_STATUS_ISTORE_HELD : Fld := ⟨.ALC_STATUS, 23, 23, .ro, .none, 0x0⟩
def ALC_STATUS_PC : Fld := ⟨.ALC_STATUS, 11, 0, .ro, .none, 0x0⟩
def ALC_FAULT_VALID : Fld := ⟨.ALC_FAULT, 31, 31, .w1c, .set, 0x0⟩
def ALC_FAULT_SLOT : Fld := ⟨.ALC_FAULT, 30, 28, .ro, .none, 0x0⟩
def ALC_FAULT_CODE : Fld := ⟨.ALC_FAULT, 27, 20, .ro, .none, 0x0⟩
def ALC_FAULT_OVERRUN : Fld := ⟨.ALC_FAULT, 19, 19, .w1c, .set, 0x0⟩
def ALC_FAULT_PC : Fld := ⟨.ALC_FAULT, 11, 0, .ro, .none, 0x0⟩
def ALC_FAULT_DETAIL_DETAIL : Fld := ⟨.ALC_FAULT_DETAIL, 31, 0, .ro, .none, 0x0⟩
def ALC_BREAK0_PC : Fld := ⟨.ALC_BREAK0, 11, 0, .rw, .none, 0x0⟩
def ALC_BREAK1_PC : Fld := ⟨.ALC_BREAK1, 11, 0, .rw, .none, 0x0⟩
def ALC_ISTORE_HOLD_FORCED : Fld := ⟨.ALC_ISTORE_HOLD, 31, 16, .rw, .add, 0x0⟩
def ALC_ISTORE_HOLD_HELD : Fld := ⟨.ALC_ISTORE_HOLD, 15, 0, .rw, .add, 0x0⟩
def ALC_ID_SPARE_IN_USE : Fld := ⟨.ALC_ID, 9, 9, .ro, .none, 0x0⟩  -- per unit
def ALC_ID_HALF : Fld := ⟨.ALC_ID, 8, 8, .ro, .none, 0x0⟩  -- per unit
def ALC_ID_NUMBER : Fld := ⟨.ALC_ID, 7, 0, .ro, .none, 0x0⟩  -- per unit
def ALC_BUNDLE_COUNT_COUNT : Fld := ⟨.ALC_BUNDLE_COUNT, 31, 0, .rw, .add, 0x0⟩
def ALC_STALL_COUNT_COUNT : Fld := ⟨.ALC_STALL_COUNT, 31, 0, .rw, .add, 0x0⟩
def ALC_HC_CTRL_RESTART : Fld := ⟨.ALC_HC_CTRL, 2, 2, .wo, .none, 0x0⟩
def ALC_HC_CTRL_RESUME : Fld := ⟨.ALC_HC_CTRL, 1, 1, .wo, .none, 0x0⟩
def ALC_HC_CTRL_HALT : Fld := ⟨.ALC_HC_CTRL, 0, 0, .wo, .none, 0x0⟩
def ALC_HC_STATUS_STATE : Fld := ⟨.ALC_HC_STATUS, 31, 28, .ro, .none, 0x0⟩
def ALC_HC_STATUS_BANK : Fld := ⟨.ALC_HC_STATUS, 27, 27, .ro, .none, 0x0⟩
def ALC_HC_STATUS_PC : Fld := ⟨.ALC_HC_STATUS, 10, 0, .ro, .none, 0x0⟩
def ALC_HC_FAULT_VALID : Fld := ⟨.ALC_HC_FAULT, 31, 31, .w1c, .set, 0x0⟩
def ALC_HC_FAULT_SLOT : Fld := ⟨.ALC_HC_FAULT, 30, 28, .ro, .none, 0x0⟩
def ALC_HC_FAULT_CODE : Fld := ⟨.ALC_HC_FAULT, 27, 20, .ro, .none, 0x0⟩
def ALC_HC_FAULT_OVERRUN : Fld := ⟨.ALC_HC_FAULT, 19, 19, .w1c, .set, 0x0⟩
def ALC_HC_FAULT_PC : Fld := ⟨.ALC_HC_FAULT, 11, 0, .ro, .none, 0x0⟩
def ALC_HC_FAULT_DETAIL_DETAIL : Fld := ⟨.ALC_HC_FAULT_DETAIL, 31, 0, .ro, .none, 0x0⟩
def XU_STATUS_MODE : Fld := ⟨.XU_STATUS, 31, 30, .ro, .none, 0x0⟩
def XU_STATUS_PASS_BUSY : Fld := ⟨.XU_STATUS, 29, 26, .ro, .none, 0x0⟩
def XU_STATUS_SHIFT_BUSY : Fld := ⟨.XU_STATUS, 25, 22, .ro, .none, 0x0⟩
def XU_STATUS_QDEPTH3 : Fld := ⟨.XU_STATUS, 15, 12, .ro, .none, 0x0⟩
def XU_STATUS_QDEPTH2 : Fld := ⟨.XU_STATUS, 11, 8, .ro, .none, 0x0⟩
def XU_STATUS_QDEPTH1 : Fld := ⟨.XU_STATUS, 7, 4, .ro, .none, 0x0⟩
def XU_STATUS_QDEPTH0 : Fld := ⟨.XU_STATUS, 3, 0, .ro, .none, 0x0⟩
def XU_PLANES_X3_ACTIVE : Fld := ⟨.XU_PLANES, 31, 30, .ro, .none, 0x0⟩
def XU_PLANES_X3_SHADOW : Fld := ⟨.XU_PLANES, 29, 28, .ro, .none, 0x0⟩
def XU_PLANES_X3_FORMAT : Fld := ⟨.XU_PLANES, 27, 24, .ro, .none, 0x0⟩
def XU_PLANES_X2_ACTIVE : Fld := ⟨.XU_PLANES, 23, 22, .ro, .none, 0x0⟩
def XU_PLANES_X2_SHADOW : Fld := ⟨.XU_PLANES, 21, 20, .ro, .none, 0x0⟩
def XU_PLANES_X2_FORMAT : Fld := ⟨.XU_PLANES, 19, 16, .ro, .none, 0x0⟩
def XU_PLANES_X1_ACTIVE : Fld := ⟨.XU_PLANES, 15, 14, .ro, .none, 0x0⟩
def XU_PLANES_X1_SHADOW : Fld := ⟨.XU_PLANES, 13, 12, .ro, .none, 0x0⟩
def XU_PLANES_X1_FORMAT : Fld := ⟨.XU_PLANES, 11, 8, .ro, .none, 0x0⟩
def XU_PLANES_X0_ACTIVE : Fld := ⟨.XU_PLANES, 7, 6, .ro, .none, 0x0⟩
def XU_PLANES_X0_SHADOW : Fld := ⟨.XU_PLANES, 5, 4, .ro, .none, 0x0⟩
def XU_PLANES_X0_FORMAT : Fld := ⟨.XU_PLANES, 3, 0, .ro, .none, 0x0⟩
def XU_CHK_CTRL_IRQ_EN : Fld := ⟨.XU_CHK_CTRL, 13, 13, .rw, .none, 0x1⟩
def XU_CHK_CTRL_TOL : Fld := ⟨.XU_CHK_CTRL, 12, 8, .rw, .none, 0xC⟩
def XU_CHK_CTRL_FORCE : Fld := ⟨.XU_CHK_CTRL, 0, 0, .rw, .none, 0x0⟩
def XU_CHK_STATUS_MISMATCH : Fld := ⟨.XU_CHK_STATUS, 31, 31, .w1c, .set, 0x0⟩
def XU_CHK_STATUS_OVERRUN : Fld := ⟨.XU_CHK_STATUS, 30, 30, .w1c, .set, 0x0⟩
def XU_CHK_STATUS_UNIT : Fld := ⟨.XU_CHK_STATUS, 29, 28, .ro, .none, 0x0⟩
def XU_CHK_STATUS_KIND : Fld := ⟨.XU_CHK_STATUS, 27, 27, .ro, .none, 0x0⟩
def XU_CHK_STATUS_INDEX : Fld := ⟨.XU_CHK_STATUS, 19, 12, .ro, .none, 0x0⟩
def XU_CHK_STATUS_PC : Fld := ⟨.XU_CHK_STATUS, 11, 0, .ro, .none, 0x0⟩
def XU_CHK_COUNT_SKIPPED : Fld := ⟨.XU_CHK_COUNT, 31, 16, .rw, .add, 0x0⟩
def XU_CHK_COUNT_MISMATCHES : Fld := ⟨.XU_CHK_COUNT, 15, 0, .rw, .add, 0x0⟩
def XU_PASS_COUNT_COUNT : Fld := ⟨.XU_PASS_COUNT, 31, 0, .rw, .add, 0x0⟩
def XU_BUSY_CYCLES_COUNT : Fld := ⟨.XU_BUSY_CYCLES, 31, 0, .rw, .add, 0x0⟩
def TW_STATUS_LOADED : Fld := ⟨.TW_STATUS, 31, 31, .ro, .none, 0x0⟩
def TW_STATUS_EXHAUSTED : Fld := ⟨.TW_STATUS, 30, 30, .ro, .none, 0x0⟩
def TW_STATUS_ORDER : Fld := ⟨.TW_STATUS, 29, 28, .ro, .none, 0x0⟩
def TW_STATUS_SPLIT : Fld := ⟨.TW_STATUS, 27, 27, .ro, .none, 0x0⟩
def TW_STATUS_QUEUED : Fld := ⟨.TW_STATUS, 26, 24, .ro, .none, 0x0⟩
def TW_NEXT_NEXT : Fld := ⟨.TW_NEXT, 31, 0, .ro, .none, 0x0⟩
def TW_DONE_DONE : Fld := ⟨.TW_DONE, 31, 0, .ro, .none, 0x0⟩
def TW_SHARE_SHARE : Fld := ⟨.TW_SHARE, 31, 0, .ro, .none, 0x0⟩
def TW_DESC_WORD : Fld := ⟨.TW_DESC, 31, 0, .ro, .none, 0x0⟩
def CE_STATUS_STATE : Fld := ⟨.CE_STATUS, 31, 30, .ro, .none, 0x0⟩
def CE_STATUS_QDEPTH : Fld := ⟨.CE_STATUS, 29, 24, .ro, .none, 0x0⟩
def CE_ERROR_VALID : Fld := ⟨.CE_ERROR, 31, 31, .w1c, .set, 0x0⟩
def CE_ERROR_OVERRUN : Fld := ⟨.CE_ERROR, 30, 30, .w1c, .set, 0x0⟩
def CE_ERROR_CODE : Fld := ⟨.CE_ERROR, 29, 24, .ro, .none, 0x0⟩
def CE_ERROR_TAG : Fld := ⟨.CE_ERROR, 15, 0, .ro, .none, 0x0⟩
def CE_PACKETS_COUNT : Fld := ⟨.CE_PACKETS, 31, 0, .rw, .add, 0x0⟩
def CE_RETRY_COUNT_COUNT : Fld := ⟨.CE_RETRY_COUNT, 31, 0, .rw, .add, 0x0⟩
def CE_GRANT_RETRY_COUNT : Fld := ⟨.CE_GRANT_RETRY, 31, 0, .rw, .add, 0x0⟩
def MEZ_CTRL_SPLIT : Fld := ⟨.MEZ_CTRL, 2, 2, .ro, .none, 0x0⟩
def MEZ_CTRL_INVAL_ALL : Fld := ⟨.MEZ_CTRL, 1, 1, .wo, .none, 0x0⟩
def MEZ_CTRL_ENABLE : Fld := ⟨.MEZ_CTRL, 0, 0, .rw, .none, 0x1⟩
def MEZ_STATUS_INVAL_BUSY : Fld := ⟨.MEZ_STATUS, 31, 31, .ro, .none, 0x0⟩
def MEZ_HITS_COUNT : Fld := ⟨.MEZ_HITS, 31, 0, .rw, .add, 0x0⟩
def MEZ_MISSES_COUNT : Fld := ⟨.MEZ_MISSES, 31, 0, .rw, .add, 0x0⟩
def MEZ_INVAL_LINES_COUNT : Fld := ⟨.MEZ_INVAL_LINES, 31, 0, .rw, .add, 0x0⟩
def HBM_CHAN_STATUS_STATE : Fld := ⟨.HBM_CHAN_STATUS, 31, 29, .ro, .none, 0x0⟩
def HBM_CHAN_STATUS_PC1_RETIRED : Fld := ⟨.HBM_CHAN_STATUS, 28, 28, .ro, .none, 0x0⟩
def HBM_CHAN_STATUS_PC0_RETIRED : Fld := ⟨.HBM_CHAN_STATUS, 27, 27, .ro, .none, 0x0⟩
def HBM_CHAN_STATUS_EXCLUDED : Fld := ⟨.HBM_CHAN_STATUS, 26, 26, .ro, .none, 0x0⟩
def HBM_CHAN_STATUS_LANES_REPAIRED : Fld := ⟨.HBM_CHAN_STATUS, 25, 22, .ro, .none, 0x0⟩
def HBM_CHAN_CTRL_TEST_REQ : Fld := ⟨.HBM_CHAN_CTRL, 0, 0, .rws, .none, 0x0⟩
def HBM_ECC_CE_CE_PC1 : Fld := ⟨.HBM_ECC_CE, 31, 16, .rw, .add, 0x0⟩
def HBM_ECC_CE_CE_PC0 : Fld := ⟨.HBM_ECC_CE, 15, 0, .rw, .add, 0x0⟩
def HBM_ECC_UE_UE_PERM_PC1 : Fld := ⟨.HBM_ECC_UE, 31, 24, .rw, .add, 0x0⟩
def HBM_ECC_UE_UE_TRANS_PC1 : Fld := ⟨.HBM_ECC_UE, 23, 16, .rw, .add, 0x0⟩
def HBM_ECC_UE_UE_PERM_PC0 : Fld := ⟨.HBM_ECC_UE, 15, 8, .rw, .add, 0x0⟩
def HBM_ECC_UE_UE_TRANS_PC0 : Fld := ⟨.HBM_ECC_UE, 7, 0, .rw, .add, 0x0⟩
def HBM_ERR_LOG_VALID : Fld := ⟨.HBM_ERR_LOG, 31, 31, .w1c, .set, 0x0⟩
def HBM_ERR_LOG_OVERRUN : Fld := ⟨.HBM_ERR_LOG, 30, 30, .w1c, .set, 0x0⟩
def HBM_ERR_LOG_KIND : Fld := ⟨.HBM_ERR_LOG, 29, 28, .ro, .none, 0x0⟩
def HBM_ERR_LOG_PC : Fld := ⟨.HBM_ERR_LOG, 27, 27, .ro, .none, 0x0⟩
def HBM_ERR_LOG_POSITION : Fld := ⟨.HBM_ERR_LOG, 26, 25, .ro, .none, 0x0⟩
def HBM_ERR_LOG_LINE : Fld := ⟨.HBM_ERR_LOG, 22, 0, .ro, .none, 0x0⟩
def HBM_RETIRED_HIT_COUNT : Fld := ⟨.HBM_RETIRED_HIT, 31, 0, .rw, .add, 0x0⟩
def HBM_POISON_READS_COUNT : Fld := ⟨.HBM_POISON_READS, 31, 0, .rw, .add, 0x0⟩
def HBM_STACK_STATUS_TEMP : Fld := ⟨.HBM_STACK_STATUS, 31, 24, .ro, .none, 0x0⟩
def HBM_STACK_STATUS_REFRESH : Fld := ⟨.HBM_STACK_STATUS, 23, 22, .ro, .none, 0x0⟩
def HBM_CLASS_WEIGHT_W0W : Fld := ⟨.HBM_CLASS_WEIGHT, 31, 24, .rw, .none, 0x8⟩
def HBM_CLASS_WEIGHT_W1 : Fld := ⟨.HBM_CLASS_WEIGHT, 23, 16, .rw, .none, 0x8⟩
def HBM_CLASS_WEIGHT_W2 : Fld := ⟨.HBM_CLASS_WEIGHT, 15, 8, .rw, .none, 0x4⟩
def HBM_CLASS_WEIGHT_W3 : Fld := ⟨.HBM_CLASS_WEIGHT, 7, 0, .rw, .none, 0x2⟩
def HBM_INTERLEAVE_LOCAL : Fld := ⟨.HBM_INTERLEAVE, 4, 0, .rw, .none, 0x0⟩  -- profile
def HBM_PART_MAP_LOCAL_APPLIED : Fld := ⟨.HBM_PART_MAP, 31, 27, .ro, .none, 0x0⟩
def HBM_PART_MAP_CHANNELS : Fld := ⟨.HBM_PART_MAP, 26, 18, .ro, .none, 0x0⟩
def HBM_PART_MAP_CAPACITY : Fld := ⟨.HBM_PART_MAP, 12, 0, .ro, .none, 0x0⟩
def HBM_PART_BASE_BASE_HH : Fld := ⟨.HBM_PART_BASE, 3, 0, .ro, .none, 0x0⟩
def HBM_RETIRE_COUNT_ENTRIES : Fld := ⟨.HBM_RETIRE_COUNT, 10, 0, .ro, .none, 0x0⟩
def NAR_STATUS_OUTSTANDING : Fld := ⟨.NAR_STATUS, 31, 23, .ro, .none, 0x0⟩
def NAR_STATUS_BUSY : Fld := ⟨.NAR_STATUS, 22, 22, .ro, .none, 0x0⟩
def NAR_REQS_COUNT : Fld := ⟨.NAR_REQS, 31, 0, .rw, .add, 0x0⟩
def NAR_RANGE_ERR_COUNT : Fld := ⟨.NAR_RANGE_ERR, 31, 0, .rw, .add, 0x0⟩
def NAR_MEZ_HITS_COUNT : Fld := ⟨.NAR_MEZ_HITS, 31, 0, .rw, .add, 0x0⟩
def TGEN_CTRL_START : Fld := ⟨.TGEN_CTRL, 31, 31, .wo, .none, 0x0⟩
def TGEN_CTRL_ABORT : Fld := ⟨.TGEN_CTRL, 30, 30, .wo, .none, 0x0⟩
def TGEN_CTRL_OP : Fld := ⟨.TGEN_CTRL, 29, 28, .rw, .none, 0x0⟩
def TGEN_CTRL_PATTERN : Fld := ⟨.TGEN_CTRL, 27, 26, .rw, .none, 0x0⟩
def TGEN_CTRL_ORDER : Fld := ⟨.TGEN_CTRL, 25, 25, .rw, .none, 0x0⟩
def TGEN_CTRL_RAW : Fld := ⟨.TGEN_CTRL, 24, 24, .rw, .none, 0x0⟩
def TGEN_CTRL_PC_MASK : Fld := ⟨.TGEN_CTRL, 23, 22, .rw, .none, 0x3⟩
def TGEN_START_LINE_START_LINE : Fld := ⟨.TGEN_START_LINE, 22, 0, .rw, .none, 0x0⟩
def TGEN_COUNT_COUNT : Fld := ⟨.TGEN_COUNT, 23, 0, .rw, .none, 0x0⟩
def TGEN_SEED_SEED : Fld := ⟨.TGEN_SEED, 31, 0, .rw, .none, 0x0⟩
def TGEN_CONST_HI_CONST_HI : Fld := ⟨.TGEN_CONST_HI, 31, 0, .rw, .none, 0x0⟩
def TGEN_STATUS_STATE : Fld := ⟨.TGEN_STATUS, 31, 30, .ro, .none, 0x0⟩
def TGEN_STATUS_FAIL : Fld := ⟨.TGEN_STATUS, 29, 29, .ro, .none, 0x0⟩
def TGEN_STATUS_REFUSED : Fld := ⟨.TGEN_STATUS, 28, 28, .w1c, .set, 0x0⟩
def TGEN_STATUS_ECC_LANES_PC1 : Fld := ⟨.TGEN_STATUS, 7, 4, .w1c, .set, 0x0⟩
def TGEN_STATUS_ECC_LANES_PC0 : Fld := ⟨.TGEN_STATUS, 3, 0, .w1c, .set, 0x0⟩
def TGEN_ERRORS_COUNT : Fld := ⟨.TGEN_ERRORS, 31, 0, .rw, .add, 0x0⟩
def TGEN_FIRST_FAIL_VALID : Fld := ⟨.TGEN_FIRST_FAIL, 31, 31, .w1c, .set, 0x0⟩
def TGEN_FIRST_FAIL_PC : Fld := ⟨.TGEN_FIRST_FAIL, 27, 27, .ro, .none, 0x0⟩
def TGEN_FIRST_FAIL_POSITION : Fld := ⟨.TGEN_FIRST_FAIL, 26, 25, .ro, .none, 0x0⟩
def TGEN_FIRST_FAIL_LINE : Fld := ⟨.TGEN_FIRST_FAIL, 22, 0, .ro, .none, 0x0⟩
def TGEN_LANES0_LANES : Fld := ⟨.TGEN_LANES0, 31, 0, .w1c, .set, 0x0⟩
def TGEN_LANES1_LANES : Fld := ⟨.TGEN_LANES1, 31, 0, .w1c, .set, 0x0⟩
def SYNC_CMD_OP : Fld := ⟨.SYNC_CMD, 31, 28, .wo, .none, 0x0⟩
def SYNC_CMD_KIND : Fld := ⟨.SYNC_CMD, 27, 25, .wo, .none, 0x0⟩
def SYNC_CMD_INDEX : Fld := ⟨.SYNC_CMD, 11, 0, .wo, .none, 0x0⟩
def SYNC_CMD_STATUS_BUSY : Fld := ⟨.SYNC_CMD_STATUS, 31, 31, .ro, .none, 0x0⟩
def SYNC_CMD_STATUS_RESULT : Fld := ⟨.SYNC_CMD_STATUS, 30, 28, .ro, .none, 0x0⟩
def SYNC_CMD_STATUS_OFFSET : Fld := ⟨.SYNC_CMD_STATUS, 5, 0, .ro, .none, 0x0⟩
def SYNC_DATA_WORD : Fld := ⟨.SYNC_DATA, 31, 0, .rw, .none, 0x0⟩
def SYNC_EVENT_UNCONFIGURED : Fld := ⟨.SYNC_EVENT, 6, 6, .w1c, .set, 0x0⟩
def SYNC_EVENT_MSG_DROPPED : Fld := ⟨.SYNC_EVENT, 5, 5, .w1c, .set, 0x0⟩
def SYNC_EVENT_WAIT_UNSATISFIABLE : Fld := ⟨.SYNC_EVENT, 4, 4, .w1c, .set, 0x0⟩
def SYNC_EVENT_LANDING_STALLED : Fld := ⟨.SYNC_EVENT, 3, 3, .w1c, .set, 0x0⟩
def SYNC_EVENT_LANDING_SLACK : Fld := ⟨.SYNC_EVENT, 2, 2, .w1c, .set, 0x0⟩
def SYNC_EVENT_DOUBLE_ARRIVAL : Fld := ⟨.SYNC_EVENT, 1, 1, .w1c, .set, 0x0⟩
def SYNC_EVENT_TOKEN_OVERFLOW : Fld := ⟨.SYNC_EVENT, 0, 0, .w1c, .set, 0x0⟩
def SYNC_LOG_VALID : Fld := ⟨.SYNC_LOG, 31, 31, .w1c, .set, 0x0⟩
def SYNC_LOG_KIND : Fld := ⟨.SYNC_LOG, 30, 30, .ro, .none, 0x0⟩
def SYNC_LOG_AGENT : Fld := ⟨.SYNC_LOG, 24, 12, .ro, .none, 0x0⟩
def SYNC_LOG_OBJECT : Fld := ⟨.SYNC_LOG, 11, 0, .ro, .none, 0x0⟩
def SYNC_ENTRIES_RESERVED_E : Fld := ⟨.SYNC_ENTRIES, 31, 16, .ro, .none, 0x0⟩
def SYNC_ENTRIES_USED : Fld := ⟨.SYNC_ENTRIES, 15, 0, .ro, .none, 0x0⟩
def SYNC_MSG_DROPPED_COUNT : Fld := ⟨.SYNC_MSG_DROPPED, 31, 0, .rw, .add, 0x0⟩
def ANN_CTRL_HOLD : Fld := ⟨.ANN_CTRL, 0, 0, .rw, .none, 0x0⟩
def ANN_STATUS_STATE : Fld := ⟨.ANN_STATUS, 31, 29, .ro, .none, 0x0⟩
def ANN_STATUS_REPLICAS : Fld := ⟨.ANN_STATUS, 28, 23, .ro, .none, 0x0⟩
def ANN_STATUS_BLOCK : Fld := ⟨.ANN_STATUS, 9, 0, .ro, .none, 0x0⟩
def ANN_SWEEPS_COUNT : Fld := ⟨.ANN_SWEEPS, 31, 0, .ro, .none, 0x0⟩
def ANN_ERROR_VALID : Fld := ⟨.ANN_ERROR, 31, 31, .w1c, .set, 0x0⟩
def ANN_ERROR_OVERRUN : Fld := ⟨.ANN_ERROR, 30, 30, .w1c, .set, 0x0⟩
def ANN_ERROR_CODE : Fld := ⟨.ANN_ERROR, 29, 24, .ro, .none, 0x0⟩
def ANN_ERROR_SPIN : Fld := ⟨.ANN_ERROR, 23, 0, .ro, .none, 0x0⟩
def ANN_UPDATES_COUNT : Fld := ⟨.ANN_UPDATES, 31, 0, .rw, .add, 0x0⟩
def ANN_FLIPS_COUNT : Fld := ⟨.ANN_FLIPS, 31, 0, .rw, .add, 0x0⟩
def ANN_EXCH_COUNT : Fld := ⟨.ANN_EXCH, 31, 0, .rw, .add, 0x0⟩
def VST_ADMIN_CTRL_ENABLE : Fld := ⟨.VST_ADMIN_CTRL, 31, 31, .rw, .none, 0x0⟩
def VST_ADMIN_CTRL_POLLED : Fld := ⟨.VST_ADMIN_CTRL, 30, 30, .rw, .none, 0x0⟩
def VST_ADMIN_CTRL_POLL_US : Fld := ⟨.VST_ADMIN_CTRL, 29, 23, .rw, .none, 0xA⟩
def VST_ADMIN_CTRL_SQ_LOG2 : Fld := ⟨.VST_ADMIN_CTRL, 22, 19, .rw, .none, 0x4⟩
def VST_ADMIN_CTRL_CQ_LOG2 : Fld := ⟨.VST_ADMIN_CTRL, 18, 15, .rw, .none, 0x4⟩
def VST_ADMIN_CTRL_MSIX : Fld := ⟨.VST_ADMIN_CTRL, 10, 0, .rw, .none, 0x0⟩
def VST_ADMIN_STATUS_STATE : Fld := ⟨.VST_ADMIN_STATUS, 31, 30, .ro, .none, 0x0⟩
def VST_ADMIN_STATUS_RESTRICTED : Fld := ⟨.VST_ADMIN_STATUS, 29, 29, .ro, .none, 0x0⟩
def VST_ADMIN_STATUS_UNVALIDATED : Fld := ⟨.VST_ADMIN_STATUS, 28, 28, .ro, .none, 0x0⟩
def VST_ADMIN_STATUS_HEAD : Fld := ⟨.VST_ADMIN_STATUS, 11, 0, .ro, .none, 0x0⟩
def VST_ADMIN_SQ_LO_ADDR : Fld := ⟨.VST_ADMIN_SQ_LO, 31, 0, .rw, .none, 0x0⟩
def VST_ADMIN_SQ_HI_ADDR : Fld := ⟨.VST_ADMIN_SQ_HI, 31, 0, .rw, .none, 0x0⟩
def VST_ADMIN_CQ_LO_ADDR : Fld := ⟨.VST_ADMIN_CQ_LO, 31, 0, .rw, .none, 0x0⟩
def VST_ADMIN_CQ_HI_ADDR : Fld := ⟨.VST_ADMIN_CQ_HI, 31, 0, .rw, .none, 0x0⟩
def VST_DB_RECORD_LO_ADDR : Fld := ⟨.VST_DB_RECORD_LO, 31, 0, .rw, .none, 0x0⟩
def VST_DB_RECORD_HI_ADDR : Fld := ⟨.VST_DB_RECORD_HI, 31, 0, .rw, .none, 0x0⟩
def VST_Q_STATUS_STATE : Fld := ⟨.VST_Q_STATUS, 31, 29, .ro, .none, 0x0⟩
def VST_Q_STATUS_PRIORITY : Fld := ⟨.VST_Q_STATUS, 28, 26, .ro, .none, 0x0⟩
def VST_Q_STATUS_PAUSED : Fld := ⟨.VST_Q_STATUS, 25, 25, .ro, .none, 0x0⟩
def VST_Q_STATUS_RING_FULL : Fld := ⟨.VST_Q_STATUS, 24, 24, .ro, .none, 0x0⟩
def VST_Q_STATUS_QUEUE : Fld := ⟨.VST_Q_STATUS, 23, 12, .ro, .none, 0x0⟩
def VST_EVENT_RING_BAD : Fld := ⟨.VST_EVENT, 1, 1, .w1c, .set, 0x0⟩
def VST_EVENT_DB_BAD : Fld := ⟨.VST_EVENT, 0, 0, .w1c, .set, 0x0⟩
def VST_DB_DROPPED_COUNT : Fld := ⟨.VST_DB_DROPPED, 31, 0, .rw, .add, 0x0⟩
def POOL_CFG_VALID : Fld := ⟨.POOL_CFG, 31, 31, .ro, .none, 0x0⟩
def POOL_CFG_BLOCK_LOG2 : Fld := ⟨.POOL_CFG, 30, 26, .ro, .none, 0x0⟩
def POOL_CFG_COUNT : Fld := ⟨.POOL_CFG, 20, 0, .ro, .none, 0x0⟩
def POOL_FREE_FREE : Fld := ⟨.POOL_FREE, 20, 0, .ro, .none, 0x0⟩
def POOL_ERRORS_NOT_OWNER : Fld := ⟨.POOL_ERRORS, 31, 16, .rw, .add, 0x0⟩
def POOL_ERRORS_DOUBLE_FREE : Fld := ⟨.POOL_ERRORS, 15, 0, .rw, .add, 0x0⟩
def POOL_LOG_VALID : Fld := ⟨.POOL_LOG, 31, 31, .w1c, .set, 0x0⟩
def POOL_LOG_OVERRUN : Fld := ⟨.POOL_LOG, 30, 30, .w1c, .set, 0x0⟩
def POOL_LOG_FREER : Fld := ⟨.POOL_LOG, 15, 8, .ro, .none, 0x0⟩
def POOL_LOG_OWNER : Fld := ⟨.POOL_LOG, 7, 0, .ro, .none, 0x0⟩
def POOL_LOG_BLOCK_BLOCK : Fld := ⟨.POOL_LOG_BLOCK, 19, 0, .ro, .none, 0x0⟩
def PART_CTRL_RESET : Fld := ⟨.PART_CTRL, 0, 0, .wo, .none, 0x0⟩
def PART_STATUS_HALF_MASK : Fld := ⟨.PART_STATUS, 31, 16, .ro, .none, 0x0⟩
def PART_STATUS_EXISTS : Fld := ⟨.PART_STATUS, 15, 15, .ro, .none, 0x0⟩
def PART_STATUS_ALCOVES : Fld := ⟨.PART_STATUS, 14, 6, .ro, .none, 0x0⟩
def PART_CLOCK_MHZ : Fld := ⟨.PART_CLOCK, 15, 0, .ro, .none, 0x0⟩
def PART_PROFILE_ACTIVE : Fld := ⟨.PART_PROFILE, 31, 30, .ro, .none, 0x0⟩
def PART_PROFILE_PENDING_VALID : Fld := ⟨.PART_PROFILE, 29, 29, .ro, .none, 0x0⟩
def PART_PROFILE_PENDING : Fld := ⟨.PART_PROFILE, 28, 27, .ro, .none, 0x0⟩
def PART_PROFILE_STRAP : Fld := ⟨.PART_PROFILE, 26, 25, .ro, .none, 0x0⟩  -- strap
def PART_PROFILE_FALLBACK : Fld := ⟨.PART_PROFILE, 24, 24, .ro, .none, 0x0⟩
def PART_PROFILE_BUILTIN : Fld := ⟨.PART_PROFILE, 23, 23, .ro, .none, 0x0⟩
def PART_QUAR_LO_QUAR : Fld := ⟨.PART_QUAR_LO, 31, 0, .ro, .none, 0x0⟩
def PART_QUAR_HI_QUAR : Fld := ⟨.PART_QUAR_HI, 31, 0, .ro, .none, 0x0⟩
def VI_CFG_BOUND : Fld := ⟨.VI_CFG, 31, 31, .ro, .none, 0x0⟩
def VI_CFG_PARTITION : Fld := ⟨.VI_CFG, 30, 27, .ro, .none, 0x0⟩
def VI_CFG_PRIO_MAX : Fld := ⟨.VI_CFG, 26, 24, .rw, .none, 0x7⟩
def VI_CFG_JOB : Fld := ⟨.VI_CFG, 15, 0, .rw, .none, 0x0⟩
def VI_MSIX_COUNT : Fld := ⟨.VI_MSIX, 22, 11, .rw, .none, 0x0⟩
def VI_MSIX_BASE : Fld := ⟨.VI_MSIX, 10, 0, .rw, .none, 0x0⟩
def VI_QUOTA_G_MIB : Fld := ⟨.VI_QUOTA, 29, 20, .rw, .none, 0x0⟩
def VI_QUOTA_D_MIB : Fld := ⟨.VI_QUOTA, 19, 0, .rw, .none, 0x0⟩
def VI_USED_D_PAGES : Fld := ⟨.VI_USED, 31, 0, .ro, .none, 0x0⟩
def VI_STATUS_STATE : Fld := ⟨.VI_STATUS, 31, 30, .ro, .none, 0x0⟩
def VI_STATUS_QUEUES : Fld := ⟨.VI_STATUS, 29, 25, .ro, .none, 0x0⟩
def VI_EVENT_PROFILE_PENDING : Fld := ⟨.VI_EVENT, 3, 3, .w1c, .set, 0x0⟩
def VI_EVENT_REGION_LOST : Fld := ⟨.VI_EVENT, 2, 2, .w1c, .set, 0x0⟩
def VI_EVENT_QUARANTINE : Fld := ⟨.VI_EVENT, 1, 1, .w1c, .set, 0x0⟩
def VI_EVENT_RESET_DONE : Fld := ⟨.VI_EVENT, 0, 0, .w1c, .set, 0x0⟩
def IC_SRC_CFG_ENABLE : Fld := ⟨.IC_SRC_CFG, 31, 31, .rw, .none, 0x0⟩
def IC_SRC_CFG_CLASS : Fld := ⟨.IC_SRC_CFG, 30, 30, .rw, .none, 0x0⟩
def IC_SRC_CFG_MODE : Fld := ⟨.IC_SRC_CFG, 29, 29, .rw, .none, 0x0⟩
def IC_SRC_CFG_PRIO : Fld := ⟨.IC_SRC_CFG, 28, 25, .rw, .none, 0x0⟩
def IC_SRC_CFG_TARGETS : Fld := ⟨.IC_SRC_CFG, 24, 15, .rw, .none, 0x0⟩
def IC_SRC_CFG_VECTOR : Fld := ⟨.IC_SRC_CFG, 10, 0, .rw, .none, 0x0⟩
def IC_SRC_STATE_STATE : Fld := ⟨.IC_SRC_STATE, 31, 30, .ro, .none, 0x0⟩
def IC_SRC_STATE_ASSIGNED : Fld := ⟨.IC_SRC_STATE, 29, 29, .ro, .none, 0x0⟩
def IC_SRC_STATE_TARGET : Fld := ⟨.IC_SRC_STATE, 28, 25, .ro, .none, 0x0⟩
def IC_SRC_STATE_FIRINGS : Fld := ⟨.IC_SRC_STATE, 15, 0, .rw, .add, 0x0⟩
def IC_TGT_CTRL_ENABLE : Fld := ⟨.IC_TGT_CTRL, 31, 31, .rw, .none, 0x0⟩
def IC_TGT_CTRL_FAST_ENTRY : Fld := ⟨.IC_TGT_CTRL, 27, 16, .rw, .none, 0x0⟩
def IC_TGT_CTRL_NORMAL_ENTRY : Fld := ⟨.IC_TGT_CTRL, 11, 0, .rw, .none, 0x0⟩
def IC_TGT_STATUS_DEPTH : Fld := ⟨.IC_TGT_STATUS, 31, 28, .ro, .none, 0x0⟩
def IC_TGT_STATUS_RUNNING : Fld := ⟨.IC_TGT_STATUS, 27, 22, .ro, .none, 0x3F⟩
def IC_TGT_STATUS_ACTIVE : Fld := ⟨.IC_TGT_STATUS, 10, 0, .ro, .none, 0x0⟩
def IC_TGT_CLAIM_VALID : Fld := ⟨.IC_TGT_CLAIM, 31, 31, .ro, .none, 0x0⟩
def IC_TGT_CLAIM_LEVEL : Fld := ⟨.IC_TGT_CLAIM, 30, 25, .ro, .none, 0x0⟩
def IC_TGT_CLAIM_SOURCE : Fld := ⟨.IC_TGT_CLAIM, 9, 0, .ro, .none, 0x0⟩
def IC_TGT_EOI_SOURCE : Fld := ⟨.IC_TGT_EOI, 9, 0, .wo, .none, 0x0⟩
def IC_EVENT_VECTOR_RANGE : Fld := ⟨.IC_EVENT, 2, 2, .w1c, .set, 0x0⟩
def IC_EVENT_NO_TARGET : Fld := ⟨.IC_EVENT, 1, 1, .w1c, .set, 0x0⟩
def IC_EVENT_BAD_EOI : Fld := ⟨.IC_EVENT, 0, 0, .w1c, .set, 0x0⟩
def IC_SWI_SOURCE : Fld := ⟨.IC_SWI, 9, 0, .wo, .none, 0x0⟩
def IC_BAD_EOI_COUNT_COUNT : Fld := ⟨.IC_BAD_EOI_COUNT, 31, 0, .rw, .add, 0x0⟩
def IC_VI_NOTICE_ENABLE : Fld := ⟨.IC_VI_NOTICE, 31, 31, .rw, .none, 0x0⟩
def IC_VI_NOTICE_STATE : Fld := ⟨.IC_VI_NOTICE, 30, 29, .ro, .none, 0x0⟩
def IC_VI_NOTICE_VECTOR : Fld := ⟨.IC_VI_NOTICE, 10, 0, .rw, .none, 0x0⟩
def IC_VI_SYNC_WAIT_UNSATISFIABLE : Fld := ⟨.IC_VI_SYNC, 4, 4, .w1c, .set, 0x0⟩
def IC_VI_SYNC_LANDING_STALLED : Fld := ⟨.IC_VI_SYNC, 3, 3, .w1c, .set, 0x0⟩
def IC_VI_SYNC_LANDING_SLACK : Fld := ⟨.IC_VI_SYNC, 2, 2, .w1c, .set, 0x0⟩
def IC_VI_SYNC_DOUBLE_ARRIVAL : Fld := ⟨.IC_VI_SYNC, 1, 1, .w1c, .set, 0x0⟩
def IC_VI_SYNC_TOKEN_OVERFLOW : Fld := ⟨.IC_VI_SYNC, 0, 0, .w1c, .set, 0x0⟩
def IC_VI_EOI_DONE : Fld := ⟨.IC_VI_EOI, 0, 0, .wo, .none, 0x0⟩
def CLZ_PORT_CTRL_ENABLE : Fld := ⟨.CLZ_PORT_CTRL, 31, 31, .rw, .none, 0x0⟩
def CLZ_PORT_CTRL_RETRAIN : Fld := ⟨.CLZ_PORT_CTRL, 30, 30, .wo, .none, 0x0⟩
def CLZ_PORT_CTRL_RETIRE : Fld := ⟨.CLZ_PORT_CTRL, 29, 29, .wo, .none, 0x0⟩
def CLZ_PORT_CTRL_LANE_OFF : Fld := ⟨.CLZ_PORT_CTRL, 27, 24, .rws, .none, 0x0⟩
def CLZ_PORT_STATUS_STATE : Fld := ⟨.CLZ_PORT_STATUS, 31, 28, .ro, .none, 0x0⟩
def CLZ_PORT_STATUS_LANES : Fld := ⟨.CLZ_PORT_STATUS, 27, 24, .ro, .none, 0x0⟩
def CLZ_PORT_STATUS_WIDTH : Fld := ⟨.CLZ_PORT_STATUS, 23, 22, .ro, .none, 0x0⟩
def CLZ_PORT_STATUS_ROLE : Fld := ⟨.CLZ_PORT_STATUS, 21, 20, .ro, .none, 0x0⟩
def CLZ_PORT_STATUS_PEER_CAPS : Fld := ⟨.CLZ_PORT_STATUS, 19, 16, .ro, .none, 0x0⟩
def CLZ_PORT_STATUS_UNACKED : Fld := ⟨.CLZ_PORT_STATUS, 12, 0, .ro, .none, 0x0⟩
def CLZ_PORT_PEER_VALID : Fld := ⟨.CLZ_PORT_PEER, 31, 31, .ro, .none, 0x0⟩
def CLZ_PORT_PEER_PEER_PORT : Fld := ⟨.CLZ_PORT_PEER, 22, 17, .ro, .none, 0x0⟩
def CLZ_PORT_PEER_PEER_DEV : Fld := ⟨.CLZ_PORT_PEER, 16, 0, .ro, .none, 0x0⟩
def CLZ_EVENT_DROP : Fld := ⟨.CLZ_EVENT, 7, 7, .w1c, .set, 0x0⟩
def CLZ_EVENT_INIT_FAIL : Fld := ⟨.CLZ_EVENT, 6, 6, .w1c, .set, 0x0⟩
def CLZ_EVENT_PEER_CHANGE : Fld := ⟨.CLZ_EVENT, 5, 5, .w1c, .set, 0x0⟩
def CLZ_EVENT_WIN_CANCEL : Fld := ⟨.CLZ_EVENT, 4, 4, .w1c, .set, 0x0⟩
def CLZ_EVENT_WIN_RESCALE : Fld := ⟨.CLZ_EVENT, 3, 3, .w1c, .set, 0x0⟩
def CLZ_EVENT_REPLAY_ABANDON : Fld := ⟨.CLZ_EVENT, 2, 2, .w1c, .set, 0x0⟩
def CLZ_EVENT_DEGRADE : Fld := ⟨.CLZ_EVENT, 1, 1, .w1c, .set, 0x0⟩
def CLZ_EVENT_STATE_CHANGE : Fld := ⟨.CLZ_EVENT, 0, 0, .w1c, .set, 0x0⟩
def CLZ_FEC_CE_COUNT : Fld := ⟨.CLZ_FEC_CE, 31, 0, .rw, .add, 0x0⟩
def CLZ_FEC_UE_COUNT : Fld := ⟨.CLZ_FEC_UE, 31, 0, .rw, .add, 0x0⟩
def CLZ_CRC_ERR_COUNT : Fld := ⟨.CLZ_CRC_ERR, 31, 0, .rw, .add, 0x0⟩
def CLZ_REPLAYS_COUNT : Fld := ⟨.CLZ_REPLAYS, 31, 0, .rw, .add, 0x0⟩
def CLZ_WIN_MISS_COUNT : Fld := ⟨.CLZ_WIN_MISS, 31, 0, .rw, .add, 0x0⟩
def CLZ_DROPPED_COUNT : Fld := ⟨.CLZ_DROPPED, 31, 0, .rw, .add, 0x0⟩
def CLZ_WIN_BASE_LO_BASE : Fld := ⟨.CLZ_WIN_BASE_LO, 31, 0, .rw, .none, 0x0⟩
def CLZ_WIN_BASE_HI_BASE : Fld := ⟨.CLZ_WIN_BASE_HI, 31, 0, .rw, .none, 0x0⟩
def CLZ_WIN_PERIOD_PERIOD : Fld := ⟨.CLZ_WIN_PERIOD, 31, 0, .rw, .none, 0x0⟩
def CLZ_WIN_CFG_ENABLE : Fld := ⟨.CLZ_WIN_CFG, 31, 31, .rw, .none, 0x0⟩
def CLZ_WIN_CFG_STATE : Fld := ⟨.CLZ_WIN_CFG, 30, 29, .ro, .none, 0x0⟩
def CLZ_WIN_CFG_REFUSED : Fld := ⟨.CLZ_WIN_CFG, 28, 28, .ro, .none, 0x0⟩
def CLZ_WIN_CFG_FLOW : Fld := ⟨.CLZ_WIN_CFG, 23, 16, .rw, .none, 0x0⟩
def CLZ_WIN_CFG_OWNER_VI : Fld := ⟨.CLZ_WIN_CFG, 15, 8, .rw, .none, 0x0⟩
def CLZ_WIN_OFFSET_OFFSET : Fld := ⟨.CLZ_WIN_OFFSET, 31, 0, .rw, .none, 0x0⟩
def CLZ_WIN_LEN_LENGTH : Fld := ⟨.CLZ_WIN_LEN, 31, 0, .rw, .none, 0x0⟩
def CLZ_WIN_NOTIFY_VALID : Fld := ⟨.CLZ_WIN_NOTIFY, 31, 31, .rw, .none, 0x0⟩
def CLZ_WIN_NOTIFY_HALL : Fld := ⟨.CLZ_WIN_NOTIFY, 14, 12, .rw, .none, 0x0⟩
def CLZ_WIN_NOTIFY_TQ : Fld := ⟨.CLZ_WIN_NOTIFY, 11, 0, .rw, .none, 0x0⟩
def CLZ_DIM_VALID : Fld := ⟨.CLZ_DIM, 31, 31, .rw, .none, 0x0⟩
def CLZ_DIM_RING : Fld := ⟨.CLZ_DIM, 30, 30, .rw, .none, 0x0⟩
def CLZ_DIM_SHIFT : Fld := ⟨.CLZ_DIM, 29, 25, .rw, .none, 0x0⟩
def CLZ_DIM_WIDTH : Fld := ⟨.CLZ_DIM, 24, 20, .rw, .none, 0x0⟩
def CLZ_DIM_SIZE : Fld := ⟨.CLZ_DIM, 17, 0, .rw, .none, 0x0⟩
def CLZ_DIR_LO_PORTS : Fld := ⟨.CLZ_DIR_LO, 31, 0, .rw, .none, 0x0⟩
def CLZ_DIR_HI_PORTS : Fld := ⟨.CLZ_DIR_HI, 31, 0, .rw, .none, 0x0⟩
def CLZ_FLOW_VALID : Fld := ⟨.CLZ_FLOW, 31, 31, .rw, .none, 0x0⟩
def CLZ_FLOW_PORT : Fld := ⟨.CLZ_FLOW, 5, 0, .rw, .none, 0x0⟩
def CLZ_EXC_MATCH_VALID : Fld := ⟨.CLZ_EXC_MATCH, 31, 31, .rw, .none, 0x0⟩
def CLZ_EXC_MATCH_MATCH : Fld := ⟨.CLZ_EXC_MATCH, 16, 0, .rw, .none, 0x0⟩
def CLZ_EXC_MASK_MASK : Fld := ⟨.CLZ_EXC_MASK, 16, 0, .rw, .none, 0x0⟩
def CLZ_EXC_PORTS_LO_PORTS : Fld := ⟨.CLZ_EXC_PORTS_LO, 31, 0, .rw, .none, 0x0⟩
def CLZ_EXC_PORTS_HI_PORTS : Fld := ⟨.CLZ_EXC_PORTS_HI, 31, 0, .rw, .none, 0x0⟩
def PCI_ID_DEVICE : Fld := ⟨.PCI_ID, 31, 16, .ro, .none, 0x0⟩  -- order code
def PCI_ID_VENDOR : Fld := ⟨.PCI_ID, 15, 0, .ro, .none, 0x0⟩  -- fixed
def PCI_LINK_RATE : Fld := ⟨.PCI_LINK, 31, 28, .ro, .none, 0x0⟩
def PCI_LINK_WIDTH : Fld := ⟨.PCI_LINK, 27, 23, .ro, .none, 0x0⟩
def PCI_LINK_FLIT : Fld := ⟨.PCI_LINK, 22, 22, .ro, .none, 0x0⟩
def PCI_EVENT_BAR_ERR : Fld := ⟨.PCI_EVENT, 3, 3, .w1c, .set, 0x0⟩
def PCI_EVENT_HOST_ERR : Fld := ⟨.PCI_EVENT, 2, 2, .w1c, .set, 0x0⟩
def PCI_EVENT_LINK_CHANGE : Fld := ⟨.PCI_EVENT, 1, 1, .w1c, .set, 0x0⟩
def PCI_EVENT_LINK_DOWN : Fld := ⟨.PCI_EVENT, 0, 0, .w1c, .set, 0x0⟩
def PCI_HOST_ERR_VALID : Fld := ⟨.PCI_HOST_ERR, 31, 31, .w1c, .set, 0x0⟩
def PCI_HOST_ERR_OVERRUN : Fld := ⟨.PCI_HOST_ERR, 30, 30, .w1c, .set, 0x0⟩
def PCI_HOST_ERR_KIND : Fld := ⟨.PCI_HOST_ERR, 29, 27, .ro, .none, 0x0⟩
def PCI_HOST_ERR_ACCESS : Fld := ⟨.PCI_HOST_ERR, 26, 24, .ro, .none, 0x0⟩
def PCI_HOST_ERR_RING : Fld := ⟨.PCI_HOST_ERR, 23, 20, .ro, .none, 0x0⟩
def PCI_HOST_ERR_VI : Fld := ⟨.PCI_HOST_ERR, 15, 8, .ro, .none, 0x0⟩
def PCI_BAR_ERR_VALID : Fld := ⟨.PCI_BAR_ERR, 31, 31, .w1c, .set, 0x0⟩
def PCI_BAR_ERR_OVERRUN : Fld := ⟨.PCI_BAR_ERR, 30, 30, .w1c, .set, 0x0⟩
def PCI_BAR_ERR_KIND : Fld := ⟨.PCI_BAR_ERR, 29, 27, .ro, .none, 0x0⟩
def PCI_BAR_ERR_ACCESS : Fld := ⟨.PCI_BAR_ERR, 26, 24, .ro, .none, 0x0⟩
def PCI_BAR_ERR_RING : Fld := ⟨.PCI_BAR_ERR, 23, 20, .ro, .none, 0x0⟩
def PCI_BAR_ERR_VI : Fld := ⟨.PCI_BAR_ERR, 15, 8, .ro, .none, 0x0⟩
def PCI_BAR4_BASE_GIB : Fld := ⟨.PCI_BAR4_BASE, 8, 0, .rw, .none, 0x0⟩
def PCI_PASID_EN : Fld := ⟨.PCI_PASID, 31, 31, .rw, .none, 0x0⟩
def PCI_PASID_PASID : Fld := ⟨.PCI_PASID, 19, 0, .rw, .none, 0x0⟩
def MGT_STATUS_SMBUS_ADDR : Fld := ⟨.MGT_STATUS, 31, 25, .ro, .none, 0x0⟩  -- strap
def MGT_STATUS_EID : Fld := ⟨.MGT_STATUS, 24, 17, .ro, .none, 0x0⟩
def MGT_STATUS_EID_VALID : Fld := ⟨.MGT_STATUS, 16, 16, .ro, .none, 0x0⟩
def MGT_STATUS_UPDATE : Fld := ⟨.MGT_STATUS, 15, 12, .ro, .none, 0x0⟩
def MGT_CTRL_SPEED : Fld := ⟨.MGT_CTRL, 1, 0, .rws, .none, 0x2⟩
def MGT_EVENT_FLASH_ERR : Fld := ⟨.MGT_EVENT, 3, 3, .w1c, .set, 0x0⟩
def MGT_EVENT_VERIFY_FAIL : Fld := ⟨.MGT_EVENT, 2, 2, .w1c, .set, 0x0⟩
def MGT_EVENT_UPDATE_DONE : Fld := ⟨.MGT_EVENT, 1, 1, .w1c, .set, 0x0⟩
def MGT_EVENT_EID_SET : Fld := ⟨.MGT_EVENT, 0, 0, .w1c, .set, 0x0⟩
def MGT_FLASH_PMC_BANK : Fld := ⟨.MGT_FLASH, 31, 31, .ro, .none, 0x0⟩
def MGT_FLASH_PMC_PENDING : Fld := ⟨.MGT_FLASH, 30, 30, .ro, .none, 0x0⟩
def MGT_FLASH_HALL_BANK : Fld := ⟨.MGT_FLASH, 29, 29, .ro, .none, 0x0⟩
def MGT_FLASH_HALL_PENDING : Fld := ⟨.MGT_FLASH, 28, 28, .ro, .none, 0x0⟩
def MGT_FLASH_BUSY : Fld := ⟨.MGT_FLASH, 27, 27, .ro, .none, 0x0⟩
def RAS_CTRL_PLDM_EN : Fld := ⟨.RAS_CTRL, 2, 2, .rw, .none, 0x1⟩
def RAS_CTRL_WARN_REC : Fld := ⟨.RAS_CTRL, 1, 1, .rw, .none, 0x1⟩
def RAS_CTRL_HOLD : Fld := ⟨.RAS_CTRL, 0, 0, .rw, .none, 0x0⟩
def RAS_EVENT_FILTER_WAIT : Fld := ⟨.RAS_EVENT, 4, 4, .w1c, .set, 0x0⟩
def RAS_EVENT_STORE_WRAP : Fld := ⟨.RAS_EVENT, 3, 3, .w1c, .set, 0x0⟩
def RAS_EVENT_RETIRED : Fld := ⟨.RAS_EVENT, 2, 2, .w1c, .set, 0x0⟩
def RAS_EVENT_LIMIT : Fld := ⟨.RAS_EVENT, 1, 1, .w1c, .set, 0x0⟩
def RAS_EVENT_RECORD : Fld := ⟨.RAS_EVENT, 0, 0, .w1c, .set, 0x0⟩
def RAS_LAST_ID_ID : Fld := ⟨.RAS_LAST_ID, 31, 0, .ro, .none, 0x0⟩  -- from store
def RAS_REC_CMD_ID : Fld := ⟨.RAS_REC_CMD, 31, 0, .wo, .none, 0x0⟩
def RAS_REC_STATUS_BUSY : Fld := ⟨.RAS_REC_STATUS, 31, 31, .ro, .none, 0x0⟩
def RAS_REC_STATUS_RESULT : Fld := ⟨.RAS_REC_STATUS, 30, 29, .ro, .none, 0x0⟩
def RAS_RETIRE_CHANNEL : Fld := ⟨.RAS_RETIRE, 15, 0, .wo, .none, 0x0⟩
def RAS_RETIRE_STATUS_BUSY : Fld := ⟨.RAS_RETIRE_STATUS, 31, 31, .ro, .none, 0x0⟩
def RAS_RETIRE_STATUS_RESULT : Fld := ⟨.RAS_RETIRE_STATUS, 30, 28, .ro, .none, 0x0⟩
def RAS_REC_DATA_WORD : Fld := ⟨.RAS_REC_DATA, 31, 0, .ro, .none, 0x0⟩
def RAS_RCPT_USED : Fld := ⟨.RAS_RCPT, 28, 16, .ro, .none, 0x0⟩
def RAS_RCPT_WAITS : Fld := ⟨.RAS_RCPT, 15, 0, .rw, .add, 0x0⟩
def RAS_THRESH_A_WARN : Fld := ⟨.RAS_THRESH_A, 31, 16, .rw, .none, 0x0⟩  -- profile
def RAS_THRESH_A_LIMIT : Fld := ⟨.RAS_THRESH_A, 15, 0, .rw, .none, 0x0⟩  -- profile
def RAS_THRESH_B_FLAGS : Fld := ⟨.RAS_THRESH_B, 31, 24, .rw, .none, 0x0⟩  -- profile
def RAS_THRESH_B_W_PUE : Fld := ⟨.RAS_THRESH_B, 23, 16, .rw, .none, 0x0⟩  -- profile
def RAS_THRESH_B_W_TUE : Fld := ⟨.RAS_THRESH_B, 15, 8, .rw, .none, 0x0⟩  -- profile
def RAS_THRESH_B_W_CE : Fld := ⟨.RAS_THRESH_B, 7, 0, .rw, .none, 0x0⟩  -- profile
def RAS_THRESH_C_LEAK_MS : Fld := ⟨.RAS_THRESH_C, 31, 0, .rw, .none, 0x0⟩  -- profile
def RAS_BUCKET_RETIRED : Fld := ⟨.RAS_BUCKET, 31, 31, .ro, .none, 0x0⟩
def RAS_BUCKET_AT_LIMIT : Fld := ⟨.RAS_BUCKET, 30, 30, .ro, .none, 0x0⟩
def RAS_BUCKET_LEVEL : Fld := ⟨.RAS_BUCKET, 15, 0, .rw, .add, 0x0⟩
def SDC_SH_CTRL_ENABLE : Fld := ⟨.SDC_SH_CTRL, 31, 31, .rw, .none, 0x1⟩
def SDC_SH_CTRL_SELFTEST : Fld := ⟨.SDC_SH_CTRL, 30, 30, .wo, .none, 0x0⟩
def SDC_SH_CTRL_RATE : Fld := ⟨.SDC_SH_CTRL, 28, 24, .rw, .none, 0xA⟩
def SDC_SH_CTRL_SELFTEST_MS : Fld := ⟨.SDC_SH_CTRL, 15, 0, .rw, .none, 0x3E8⟩
def SDC_SH_SEED_SEED : Fld := ⟨.SDC_SH_SEED, 31, 0, .rw, .none, 0x0⟩
def SDC_SH_STATUS_STATE : Fld := ⟨.SDC_SH_STATUS, 31, 29, .ro, .none, 0x0⟩
def SDC_SH_STATUS_VALID : Fld := ⟨.SDC_SH_STATUS, 8, 8, .ro, .none, 0x0⟩
def SDC_SH_STATUS_ALCOVE : Fld := ⟨.SDC_SH_STATUS, 7, 0, .ro, .none, 0x0⟩
def SDC_SH_TILES_COUNT : Fld := ⟨.SDC_SH_TILES, 31, 0, .rw, .add, 0x0⟩
def SDC_SH_EVENTS_MISSED : Fld := ⟨.SDC_SH_EVENTS, 31, 16, .rw, .add, 0x0⟩
def SDC_SH_EVENTS_MISMATCHES : Fld := ⟨.SDC_SH_EVENTS, 15, 0, .rw, .add, 0x0⟩
def SDC_SH_SKIPPED_COUNT : Fld := ⟨.SDC_SH_SKIPPED, 31, 0, .rw, .add, 0x0⟩
def SDC_SCAN_STATUS_STATE : Fld := ⟨.SDC_SCAN_STATUS, 31, 30, .ro, .none, 0x0⟩
def SDC_SCAN_STATUS_TARGET : Fld := ⟨.SDC_SCAN_STATUS, 15, 0, .ro, .none, 0x0⟩
def SDC_EVENT_PACK_CHANGE : Fld := ⟨.SDC_EVENT, 3, 3, .w1c, .set, 0x0⟩
def SDC_EVENT_SCAN_FAIL : Fld := ⟨.SDC_EVENT, 2, 2, .w1c, .set, 0x0⟩
def SDC_EVENT_SHADOW_FAULT : Fld := ⟨.SDC_EVENT, 1, 1, .w1c, .set, 0x0⟩
def SDC_EVENT_SHADOW_MISMATCH : Fld := ⟨.SDC_EVENT, 0, 0, .w1c, .set, 0x0⟩
def SDC_CTRL_SCAN_EN : Fld := ⟨.SDC_CTRL, 31, 31, .rw, .none, 0x1⟩
def SDC_CTRL_KINDS : Fld := ⟨.SDC_CTRL, 27, 24, .rw, .none, 0xF⟩
def SDC_CTRL_ROUND_MS : Fld := ⟨.SDC_CTRL, 15, 0, .rw, .none, 0x3E8⟩
def SDC_SCAN_PASS_COUNT : Fld := ⟨.SDC_SCAN_PASS, 31, 0, .rw, .add, 0x0⟩
def SDC_SCAN_FAIL_RETIRED : Fld := ⟨.SDC_SCAN_FAIL, 31, 16, .rw, .add, 0x0⟩
def SDC_SCAN_FAIL_TRANSIENT : Fld := ⟨.SDC_SCAN_FAIL, 15, 0, .rw, .add, 0x0⟩
def SDC_SCAN_ABORT_COUNT : Fld := ⟨.SDC_SCAN_ABORT, 31, 0, .rw, .add, 0x0⟩
def SDC_PACK_ID_PACK_ID : Fld := ⟨.SDC_PACK_ID, 31, 0, .ro, .none, 0x0⟩  -- from flash
def SDC_PACK_SEQ_SEQUENCE : Fld := ⟨.SDC_PACK_SEQ, 31, 0, .ro, .none, 0x0⟩  -- from flash
def SDC_PACK_STATE_STATE : Fld := ⟨.SDC_PACK_STATE, 31, 29, .ro, .none, 0x0⟩  -- from flash
def SDC_PACK_STATE_PKIND : Fld := ⟨.SDC_PACK_STATE, 28, 28, .ro, .none, 0x0⟩  -- from flash
def SDC_PACK_STATE_TARGET : Fld := ⟨.SDC_PACK_STATE, 27, 24, .ro, .none, 0x0⟩  -- from flash
def SDC_PACK_STATE_HOURS : Fld := ⟨.SDC_PACK_STATE, 23, 0, .ro, .none, 0x0⟩  -- from flash
def INJ_CTRL_ARM : Fld := ⟨.INJ_CTRL, 31, 31, .rw, .sw, 0x0⟩
def INJ_CTRL_PERIODIC : Fld := ⟨.INJ_CTRL, 30, 30, .rw, .none, 0x0⟩
def INJ_CTRL_NOCHARGE : Fld := ⟨.INJ_CTRL, 29, 29, .rw, .none, 0x0⟩
def INJ_CTRL_STORE : Fld := ⟨.INJ_CTRL, 28, 28, .rw, .none, 0x0⟩
def INJ_CTRL_STATE : Fld := ⟨.INJ_CTRL, 27, 26, .ro, .none, 0x0⟩
def INJ_CTRL_REFUSED : Fld := ⟨.INJ_CTRL, 25, 25, .ro, .none, 0x0⟩
def INJ_CTRL_DETECTOR : Fld := ⟨.INJ_CTRL, 7, 0, .rw, .none, 0x0⟩
def INJ_TARGET_TARGET : Fld := ⟨.INJ_TARGET, 15, 0, .rw, .none, 0x0⟩
def INJ_PARAM_PARAM : Fld := ⟨.INJ_PARAM, 31, 0, .rw, .none, 0x0⟩
def INJ_START_LO_START_LO : Fld := ⟨.INJ_START_LO, 31, 0, .rw, .none, 0x0⟩
def INJ_START_HI_START_HI : Fld := ⟨.INJ_START_HI, 31, 0, .rw, .none, 0x0⟩
def INJ_PERIOD_PERIOD : Fld := ⟨.INJ_PERIOD, 31, 0, .rw, .none, 0x0⟩
def INJ_REPEAT_REPEAT : Fld := ⟨.INJ_REPEAT, 15, 0, .rw, .none, 0x0⟩
def INJ_COUNT_MISSED : Fld := ⟨.INJ_COUNT, 31, 16, .rw, .add, 0x0⟩
def INJ_COUNT_FIRED : Fld := ⟨.INJ_COUNT, 15, 0, .rw, .add, 0x0⟩
def BOOT_STATUS_STATE : Fld := ⟨.BOOT_STATUS, 31, 29, .ro, .none, 0x0⟩
def BOOT_STATUS_UNVALIDATED : Fld := ⟨.BOOT_STATUS, 28, 28, .ro, .none, 0x0⟩
def BOOT_STATUS_PMC_FALLBACK : Fld := ⟨.BOOT_STATUS, 27, 27, .ro, .none, 0x0⟩
def BOOT_STATUS_HALL_FALLBACK : Fld := ⟨.BOOT_STATUS, 26, 26, .ro, .none, 0x0⟩
def BOOT_STATUS_DEGRADED : Fld := ⟨.BOOT_STATUS, 25, 25, .ro, .none, 0x0⟩
def BOOT_STATUS_HALLS_UP : Fld := ⟨.BOOT_STATUS, 24, 17, .ro, .none, 0x0⟩
def BOOT_STATUS_LAST_RESET : Fld := ⟨.BOOT_STATUS, 16, 13, .ro, .none, 0x0⟩
def BOOT_CTRL_COLD : Fld := ⟨.BOOT_CTRL, 2, 2, .wo, .none, 0x0⟩
def BOOT_CTRL_WARM : Fld := ⟨.BOOT_CTRL, 1, 1, .wo, .none, 0x0⟩
def BOOT_CTRL_PART_ALL : Fld := ⟨.BOOT_CTRL, 0, 0, .wo, .none, 0x0⟩
def BOOT_PMC_VER_VERSION : Fld := ⟨.BOOT_PMC_VER, 31, 0, .ro, .none, 0x0⟩
def BOOT_HALL_VER_VERSION : Fld := ⟨.BOOT_HALL_VER, 31, 0, .ro, .none, 0x0⟩
def BOOT_READY_MS_MS : Fld := ⟨.BOOT_READY_MS, 31, 0, .ro, .none, 0x0⟩
def BOOT_EVENT_LIST_FULL : Fld := ⟨.BOOT_EVENT, 5, 5, .w1c, .set, 0x0⟩
def BOOT_EVENT_LC_DONE : Fld := ⟨.BOOT_EVENT, 4, 4, .w1c, .set, 0x0⟩
def BOOT_EVENT_HC_HALTED : Fld := ⟨.BOOT_EVENT, 3, 3, .w1c, .set, 0x0⟩
def BOOT_EVENT_OVERRIDE : Fld := ⟨.BOOT_EVENT, 2, 2, .w1c, .set, 0x0⟩
def BOOT_EVENT_RESTRICTED : Fld := ⟨.BOOT_EVENT, 1, 1, .w1c, .set, 0x0⟩
def BOOT_EVENT_READY : Fld := ⟨.BOOT_EVENT, 0, 0, .w1c, .set, 0x0⟩
def BOOT_OVERRIDE_CODE : Fld := ⟨.BOOT_OVERRIDE, 31, 0, .wo, .none, 0x0⟩
def BOOT_PMC_FAULT_VALID : Fld := ⟨.BOOT_PMC_FAULT, 31, 31, .ro, .none, 0x0⟩  -- R476
def BOOT_PMC_FAULT_TIMER : Fld := ⟨.BOOT_PMC_FAULT, 30, 30, .ro, .none, 0x0⟩  -- R476
def BOOT_PMC_FAULT_INJECTED : Fld := ⟨.BOOT_PMC_FAULT, 29, 29, .ro, .none, 0x0⟩  -- R476
def BOOT_PMC_FAULT_CODE : Fld := ⟨.BOOT_PMC_FAULT, 27, 20, .ro, .none, 0x0⟩  -- R476
def BOOT_PMC_FAULT_SLOT : Fld := ⟨.BOOT_PMC_FAULT, 19, 17, .ro, .none, 0x0⟩  -- R476
def BOOT_PMC_FAULT_PC : Fld := ⟨.BOOT_PMC_FAULT, 11, 0, .ro, .none, 0x0⟩  -- R476
def LC_STATUS_STATE : Fld := ⟨.LC_STATUS, 31, 30, .ro, .none, 0x0⟩  -- record
def LC_STATUS_ARMED : Fld := ⟨.LC_STATUS, 29, 29, .ro, .none, 0x0⟩
def LC_STATUS_ARMED_TARGET : Fld := ⟨.LC_STATUS, 28, 27, .ro, .none, 0x0⟩
def LC_STATUS_RESULT : Fld := ⟨.LC_STATUS, 26, 25, .ro, .none, 0x0⟩
def LC_STATUS_TRANSITIONS : Fld := ⟨.LC_STATUS, 24, 0, .ro, .none, 0x0⟩  -- record
def LC_CMD_OP : Fld := ⟨.LC_CMD, 9, 8, .wo, .none, 0x0⟩
def LC_CMD_TARGET_N : Fld := ⟨.LC_CMD, 5, 4, .wo, .none, 0x0⟩
def LC_CMD_TARGET : Fld := ⟨.LC_CMD, 1, 0, .wo, .none, 0x0⟩
def LC_ID_DEVICE : Fld := ⟨.LC_ID, 16, 0, .ro, .none, 0x0⟩  -- record
def LC_NEXT_ID_PENDING : Fld := ⟨.LC_NEXT_ID, 31, 31, .ro, .none, 0x0⟩
def LC_NEXT_ID_NEXT : Fld := ⟨.LC_NEXT_ID, 16, 0, .rw, .none, 0x0⟩
def LC_FLOOR_PMC_FLOOR : Fld := ⟨.LC_FLOOR, 31, 16, .ro, .none, 0x0⟩  -- record
def LC_FLOOR_HALL_FLOOR : Fld := ⟨.LC_FLOOR, 15, 0, .ro, .none, 0x0⟩  -- record
def LC_SERIAL_LO_SERIAL : Fld := ⟨.LC_SERIAL_LO, 31, 0, .ro, .none, 0x0⟩  -- fused
def LC_SERIAL_HI_SERIAL : Fld := ⟨.LC_SERIAL_HI, 31, 0, .ro, .none, 0x0⟩  -- fused
def PWR_CTRL_THROTTLE_EN : Fld := ⟨.PWR_CTRL, 31, 31, .rw, .none, 0x1⟩
def PWR_CTRL_LIMIT_EN : Fld := ⟨.PWR_CTRL, 30, 30, .rw, .none, 0x1⟩
def PWR_STATUS_THROTTLE_PIN : Fld := ⟨.PWR_STATUS, 31, 31, .ro, .none, 0x0⟩
def PWR_STATUS_AT_FLOOR : Fld := ⟨.PWR_STATUS, 30, 30, .ro, .none, 0x0⟩
def PWR_STATUS_BOARD_W : Fld := ⟨.PWR_STATUS, 15, 0, .ro, .none, 0x0⟩
def PWR_EVENT_RAIL_FAULT : Fld := ⟨.PWR_EVENT, 5, 5, .w1c, .set, 0x0⟩
def PWR_EVENT_FLOOR : Fld := ⟨.PWR_EVENT, 4, 4, .w1c, .set, 0x0⟩
def PWR_EVENT_LIMIT : Fld := ⟨.PWR_EVENT, 3, 3, .w1c, .set, 0x0⟩
def PWR_EVENT_THROTTLE_PIN : Fld := ⟨.PWR_EVENT, 2, 2, .w1c, .set, 0x0⟩
def PWR_EVENT_CRIT : Fld := ⟨.PWR_EVENT, 1, 1, .w1c, .set, 0x0⟩
def PWR_EVENT_WARN : Fld := ⟨.PWR_EVENT, 0, 0, .w1c, .set, 0x0⟩
def PWR_LIMIT_BOARD_W : Fld := ⟨.PWR_LIMIT, 31, 16, .rw, .none, 0x0⟩  -- profile
def PWR_LIMIT_HALL_W : Fld := ⟨.PWR_LIMIT, 15, 0, .rw, .none, 0x0⟩  -- profile
def PWR_RAILS_FAULTED : Fld := ⟨.PWR_RAILS, 31, 16, .ro, .none, 0x0⟩
def PWR_RAILS_GOOD : Fld := ⟨.PWR_RAILS, 15, 0, .ro, .hw, 0x0⟩
def PWR_BOARD_OFFSET_OFFSET_W : Fld := ⟨.PWR_BOARD_OFFSET, 15, 0, .rws, .none, 0x0⟩
def PWR_HALL_STATUS_TEMP : Fld := ⟨.PWR_HALL_STATUS, 31, 24, .ro, .none, 0x0⟩
def PWR_HALL_STATUS_STEP : Fld := ⟨.PWR_HALL_STATUS, 23, 22, .ro, .none, 0x0⟩
def PWR_HALL_STATUS_BOARD_LIMITED : Fld := ⟨.PWR_HALL_STATUS, 21, 21, .ro, .none, 0x0⟩
def PWR_HALL_STATUS_HALL_LIMITED : Fld := ⟨.PWR_HALL_STATUS, 20, 20, .ro, .none, 0x0⟩
def PWR_HALL_STATUS_PIN_LIMITED : Fld := ⟨.PWR_HALL_STATUS, 19, 19, .ro, .none, 0x0⟩
def PWR_HALL_STATUS_MHZ : Fld := ⟨.PWR_HALL_STATUS, 11, 0, .ro, .none, 0x0⟩
def PWR_HALL_POWER_MV : Fld := ⟨.PWR_HALL_POWER, 21, 12, .ro, .none, 0x0⟩
def PWR_HALL_POWER_WATTS : Fld := ⟨.PWR_HALL_POWER, 11, 0, .ro, .none, 0x0⟩

end F

/-- The field table of a register, most significant field first. -/
def Reg.fields : Reg → List Fld
  | .GLB_ID => [F.GLB_ID_STEPPING, F.GLB_ID_ORDER, F.GLB_ID_DEVICE]
  | .GLB_MAP => [F.GLB_MAP_MAP_VERSION]
  | .GLB_SCRATCH0 => [F.GLB_SCRATCH0_DATA]
  | .GLB_SCRATCH1 => [F.GLB_SCRATCH1_DATA]
  | .GLB_DENY_LOG => [F.GLB_DENY_LOG_VALID, F.GLB_DENY_LOG_OVERRUN, F.GLB_DENY_LOG_AGENT, F.GLB_DENY_LOG_HALL, F.GLB_DENY_LOG_WRITE, F.GLB_DENY_LOG_WORD]
  | .GLB_DENY_COUNT => [F.GLB_DENY_COUNT_COUNT]
  | .TIME_CTRL => [F.TIME_CTRL_PRIORITY, F.TIME_CTRL_ROLE, F.TIME_CTRL_REF_FREQ, F.TIME_CTRL_PPS_IN_EN, F.TIME_CTRL_PPS_OUT_EN]
  | .TIME_STATUS => [F.TIME_STATUS_STATE, F.TIME_STATUS_IS_ROOT, F.TIME_STATUS_REF_PRESENT, F.TIME_STATUS_PPS_PRESENT, F.TIME_STATUS_UPSTREAM_VALID, F.TIME_STATUS_UPSTREAM_PORT]
  | .TIME_NOW_LO => [F.TIME_NOW_LO_NOW_LO]
  | .TIME_NOW_HI => [F.TIME_NOW_HI_NOW_HI]
  | .TIME_EPOCH_LO => [F.TIME_EPOCH_LO_EPOCH_LO]
  | .TIME_EPOCH_HI => [F.TIME_EPOCH_HI_EPOCH_HI]
  | .TIME_EVENT => [F.TIME_EVENT_UNALIGNED_LAUNCH, F.TIME_EVENT_ROOT_CONFLICT, F.TIME_EVENT_ROOT_CHANGE, F.TIME_EVENT_HOLDOVER_ENTER, F.TIME_EVENT_REF_LOST, F.TIME_EVENT_LOCK_LOST]
  | .TIME_LATE_COUNT => [F.TIME_LATE_COUNT_LATE]
  | .TIME_OFFSET => [F.TIME_OFFSET_FILT]
  | .TIME_ROOT => [F.TIME_ROOT_ROOT_PRIORITY, F.TIME_ROOT_ROOT_CONFIGURED, F.TIME_ROOT_HOPS, F.TIME_ROOT_ROOT_ID]
  | .TIME_PORT_DELAY => [F.TIME_PORT_DELAY_VALID, F.TIME_PORT_DELAY_DELAY]
  | .TIME_PORT_ASYM => [F.TIME_PORT_ASYM_ASYM]
  | .ALC_CTRL => [F.ALC_CTRL_ISTORE_FORCE, F.ALC_CTRL_BREAK1_EN, F.ALC_CTRL_BREAK0_EN, F.ALC_CTRL_STEP, F.ALC_CTRL_RESUME, F.ALC_CTRL_HALT]
  | .ALC_STATUS => [F.ALC_STATUS_STATE, F.ALC_STATUS_SHIFT_BUSY, F.ALC_STATUS_ISTORE_HELD, F.ALC_STATUS_PC]
  | .ALC_FAULT => [F.ALC_FAULT_VALID, F.ALC_FAULT_SLOT, F.ALC_FAULT_CODE, F.ALC_FAULT_OVERRUN, F.ALC_FAULT_PC]
  | .ALC_FAULT_DETAIL => [F.ALC_FAULT_DETAIL_DETAIL]
  | .ALC_BREAK0 => [F.ALC_BREAK0_PC]
  | .ALC_BREAK1 => [F.ALC_BREAK1_PC]
  | .ALC_ISTORE_HOLD => [F.ALC_ISTORE_HOLD_FORCED, F.ALC_ISTORE_HOLD_HELD]
  | .ALC_ID => [F.ALC_ID_SPARE_IN_USE, F.ALC_ID_HALF, F.ALC_ID_NUMBER]
  | .ALC_BUNDLE_COUNT => [F.ALC_BUNDLE_COUNT_COUNT]
  | .ALC_STALL_COUNT => [F.ALC_STALL_COUNT_COUNT]
  | .ALC_HC_CTRL => [F.ALC_HC_CTRL_RESTART, F.ALC_HC_CTRL_RESUME, F.ALC_HC_CTRL_HALT]
  | .ALC_HC_STATUS => [F.ALC_HC_STATUS_STATE, F.ALC_HC_STATUS_BANK, F.ALC_HC_STATUS_PC]
  | .ALC_HC_FAULT => [F.ALC_HC_FAULT_VALID, F.ALC_HC_FAULT_SLOT, F.ALC_HC_FAULT_CODE, F.ALC_HC_FAULT_OVERRUN, F.ALC_HC_FAULT_PC]
  | .ALC_HC_FAULT_DETAIL => [F.ALC_HC_FAULT_DETAIL_DETAIL]
  | .XU_STATUS => [F.XU_STATUS_MODE, F.XU_STATUS_PASS_BUSY, F.XU_STATUS_SHIFT_BUSY, F.XU_STATUS_QDEPTH3, F.XU_STATUS_QDEPTH2, F.XU_STATUS_QDEPTH1, F.XU_STATUS_QDEPTH0]
  | .XU_PLANES => [F.XU_PLANES_X3_ACTIVE, F.XU_PLANES_X3_SHADOW, F.XU_PLANES_X3_FORMAT, F.XU_PLANES_X2_ACTIVE, F.XU_PLANES_X2_SHADOW, F.XU_PLANES_X2_FORMAT, F.XU_PLANES_X1_ACTIVE, F.XU_PLANES_X1_SHADOW, F.XU_PLANES_X1_FORMAT, F.XU_PLANES_X0_ACTIVE, F.XU_PLANES_X0_SHADOW, F.XU_PLANES_X0_FORMAT]
  | .XU_CHK_CTRL => [F.XU_CHK_CTRL_IRQ_EN, F.XU_CHK_CTRL_TOL, F.XU_CHK_CTRL_FORCE]
  | .XU_CHK_STATUS => [F.XU_CHK_STATUS_MISMATCH, F.XU_CHK_STATUS_OVERRUN, F.XU_CHK_STATUS_UNIT, F.XU_CHK_STATUS_KIND, F.XU_CHK_STATUS_INDEX, F.XU_CHK_STATUS_PC]
  | .XU_CHK_COUNT => [F.XU_CHK_COUNT_SKIPPED, F.XU_CHK_COUNT_MISMATCHES]
  | .XU_PASS_COUNT => [F.XU_PASS_COUNT_COUNT]
  | .XU_BUSY_CYCLES => [F.XU_BUSY_CYCLES_COUNT]
  | .TW_STATUS => [F.TW_STATUS_LOADED, F.TW_STATUS_EXHAUSTED, F.TW_STATUS_ORDER, F.TW_STATUS_SPLIT, F.TW_STATUS_QUEUED]
  | .TW_NEXT => [F.TW_NEXT_NEXT]
  | .TW_DONE => [F.TW_DONE_DONE]
  | .TW_SHARE => [F.TW_SHARE_SHARE]
  | .TW_DESC => [F.TW_DESC_WORD]
  | .CE_STATUS => [F.CE_STATUS_STATE, F.CE_STATUS_QDEPTH]
  | .CE_ERROR => [F.CE_ERROR_VALID, F.CE_ERROR_OVERRUN, F.CE_ERROR_CODE, F.CE_ERROR_TAG]
  | .CE_PACKETS => [F.CE_PACKETS_COUNT]
  | .CE_RETRY_COUNT => [F.CE_RETRY_COUNT_COUNT]
  | .CE_GRANT_RETRY => [F.CE_GRANT_RETRY_COUNT]
  | .MEZ_CTRL => [F.MEZ_CTRL_SPLIT, F.MEZ_CTRL_INVAL_ALL, F.MEZ_CTRL_ENABLE]
  | .MEZ_STATUS => [F.MEZ_STATUS_INVAL_BUSY]
  | .MEZ_HITS => [F.MEZ_HITS_COUNT]
  | .MEZ_MISSES => [F.MEZ_MISSES_COUNT]
  | .MEZ_INVAL_LINES => [F.MEZ_INVAL_LINES_COUNT]
  | .HBM_CHAN_STATUS => [F.HBM_CHAN_STATUS_STATE, F.HBM_CHAN_STATUS_PC1_RETIRED, F.HBM_CHAN_STATUS_PC0_RETIRED, F.HBM_CHAN_STATUS_EXCLUDED, F.HBM_CHAN_STATUS_LANES_REPAIRED]
  | .HBM_CHAN_CTRL => [F.HBM_CHAN_CTRL_TEST_REQ]
  | .HBM_ECC_CE => [F.HBM_ECC_CE_CE_PC1, F.HBM_ECC_CE_CE_PC0]
  | .HBM_ECC_UE => [F.HBM_ECC_UE_UE_PERM_PC1, F.HBM_ECC_UE_UE_TRANS_PC1, F.HBM_ECC_UE_UE_PERM_PC0, F.HBM_ECC_UE_UE_TRANS_PC0]
  | .HBM_ERR_LOG => [F.HBM_ERR_LOG_VALID, F.HBM_ERR_LOG_OVERRUN, F.HBM_ERR_LOG_KIND, F.HBM_ERR_LOG_PC, F.HBM_ERR_LOG_POSITION, F.HBM_ERR_LOG_LINE]
  | .HBM_RETIRED_HIT => [F.HBM_RETIRED_HIT_COUNT]
  | .HBM_POISON_READS => [F.HBM_POISON_READS_COUNT]
  | .HBM_STACK_STATUS => [F.HBM_STACK_STATUS_TEMP, F.HBM_STACK_STATUS_REFRESH]
  | .HBM_CLASS_WEIGHT => [F.HBM_CLASS_WEIGHT_W0W, F.HBM_CLASS_WEIGHT_W1, F.HBM_CLASS_WEIGHT_W2, F.HBM_CLASS_WEIGHT_W3]
  | .HBM_INTERLEAVE => [F.HBM_INTERLEAVE_LOCAL]
  | .HBM_PART_MAP => [F.HBM_PART_MAP_LOCAL_APPLIED, F.HBM_PART_MAP_CHANNELS, F.HBM_PART_MAP_CAPACITY]
  | .HBM_PART_BASE => [F.HBM_PART_BASE_BASE_HH]
  | .HBM_RETIRE_COUNT => [F.HBM_RETIRE_COUNT_ENTRIES]
  | .NAR_STATUS => [F.NAR_STATUS_OUTSTANDING, F.NAR_STATUS_BUSY]
  | .NAR_REQS => [F.NAR_REQS_COUNT]
  | .NAR_RANGE_ERR => [F.NAR_RANGE_ERR_COUNT]
  | .NAR_MEZ_HITS => [F.NAR_MEZ_HITS_COUNT]
  | .TGEN_CTRL => [F.TGEN_CTRL_START, F.TGEN_CTRL_ABORT, F.TGEN_CTRL_OP, F.TGEN_CTRL_PATTERN, F.TGEN_CTRL_ORDER, F.TGEN_CTRL_RAW, F.TGEN_CTRL_PC_MASK]
  | .TGEN_START_LINE => [F.TGEN_START_LINE_START_LINE]
  | .TGEN_COUNT => [F.TGEN_COUNT_COUNT]
  | .TGEN_SEED => [F.TGEN_SEED_SEED]
  | .TGEN_CONST_HI => [F.TGEN_CONST_HI_CONST_HI]
  | .TGEN_STATUS => [F.TGEN_STATUS_STATE, F.TGEN_STATUS_FAIL, F.TGEN_STATUS_REFUSED, F.TGEN_STATUS_ECC_LANES_PC1, F.TGEN_STATUS_ECC_LANES_PC0]
  | .TGEN_ERRORS => [F.TGEN_ERRORS_COUNT]
  | .TGEN_FIRST_FAIL => [F.TGEN_FIRST_FAIL_VALID, F.TGEN_FIRST_FAIL_PC, F.TGEN_FIRST_FAIL_POSITION, F.TGEN_FIRST_FAIL_LINE]
  | .TGEN_LANES0 => [F.TGEN_LANES0_LANES]
  | .TGEN_LANES1 => [F.TGEN_LANES1_LANES]
  | .SYNC_CMD => [F.SYNC_CMD_OP, F.SYNC_CMD_KIND, F.SYNC_CMD_INDEX]
  | .SYNC_CMD_STATUS => [F.SYNC_CMD_STATUS_BUSY, F.SYNC_CMD_STATUS_RESULT, F.SYNC_CMD_STATUS_OFFSET]
  | .SYNC_DATA => [F.SYNC_DATA_WORD]
  | .SYNC_EVENT => [F.SYNC_EVENT_UNCONFIGURED, F.SYNC_EVENT_MSG_DROPPED, F.SYNC_EVENT_WAIT_UNSATISFIABLE, F.SYNC_EVENT_LANDING_STALLED, F.SYNC_EVENT_LANDING_SLACK, F.SYNC_EVENT_DOUBLE_ARRIVAL, F.SYNC_EVENT_TOKEN_OVERFLOW]
  | .SYNC_LOG => [F.SYNC_LOG_VALID, F.SYNC_LOG_KIND, F.SYNC_LOG_AGENT, F.SYNC_LOG_OBJECT]
  | .SYNC_ENTRIES => [F.SYNC_ENTRIES_RESERVED_E, F.SYNC_ENTRIES_USED]
  | .SYNC_MSG_DROPPED => [F.SYNC_MSG_DROPPED_COUNT]
  | .ANN_CTRL => [F.ANN_CTRL_HOLD]
  | .ANN_STATUS => [F.ANN_STATUS_STATE, F.ANN_STATUS_REPLICAS, F.ANN_STATUS_BLOCK]
  | .ANN_SWEEPS => [F.ANN_SWEEPS_COUNT]
  | .ANN_ERROR => [F.ANN_ERROR_VALID, F.ANN_ERROR_OVERRUN, F.ANN_ERROR_CODE, F.ANN_ERROR_SPIN]
  | .ANN_UPDATES => [F.ANN_UPDATES_COUNT]
  | .ANN_FLIPS => [F.ANN_FLIPS_COUNT]
  | .ANN_EXCH => [F.ANN_EXCH_COUNT]
  | .VST_ADMIN_CTRL => [F.VST_ADMIN_CTRL_ENABLE, F.VST_ADMIN_CTRL_POLLED, F.VST_ADMIN_CTRL_POLL_US, F.VST_ADMIN_CTRL_SQ_LOG2, F.VST_ADMIN_CTRL_CQ_LOG2, F.VST_ADMIN_CTRL_MSIX]
  | .VST_ADMIN_STATUS => [F.VST_ADMIN_STATUS_STATE, F.VST_ADMIN_STATUS_RESTRICTED, F.VST_ADMIN_STATUS_UNVALIDATED, F.VST_ADMIN_STATUS_HEAD]
  | .VST_ADMIN_SQ_LO => [F.VST_ADMIN_SQ_LO_ADDR]
  | .VST_ADMIN_SQ_HI => [F.VST_ADMIN_SQ_HI_ADDR]
  | .VST_ADMIN_CQ_LO => [F.VST_ADMIN_CQ_LO_ADDR]
  | .VST_ADMIN_CQ_HI => [F.VST_ADMIN_CQ_HI_ADDR]
  | .VST_DB_RECORD_LO => [F.VST_DB_RECORD_LO_ADDR]
  | .VST_DB_RECORD_HI => [F.VST_DB_RECORD_HI_ADDR]
  | .VST_Q_STATUS => [F.VST_Q_STATUS_STATE, F.VST_Q_STATUS_PRIORITY, F.VST_Q_STATUS_PAUSED, F.VST_Q_STATUS_RING_FULL, F.VST_Q_STATUS_QUEUE]
  | .VST_EVENT => [F.VST_EVENT_RING_BAD, F.VST_EVENT_DB_BAD]
  | .VST_DB_DROPPED => [F.VST_DB_DROPPED_COUNT]
  | .POOL_CFG => [F.POOL_CFG_VALID, F.POOL_CFG_BLOCK_LOG2, F.POOL_CFG_COUNT]
  | .POOL_FREE => [F.POOL_FREE_FREE]
  | .POOL_ERRORS => [F.POOL_ERRORS_NOT_OWNER, F.POOL_ERRORS_DOUBLE_FREE]
  | .POOL_LOG => [F.POOL_LOG_VALID, F.POOL_LOG_OVERRUN, F.POOL_LOG_FREER, F.POOL_LOG_OWNER]
  | .POOL_LOG_BLOCK => [F.POOL_LOG_BLOCK_BLOCK]
  | .PART_CTRL => [F.PART_CTRL_RESET]
  | .PART_STATUS => [F.PART_STATUS_HALF_MASK, F.PART_STATUS_EXISTS, F.PART_STATUS_ALCOVES]
  | .PART_CLOCK => [F.PART_CLOCK_MHZ]
  | .PART_PROFILE => [F.PART_PROFILE_ACTIVE, F.PART_PROFILE_PENDING_VALID, F.PART_PROFILE_PENDING, F.PART_PROFILE_STRAP, F.PART_PROFILE_FALLBACK, F.PART_PROFILE_BUILTIN]
  | .PART_QUAR_LO => [F.PART_QUAR_LO_QUAR]
  | .PART_QUAR_HI => [F.PART_QUAR_HI_QUAR]
  | .VI_CFG => [F.VI_CFG_BOUND, F.VI_CFG_PARTITION, F.VI_CFG_PRIO_MAX, F.VI_CFG_JOB]
  | .VI_MSIX => [F.VI_MSIX_COUNT, F.VI_MSIX_BASE]
  | .VI_QUOTA => [F.VI_QUOTA_G_MIB, F.VI_QUOTA_D_MIB]
  | .VI_USED => [F.VI_USED_D_PAGES]
  | .VI_STATUS => [F.VI_STATUS_STATE, F.VI_STATUS_QUEUES]
  | .VI_EVENT => [F.VI_EVENT_PROFILE_PENDING, F.VI_EVENT_REGION_LOST, F.VI_EVENT_QUARANTINE, F.VI_EVENT_RESET_DONE]
  | .IC_SRC_CFG => [F.IC_SRC_CFG_ENABLE, F.IC_SRC_CFG_CLASS, F.IC_SRC_CFG_MODE, F.IC_SRC_CFG_PRIO, F.IC_SRC_CFG_TARGETS, F.IC_SRC_CFG_VECTOR]
  | .IC_SRC_STATE => [F.IC_SRC_STATE_STATE, F.IC_SRC_STATE_ASSIGNED, F.IC_SRC_STATE_TARGET, F.IC_SRC_STATE_FIRINGS]
  | .IC_TGT_CTRL => [F.IC_TGT_CTRL_ENABLE, F.IC_TGT_CTRL_FAST_ENTRY, F.IC_TGT_CTRL_NORMAL_ENTRY]
  | .IC_TGT_STATUS => [F.IC_TGT_STATUS_DEPTH, F.IC_TGT_STATUS_RUNNING, F.IC_TGT_STATUS_ACTIVE]
  | .IC_TGT_CLAIM => [F.IC_TGT_CLAIM_VALID, F.IC_TGT_CLAIM_LEVEL, F.IC_TGT_CLAIM_SOURCE]
  | .IC_TGT_EOI => [F.IC_TGT_EOI_SOURCE]
  | .IC_EVENT => [F.IC_EVENT_VECTOR_RANGE, F.IC_EVENT_NO_TARGET, F.IC_EVENT_BAD_EOI]
  | .IC_SWI => [F.IC_SWI_SOURCE]
  | .IC_BAD_EOI_COUNT => [F.IC_BAD_EOI_COUNT_COUNT]
  | .IC_VI_NOTICE => [F.IC_VI_NOTICE_ENABLE, F.IC_VI_NOTICE_STATE, F.IC_VI_NOTICE_VECTOR]
  | .IC_VI_SYNC => [F.IC_VI_SYNC_WAIT_UNSATISFIABLE, F.IC_VI_SYNC_LANDING_STALLED, F.IC_VI_SYNC_LANDING_SLACK, F.IC_VI_SYNC_DOUBLE_ARRIVAL, F.IC_VI_SYNC_TOKEN_OVERFLOW]
  | .IC_VI_EOI => [F.IC_VI_EOI_DONE]
  | .CLZ_PORT_CTRL => [F.CLZ_PORT_CTRL_ENABLE, F.CLZ_PORT_CTRL_RETRAIN, F.CLZ_PORT_CTRL_RETIRE, F.CLZ_PORT_CTRL_LANE_OFF]
  | .CLZ_PORT_STATUS => [F.CLZ_PORT_STATUS_STATE, F.CLZ_PORT_STATUS_LANES, F.CLZ_PORT_STATUS_WIDTH, F.CLZ_PORT_STATUS_ROLE, F.CLZ_PORT_STATUS_PEER_CAPS, F.CLZ_PORT_STATUS_UNACKED]
  | .CLZ_PORT_PEER => [F.CLZ_PORT_PEER_VALID, F.CLZ_PORT_PEER_PEER_PORT, F.CLZ_PORT_PEER_PEER_DEV]
  | .CLZ_EVENT => [F.CLZ_EVENT_DROP, F.CLZ_EVENT_INIT_FAIL, F.CLZ_EVENT_PEER_CHANGE, F.CLZ_EVENT_WIN_CANCEL, F.CLZ_EVENT_WIN_RESCALE, F.CLZ_EVENT_REPLAY_ABANDON, F.CLZ_EVENT_DEGRADE, F.CLZ_EVENT_STATE_CHANGE]
  | .CLZ_FEC_CE => [F.CLZ_FEC_CE_COUNT]
  | .CLZ_FEC_UE => [F.CLZ_FEC_UE_COUNT]
  | .CLZ_CRC_ERR => [F.CLZ_CRC_ERR_COUNT]
  | .CLZ_REPLAYS => [F.CLZ_REPLAYS_COUNT]
  | .CLZ_WIN_MISS => [F.CLZ_WIN_MISS_COUNT]
  | .CLZ_DROPPED => [F.CLZ_DROPPED_COUNT]
  | .CLZ_WIN_BASE_LO => [F.CLZ_WIN_BASE_LO_BASE]
  | .CLZ_WIN_BASE_HI => [F.CLZ_WIN_BASE_HI_BASE]
  | .CLZ_WIN_PERIOD => [F.CLZ_WIN_PERIOD_PERIOD]
  | .CLZ_WIN_CFG => [F.CLZ_WIN_CFG_ENABLE, F.CLZ_WIN_CFG_STATE, F.CLZ_WIN_CFG_REFUSED, F.CLZ_WIN_CFG_FLOW, F.CLZ_WIN_CFG_OWNER_VI]
  | .CLZ_WIN_OFFSET => [F.CLZ_WIN_OFFSET_OFFSET]
  | .CLZ_WIN_LEN => [F.CLZ_WIN_LEN_LENGTH]
  | .CLZ_WIN_NOTIFY => [F.CLZ_WIN_NOTIFY_VALID, F.CLZ_WIN_NOTIFY_HALL, F.CLZ_WIN_NOTIFY_TQ]
  | .CLZ_DIM => [F.CLZ_DIM_VALID, F.CLZ_DIM_RING, F.CLZ_DIM_SHIFT, F.CLZ_DIM_WIDTH, F.CLZ_DIM_SIZE]
  | .CLZ_DIR_LO => [F.CLZ_DIR_LO_PORTS]
  | .CLZ_DIR_HI => [F.CLZ_DIR_HI_PORTS]
  | .CLZ_FLOW => [F.CLZ_FLOW_VALID, F.CLZ_FLOW_PORT]
  | .CLZ_EXC_MATCH => [F.CLZ_EXC_MATCH_VALID, F.CLZ_EXC_MATCH_MATCH]
  | .CLZ_EXC_MASK => [F.CLZ_EXC_MASK_MASK]
  | .CLZ_EXC_PORTS_LO => [F.CLZ_EXC_PORTS_LO_PORTS]
  | .CLZ_EXC_PORTS_HI => [F.CLZ_EXC_PORTS_HI_PORTS]
  | .PCI_ID => [F.PCI_ID_DEVICE, F.PCI_ID_VENDOR]
  | .PCI_LINK => [F.PCI_LINK_RATE, F.PCI_LINK_WIDTH, F.PCI_LINK_FLIT]
  | .PCI_EVENT => [F.PCI_EVENT_BAR_ERR, F.PCI_EVENT_HOST_ERR, F.PCI_EVENT_LINK_CHANGE, F.PCI_EVENT_LINK_DOWN]
  | .PCI_HOST_ERR => [F.PCI_HOST_ERR_VALID, F.PCI_HOST_ERR_OVERRUN, F.PCI_HOST_ERR_KIND, F.PCI_HOST_ERR_ACCESS, F.PCI_HOST_ERR_RING, F.PCI_HOST_ERR_VI]
  | .PCI_BAR_ERR => [F.PCI_BAR_ERR_VALID, F.PCI_BAR_ERR_OVERRUN, F.PCI_BAR_ERR_KIND, F.PCI_BAR_ERR_ACCESS, F.PCI_BAR_ERR_RING, F.PCI_BAR_ERR_VI]
  | .PCI_BAR4_BASE => [F.PCI_BAR4_BASE_GIB]
  | .PCI_PASID => [F.PCI_PASID_EN, F.PCI_PASID_PASID]
  | .MGT_STATUS => [F.MGT_STATUS_SMBUS_ADDR, F.MGT_STATUS_EID, F.MGT_STATUS_EID_VALID, F.MGT_STATUS_UPDATE]
  | .MGT_CTRL => [F.MGT_CTRL_SPEED]
  | .MGT_EVENT => [F.MGT_EVENT_FLASH_ERR, F.MGT_EVENT_VERIFY_FAIL, F.MGT_EVENT_UPDATE_DONE, F.MGT_EVENT_EID_SET]
  | .MGT_FLASH => [F.MGT_FLASH_PMC_BANK, F.MGT_FLASH_PMC_PENDING, F.MGT_FLASH_HALL_BANK, F.MGT_FLASH_HALL_PENDING, F.MGT_FLASH_BUSY]
  | .RAS_CTRL => [F.RAS_CTRL_PLDM_EN, F.RAS_CTRL_WARN_REC, F.RAS_CTRL_HOLD]
  | .RAS_EVENT => [F.RAS_EVENT_FILTER_WAIT, F.RAS_EVENT_STORE_WRAP, F.RAS_EVENT_RETIRED, F.RAS_EVENT_LIMIT, F.RAS_EVENT_RECORD]
  | .RAS_LAST_ID => [F.RAS_LAST_ID_ID]
  | .RAS_REC_CMD => [F.RAS_REC_CMD_ID]
  | .RAS_REC_STATUS => [F.RAS_REC_STATUS_BUSY, F.RAS_REC_STATUS_RESULT]
  | .RAS_RETIRE => [F.RAS_RETIRE_CHANNEL]
  | .RAS_RETIRE_STATUS => [F.RAS_RETIRE_STATUS_BUSY, F.RAS_RETIRE_STATUS_RESULT]
  | .RAS_REC_DATA => [F.RAS_REC_DATA_WORD]
  | .RAS_RCPT => [F.RAS_RCPT_USED, F.RAS_RCPT_WAITS]
  | .RAS_THRESH_A => [F.RAS_THRESH_A_WARN, F.RAS_THRESH_A_LIMIT]
  | .RAS_THRESH_B => [F.RAS_THRESH_B_FLAGS, F.RAS_THRESH_B_W_PUE, F.RAS_THRESH_B_W_TUE, F.RAS_THRESH_B_W_CE]
  | .RAS_THRESH_C => [F.RAS_THRESH_C_LEAK_MS]
  | .RAS_BUCKET => [F.RAS_BUCKET_RETIRED, F.RAS_BUCKET_AT_LIMIT, F.RAS_BUCKET_LEVEL]
  | .SDC_SH_CTRL => [F.SDC_SH_CTRL_ENABLE, F.SDC_SH_CTRL_SELFTEST, F.SDC_SH_CTRL_RATE, F.SDC_SH_CTRL_SELFTEST_MS]
  | .SDC_SH_SEED => [F.SDC_SH_SEED_SEED]
  | .SDC_SH_STATUS => [F.SDC_SH_STATUS_STATE, F.SDC_SH_STATUS_VALID, F.SDC_SH_STATUS_ALCOVE]
  | .SDC_SH_TILES => [F.SDC_SH_TILES_COUNT]
  | .SDC_SH_EVENTS => [F.SDC_SH_EVENTS_MISSED, F.SDC_SH_EVENTS_MISMATCHES]
  | .SDC_SH_SKIPPED => [F.SDC_SH_SKIPPED_COUNT]
  | .SDC_SCAN_STATUS => [F.SDC_SCAN_STATUS_STATE, F.SDC_SCAN_STATUS_TARGET]
  | .SDC_EVENT => [F.SDC_EVENT_PACK_CHANGE, F.SDC_EVENT_SCAN_FAIL, F.SDC_EVENT_SHADOW_FAULT, F.SDC_EVENT_SHADOW_MISMATCH]
  | .SDC_CTRL => [F.SDC_CTRL_SCAN_EN, F.SDC_CTRL_KINDS, F.SDC_CTRL_ROUND_MS]
  | .SDC_SCAN_PASS => [F.SDC_SCAN_PASS_COUNT]
  | .SDC_SCAN_FAIL => [F.SDC_SCAN_FAIL_RETIRED, F.SDC_SCAN_FAIL_TRANSIENT]
  | .SDC_SCAN_ABORT => [F.SDC_SCAN_ABORT_COUNT]
  | .SDC_PACK_ID => [F.SDC_PACK_ID_PACK_ID]
  | .SDC_PACK_SEQ => [F.SDC_PACK_SEQ_SEQUENCE]
  | .SDC_PACK_STATE => [F.SDC_PACK_STATE_STATE, F.SDC_PACK_STATE_PKIND, F.SDC_PACK_STATE_TARGET, F.SDC_PACK_STATE_HOURS]
  | .INJ_CTRL => [F.INJ_CTRL_ARM, F.INJ_CTRL_PERIODIC, F.INJ_CTRL_NOCHARGE, F.INJ_CTRL_STORE, F.INJ_CTRL_STATE, F.INJ_CTRL_REFUSED, F.INJ_CTRL_DETECTOR]
  | .INJ_TARGET => [F.INJ_TARGET_TARGET]
  | .INJ_PARAM => [F.INJ_PARAM_PARAM]
  | .INJ_START_LO => [F.INJ_START_LO_START_LO]
  | .INJ_START_HI => [F.INJ_START_HI_START_HI]
  | .INJ_PERIOD => [F.INJ_PERIOD_PERIOD]
  | .INJ_REPEAT => [F.INJ_REPEAT_REPEAT]
  | .INJ_COUNT => [F.INJ_COUNT_MISSED, F.INJ_COUNT_FIRED]
  | .BOOT_STATUS => [F.BOOT_STATUS_STATE, F.BOOT_STATUS_UNVALIDATED, F.BOOT_STATUS_PMC_FALLBACK, F.BOOT_STATUS_HALL_FALLBACK, F.BOOT_STATUS_DEGRADED, F.BOOT_STATUS_HALLS_UP, F.BOOT_STATUS_LAST_RESET]
  | .BOOT_CTRL => [F.BOOT_CTRL_COLD, F.BOOT_CTRL_WARM, F.BOOT_CTRL_PART_ALL]
  | .BOOT_PMC_VER => [F.BOOT_PMC_VER_VERSION]
  | .BOOT_HALL_VER => [F.BOOT_HALL_VER_VERSION]
  | .BOOT_READY_MS => [F.BOOT_READY_MS_MS]
  | .BOOT_EVENT => [F.BOOT_EVENT_LIST_FULL, F.BOOT_EVENT_LC_DONE, F.BOOT_EVENT_HC_HALTED, F.BOOT_EVENT_OVERRIDE, F.BOOT_EVENT_RESTRICTED, F.BOOT_EVENT_READY]
  | .BOOT_OVERRIDE => [F.BOOT_OVERRIDE_CODE]
  | .BOOT_PMC_FAULT => [F.BOOT_PMC_FAULT_VALID, F.BOOT_PMC_FAULT_TIMER, F.BOOT_PMC_FAULT_INJECTED, F.BOOT_PMC_FAULT_CODE, F.BOOT_PMC_FAULT_SLOT, F.BOOT_PMC_FAULT_PC]
  | .LC_STATUS => [F.LC_STATUS_STATE, F.LC_STATUS_ARMED, F.LC_STATUS_ARMED_TARGET, F.LC_STATUS_RESULT, F.LC_STATUS_TRANSITIONS]
  | .LC_CMD => [F.LC_CMD_OP, F.LC_CMD_TARGET_N, F.LC_CMD_TARGET]
  | .LC_ID => [F.LC_ID_DEVICE]
  | .LC_NEXT_ID => [F.LC_NEXT_ID_PENDING, F.LC_NEXT_ID_NEXT]
  | .LC_FLOOR => [F.LC_FLOOR_PMC_FLOOR, F.LC_FLOOR_HALL_FLOOR]
  | .LC_SERIAL_LO => [F.LC_SERIAL_LO_SERIAL]
  | .LC_SERIAL_HI => [F.LC_SERIAL_HI_SERIAL]
  | .PWR_CTRL => [F.PWR_CTRL_THROTTLE_EN, F.PWR_CTRL_LIMIT_EN]
  | .PWR_STATUS => [F.PWR_STATUS_THROTTLE_PIN, F.PWR_STATUS_AT_FLOOR, F.PWR_STATUS_BOARD_W]
  | .PWR_EVENT => [F.PWR_EVENT_RAIL_FAULT, F.PWR_EVENT_FLOOR, F.PWR_EVENT_LIMIT, F.PWR_EVENT_THROTTLE_PIN, F.PWR_EVENT_CRIT, F.PWR_EVENT_WARN]
  | .PWR_LIMIT => [F.PWR_LIMIT_BOARD_W, F.PWR_LIMIT_HALL_W]
  | .PWR_RAILS => [F.PWR_RAILS_FAULTED, F.PWR_RAILS_GOOD]
  | .PWR_BOARD_OFFSET => [F.PWR_BOARD_OFFSET_OFFSET_W]
  | .PWR_HALL_STATUS => [F.PWR_HALL_STATUS_TEMP, F.PWR_HALL_STATUS_STEP, F.PWR_HALL_STATUS_BOARD_LIMITED, F.PWR_HALL_STATUS_HALL_LIMITED, F.PWR_HALL_STATUS_PIN_LIMITED, F.PWR_HALL_STATUS_MHZ]
  | .PWR_HALL_POWER => [F.PWR_HALL_POWER_MV, F.PWR_HALL_POWER_WATTS]

end Sys2Proof.Machine
end

