-- ==== Sys2Proof/Machine/Types.lean ====
section
/-! DEFINITION. Types that more than one block uses: the agents that reach registers, the states of a
source, the units that hold a stair-time replica, and what the package sends outward. -/

namespace Sys2Proof.Machine

/-- Who reaches a register (R411, R519): a function's BAR0 view, a hall controller, the PMC, management or
the IEEE 1687 register bridge. -/
inductive Agent
  | host (v : Fin 256)
  | hc (h : Fin 8)
  | pmc
  | mgt
  | bridge
  deriving DecidableEq, Repr

/-- The number of an agent's own `TIME_NOW_HI` latch (R519). -/
def Agent.latch : Agent → Nat
  | .host v => v.val
  | .hc h => 256 + h.val
  | .pmc => 264
  | .mgt => 265
  | .bridge => 266

/-- A hardware update that falls in the cycle of a software access (R10, R11). -/
inductive HwUpdate
  /-- hardware stores a value -/
  | store (v : Nat)
  /-- hardware sets bits -/
  | setBits (v : Nat)
  /-- hardware counts events -/
  | add (n : Nat)
  deriving DecidableEq, Repr

/-- Where a hardware update of the same cycle falls: bits `hi` to `lo` of the accessed register. -/
structure SameUpdate where
  hi : Nat
  lo : Nat
  upd : HwUpdate
  deriving DecidableEq, Repr

/-- The states of an interrupt or notice source (R346). -/
inductive SrcState
  | inactive | pending | active | activePending
  deriving DecidableEq, Repr

/-- The time states of R36. -/
inductive TimeState
  | free | acquire | locked | holdover
  deriving DecidableEq, Repr

/-- The holder of a stair-time replica (R20, R25): the time relay of a hall's concourse slice, or one of
the islands a spur feeds. -/
inductive Island
  | slice (h : Fin 8)
  | alcove (n : Fin 256)
  | fabric (h : Fin 8)
  | memory (h : Fin 8)
  | port (p : Fin 64)
  | shadow (h : Fin 8)
  | hallController (h : Fin 8)
  | pmc
  deriving DecidableEq, Repr

/-- The key of a replica in the replica table. -/
def Island.key : Island → Nat
  | .slice h => h.val
  | .fabric h => 8 + h.val
  | .memory h => 16 + h.val
  | .shadow h => 24 + h.val
  | .hallController h => 32 + h.val
  | .pmc => 40
  | .port p => 64 + p.val
  | .alcove n => 256 + n.val

/-- The hall an island lies in; the PMC lies in H0. -/
def Island.hall : Island → Nat
  | .slice h => h.val
  | .fabric h => h.val
  | .memory h => h.val
  | .shadow h => h.val
  | .hallController h => h.val
  | .pmc => 0
  | .port p => p.val / 8
  | .alcove n => n.val / 32

/-- The order codes of R1. -/
inductive OrderCode
  | l | e
  deriving DecidableEq, Repr

end Sys2Proof.Machine
end

