-- ==== Sys2Proof/Machine/TypesInj.lean ====
section
/-! DEFINITION. State of error injection (R464 to R470) beside the INJ registers. -/

namespace Sys2Proof.Machine

/-- How an injected event differs from a natural one (R467). -/
structure Mark where
  injected : Bool
  nocharge : Bool
  deriving DecidableEq, Repr

def Mark.natural : Mark := { injected := false, nocharge := false }

/-- Corruption of a stored value: symbol index and error value of each wrong symbol of a sector, or the wrong
bits of a word, with the mark of the shot that made it. -/
structure Upset where
  errs : List (Nat × Nat)
  mark : Mark
  deriving DecidableEq, Repr

def Upset.none : Upset := { errs := [], mark := .natural }

/-- An injector beside its registers. -/
structure Injector where
  /-- a shot is due -/
  due : Bool
  /-- the next arming point, in treads; none after the last -/
  next : Option Nat
  deriving DecidableEq, Repr

def Injector.reset : Injector := { due := false, next := none }

/-- Error injection. -/
structure InjSt where
  injectors : Tbl Injector
  /-- lanes held out of lock, with the tick of release (row 0x03) -/
  laneHold : Tbl Nat
  /-- ports that discard DATA flits, with the tick of release (row 0x04) -/
  portDiscard : Tbl Nat
  /-- copies whose answers are discarded (row 0x12): copy number to the injector plus 1 -/
  answerDrop : Tbl Nat
  /-- the PMC's service timer is no longer restarted (row 0x19) -/
  timerStopped : Bool
  deriving DecidableEq, Repr

def InjSt.reset : InjSt :=
  { injectors := [], laneHold := [], portDiscard := [], answerDrop := [], timerStopped := false }

end Sys2Proof.Machine
end

