-- ==== Sys2Proof/Machine/TypesHbm.lean ====
section
/-! DEFINITION. State of the stacked memory, the narrow path and the traffic generators (R207 to R234) beside
their registers. -/

namespace Sys2Proof.Machine

/-- The states of an HBM channel (R230), as `HBM_CHAN_STATUS`.STATE codes them. -/
inductive ChanState
  | off | training | test | ready | retired
  deriving DecidableEq, Repr

def ChanState.code : ChanState → Nat
  | .off => 0 | .training => 1 | .test => 2 | .ready => 3 | .retired => 4

/-- An HBM channel. -/
structure Channel where
  state : ChanState
  pc0Retired : Bool
  pc1Retired : Bool
  /-- in no partition's W (R210) -/
  excluded : Bool
  lanesRepaired : Nat
  /-- the wipe of step 4 is under way -/
  wiping : Bool
  /-- lines the patrol scrub has read in its round (R219) -/
  patrol : Nat
  deriving DecidableEq, Repr

def Channel.reset : Channel :=
  { state := .off, pc0Retired := false, pc1Retired := false, excluded := false, lanesRepaired := 0,
    wiping := false, patrol := 0 }

/-- What an access asks of a sector: a read, or bytes from an offset in it with their poison. -/
inductive HbmOp
  | read
  | write (off : Nat) (bytes : List Nat) (poison : Bool)
  deriving DecidableEq, Repr

/-- A retry of an uncorrectable sector (R220). -/
structure Retry where
  /-- sector: channel line sector number, see `sectorKey` -/
  key : Nat
  rereads : Nat
  /-- data the last read returned -/
  data : List Nat
  /-- the last read failed by its TAG (R209) -/
  tag : Bool
  mark : Mark
  /-- accesses the retry holds, oldest first (R220) -/
  held : List HbmOp
  since : Nat
  deriving DecidableEq, Repr

/-- The map in effect of a partition (R210, R211). -/
structure PartMap where
  localN : Nat
  /-- W: package HBM channels in slot order -/
  chans : List Nat
  halfHalls : List Nat
  /-- base in 24 GiB units -/
  baseHH : Nat
  deriving DecidableEq, Repr

def PartMap.empty : PartMap := { localN := 0, chans := [], halfHalls := [], baseHH := 0 }

/-- A narrow gather in progress (R216, R217). -/
structure Gather where
  queue : Nat
  op : Nat
  vi : Nat
  desc : List Nat
  /-- element of the first range error -/
  rangeError : Option Nat
  poison : Bool
  sharedPoison : Option Nat
  /-- result packets not yet acknowledged -/
  outstanding : Nat
  deriving DecidableEq, Repr

/-- A wipe under way (R230): whole HBM channels, D-space ranges as device offset and bytes, and gallery ranges
as gallery byte and bytes. -/
structure Wipe where
  num : Nat
  channels : List Nat
  dRanges : List (Nat × Nat)
  gRanges : List (Nat × Nat)
  since : Nat
  deriving DecidableEq, Repr

/-- Stacked memory. -/
structure HbmSt where
  /-- D-space bytes by physical address, see `physOf` -/
  cells : List Host.Cell
  /-- sectors whose POISON is 1 -/
  poison : Tbl Bool
  /-- wrong symbols of stored sectors (R209) -/
  upsets : Tbl Upset
  channels : Tbl Channel
  retries : List Retry
  /-- scheduled write-backs of corrected sectors (R219), oldest first -/
  writebacks : List Nat
  maps : Tbl PartMap
  /-- retired pages in effect, as device offset ÷ 4,096 (R225) -/
  pages : List Nat
  /-- tick of the last refresh, and of the last refresh management, of a bank -/
  refreshed : Tbl Nat
  managed : Tbl Nat
  /-- data and poison the last access returned -/
  lastRead : List Nat
  lastPoison : Bool
  gathers : Tbl (Option Gather)
  /-- wipes under way, oldest first, and the number of the next -/
  wipes : List Wipe
  nextWipe : Nat
  deriving DecidableEq, Repr

def HbmSt.reset : HbmSt :=
  { cells := [], poison := [], upsets := [], channels := [], retries := [], writebacks := [], maps := [],
    pages := [], refreshed := [], managed := [], lastRead := [], lastPoison := false,
    gathers := [], wipes := [],
    nextWipe := 0 }

end Sys2Proof.Machine
end

