-- ==== Sys2Proof/Machine/Table.lean ====
section
/-! DEFINITION. Sparse tables: the form in which State holds the many instances of a unit. A table lists keys
rising; a key it does not list holds the default its owner names. -/

namespace Sys2Proof.Machine

/-- The entry a table lists at key `k`. -/
def tfind {α : Type} : Tbl α → Nat → Option α
  | [], _ => none
  | (j, v) :: r, k => if j = k then some v else tfind r k

/-- Lists `v` at key `k`, in key order. -/
def tins {α : Type} : Tbl α → Nat → α → Tbl α
  | [], k, v => [(k, v)]
  | (j, w) :: r, k, v =>
    if k < j then (k, v) :: (j, w) :: r
    else if k = j then (k, v) :: r
    else (j, w) :: tins r k v

/-- Removes key `k`. -/
def tdel {α : Type} (t : Tbl α) (k : Nat) : Tbl α := t.filter fun p => p.1 != k

/-- What key `k` holds, `d` where nothing is listed. -/
def tget {α : Type} (d : α) (t : Tbl α) (k : Nat) : α := (tfind t k).getD d

/-- Makes key `k` hold `v`; the default removes the entry. -/
def tset {α : Type} [DecidableEq α] (d : α) (t : Tbl α) (k : Nat) (v : α) : Tbl α :=
  if v = d then tdel t k else tins t k v

/-- Changes what key `k` holds. -/
def tmod {α : Type} [DecidableEq α] (d : α) (t : Tbl α) (k : Nat) (f : α → α) : Tbl α :=
  tset d t k (f (tget d t k))

/-- Whether a table's keys rise strictly. -/
def tsorted {α : Type} : Tbl α → Bool
  | [] => true
  | [_] => true
  | (j, _) :: (k, w) :: r => j < k && tsorted ((k, w) :: r)

/-- Bit `i` of a number. -/
def bit (n i : Nat) : Nat := n / 2 ^ i % 2

/-- Bits `hi` to `lo` of a number. -/
def bits (n hi lo : Nat) : Nat := n / 2 ^ lo % 2 ^ (hi + 1 - lo)

/-- Number `n` with bits `hi` to `lo` replaced by those of `x`. -/
def putBits (n hi lo x : Nat) : Nat :=
  n - bits n hi lo * 2 ^ lo + x % 2 ^ (hi + 1 - lo) * 2 ^ lo

/-- Number `n` with bit `i` set. -/
def setBit (n i : Nat) : Nat := putBits n i i 1

/-- Number `n` with bit `i` cleared. -/
def clearBit (n i : Nat) : Nat := putBits n i i 0

/-- The little-endian number of a list of bytes. -/
def leNat : List Nat → Nat
  | [] => 0
  | b :: r => b % 256 + 256 * leNat r

/-- `n` little-endian bytes of a number. -/
def toBytes : (n : Nat) → Nat → List Nat
  | 0, _ => []
  | n + 1, x => x % 256 :: toBytes n (x / 256)

/-- `len` entries of a list from `off`. -/
def slice {α : Type} (l : List α) (off len : Nat) : List α := (l.drop off).take len

/-- The little-endian field of `len` bytes at `off`. -/
def field (l : List Nat) (off len : Nat) : Nat := leNat (slice l off len)

/-- Byte `off` of a record; bytes past its end are zero. -/
def byteAt (l : List Nat) (off : Nat) : Nat := l.getD off 0

/-- The two's-complement reading of the low `w` bits. -/
def toInt (w n : Nat) : Int :=
  let m := n % 2 ^ w
  if m < 2 ^ (w - 1) then (m : Int) else (m : Int) - (2 ^ w : Nat)

/-- The low `w` bits of an integer's two's complement. -/
def ofInt (w : Nat) (i : Int) : Nat := (i % ((2 ^ w : Nat) : Int)).toNat

/-- Folds a state over a list. -/
def forEach {α σ : Type} (l : List α) (s : σ) (f : σ → α → σ) : σ := l.foldl f s

/-- Numbers `lo` to `lo + n − 1`. -/
def upTo (lo n : Nat) : List Nat := (List.range n).map (lo + ·)

/-- The number of set bits of `n` among its low `w`. -/
def popCount : (w n : Nat) → Nat
  | 0, _ => 0
  | w + 1, n => n % 2 + popCount w (n / 2)


def zeros (n : Nat) : List Nat := List.replicate n 0

end Sys2Proof.Machine
end

