-- ==== Sys2Proof/Machine/TypesBoot.lean ====
section
/-! DEFINITION. State of reset, boot, versions and life cycle (R471 to R491) beside the BOOT and LC
registers, and what the flash holds of them. -/

namespace Sys2Proof.Machine

/-- The reset kinds of R471 that take more than one command. A cold reset is in progress while its boot has not
completed step 9; a hall-controller reset is one command. -/
inductive ResetKind
  | warm | partitionWide | partition (p : Nat) | interface (v : Nat)
  deriving DecidableEq, Repr

/-- A reset in progress (R471, R472). -/
structure ResetRun where
  kind : ResetKind
  /-- tick at which it began -/
  since : Nat
  /-- partitions and virtual interfaces it resets -/
  parts : List Nat
  vis : List Nat
  /-- virtual interfaces that are unbound once it completes (R399) -/
  unbind : List Nat
  /-- launched operations are still awaited (R289) -/
  waiting : Bool
  /-- number of its HBM wipe -/
  wipe : Option Nat
  deriving DecidableEq, Repr

/-- The directory record of R477; bank 0 is A. -/
structure Directory where
  sequence : Nat
  pmcActive : Nat
  pmcPending : Option Nat
  hallActive : Nat
  hallPending : Option Nat
  triedPmc : Bool
  triedHall : Bool
  rasBoundary : Nat
  deriving DecidableEq, Repr

/-- What every bank field defaults to when neither copy is valid (R477). -/
def Directory.default : Directory :=
  { sequence := 0, pmcActive := 0, pmcPending := none, hallActive := 0, hallPending := none,
    triedPmc := false, triedHall := false, rasBoundary := 0 }

/-- The life-cycle record of R486. -/
structure LcRecord where
  /-- 0 BLANK, 1 PROVISIONED, 2 FIELD, 3 RETURN -/
  state : Nat
  sequence : Nat
  deviceId : Nat
  transitions : Nat
  pmcFloor : Nat
  hallFloor : Nat
  deriving DecidableEq, Repr

/-- Neither copy valid means BLANK with every other field zero (R486). -/
def LcRecord.blank : LcRecord :=
  { state := 0, sequence := 0, deviceId := 0, transitions := 0, pmcFloor := 0, hallFloor := 0 }

/-- An entry of a compatibility table (R482). -/
structure CompatEntry where
  stepping : Nat
  pmcMin : Nat
  pmcMax : Nat
  hallMin : Nat
  hallMax : Nat
  deriving DecidableEq, Repr

/-- An image of R478 in a bank: its header fields, whether its signature verifies, its compatibility
entries, and of a hall image the bundles and data bytes it loads. -/
structure Image where
  component : Nat
  version : Nat
  svn : Nat
  stepping : Nat
  bytes : Nat
  signed : Bool
  compat : List CompatEntry
  bundles : List (BitVec 1024)
  data : List Nat
  deriving DecidableEq, Repr

/-- A pending ARM of R490. -/
structure LcArm where
  target : Nat
  since : Nat
  deriving DecidableEq, Repr

/-- Reset, boot and life cycle. -/
structure BootSt where
  /-- resets in progress, oldest first (R472) -/
  resets : List ResetRun
  /-- the last completed step of R479; 0 when boot has not begun -/
  step : Nat
  /-- tick at which the last reset was released or began -/
  began : Nat
  /-- the boot watchdog runs (R479) -/
  watchdog : Bool
  /-- tick of the last restart of the PMC service timer (R476); none before step 9 -/
  service : Option Nat
  dirA : Option Directory
  dirB : Option Directory
  lcA : Option LcRecord
  lcB : Option LcRecord
  /-- retirement list: channel IDs in entry order (R487) -/
  retireA : List Nat
  retireB : List Nat
  pmcBanks : Tbl (Option Image)
  hallBanks : Tbl (Option Image)
  /-- images chosen by this boot -/
  pmcImage : Option Image
  hallImage : Option Image
  /-- bank tried at step 4 or 7 was the pending one and is not yet committed -/
  triedPmc : Option Nat
  triedHall : Option Nat
  /-- the compatibility area (R482); none counts as no entries -/
  compat : List CompatEntry
  restricted : Bool
  /-- UNVALIDATED and the override (R485) -/
  override : Bool
  /-- the running pairing was decided untested -/
  untested : Bool
  /-- halls left unpowered for this boot (R481) -/
  unpowered : List Nat
  hallFaults : Tbl Nat
  lcArm : Option LcArm
  /-- the next boot sets LC_DONE (R490) -/
  lcDone : Bool
  /-- life-cycle record in force -/
  record : LcRecord
  directory : Directory
  /-- fused serial number -/
  serial : W64
  deriving DecidableEq, Repr

def BootSt.init : BootSt :=
  { resets := [], step := 0, began := 0, watchdog := false, service := none, dirA := none,
    dirB := none, lcA := none, lcB := none, retireA := [], retireB := [], pmcBanks := [], hallBanks := [],
    pmcImage := none, hallImage := none, triedPmc := none, triedHall := none, compat := [],
    restricted := false, override := false, untested := false, unpowered := [], hallFaults := [],
    lcArm := none, lcDone := false, record := .blank, directory := .default, serial := 0 }

end Sys2Proof.Machine
end

