-- ==== Sys2Proof/Machine/TypesSdc.lean ====
section
/-! DEFINITION. State of the silent-error defence (R446 to R463) beside the SDC registers. -/

namespace Sys2Proof.Machine

/-- `SDC_SH_STATUS`.STATE, under scan apart (that is a scan's target). -/
inductive ShadowState
  | idle | shadowing | selfTest | disabled
  deriving DecidableEq, Repr

/-- The first differing row of a shadowed tile (R451, R462). -/
structure ShadowDiff where
  unit : Nat
  tile : Nat
  row : Nat
  col : Nat
  count : Nat
  shadowVal : Nat
  alcoveVal : Nat
  deriving DecidableEq, Repr

/-- A shadow alcove (R449 to R453). Passes are bit-exact (R133), so a known plane or tile holds what the alcove's
own holds; what is not known is not compared. -/
structure Shadow where
  state : ShadowState
  /-- tiles that walkers of the hall have delivered since cold reset -/
  delivered : Nat
  alcove : Nat
  /-- operation, tile sequence index and ganging mode of the shadowed tile -/
  queue : Nat
  op : Nat
  seq : Nat
  mode : Nat
  /-- known planes: 2 × unit for the active one, 2 × unit + 1 for the shadow plane -/
  planes : List Nat
  /-- units whose shift under way began during shadowing -/
  shifts : List Nat
  /-- known accumulator tiles, and rows that `ACCWR` has written of the others, by tile -/
  tiles : List Nat
  rows : Tbl Nat
  diff : Option ShadowDiff
  /-- mark of the shot that made the difference -/
  mark : Mark
  /-- the self-test under way decides a mismatch (R452) -/
  judging : Bool
  /-- records of checksum events of the same tile, with their units (R452) -/
  checksums : List (Nat × Nat)
  /-- tick at which the self-test under way began, and at which the last one ended -/
  began : Nat
  tested : Nat
  deriving DecidableEq, Repr

def Shadow.reset : Shadow :=
  { state := .idle, delivered := 0, alcove := 0, queue := 0, op := 0, seq := 0, mode := 0, planes := [],
    shifts := [], tiles := [], rows := [], diff := none, mark := .natural, judging := false,
    checksums := [], began := 0, tested := 0 }

/-- A set of R458: its 128 header bytes, the length of the whole set, its expected signatures, and whether its
own signature verifies. -/
structure ScanSet where
  header : List Nat
  bytes : Nat
  expected : List Nat
  signed : Bool
  deriving DecidableEq, Repr

/-- A stored pack (R459): the set, the milliseconds of powered operation since its placement, and whether it has
expired. -/
structure Pack where
  set : ScanSet
  ms : Nat
  expired : Bool
  deriving DecidableEq, Repr

/-- A target under scan (R455, R457): its channel ID, 0xFFFF for the shadow alcove; the failing domains of the
first application once it is being retested, and those that a shot makes fail again (R468). -/
structure ScanRun where
  target : Nat
  retest : Option Nat
  forced : Nat
  mark : Mark
  deriving DecidableEq, Repr

/-- A scan round (R455): its place in the set list, the set, the slot of a pack, the tick it started and the
chunks delivered. -/
structure Round where
  key : Nat
  set : ScanSet
  slot : Option Nat
  since : Nat
  chunks : Nat
  deriving DecidableEq, Repr

/-- The silent-error defence. -/
structure SdcSt where
  shadows : Tbl Shadow
  /-- base sets of the scan area, in order -/
  base : List ScanSet
  packs : Tbl (Option Pack)
  round : Option Round
  /-- tick at which the last round started -/
  lastRound : Option Nat
  /-- key of the set that the last round applied: base set i is 16 × TARGET + i, the pack of slot s is 256 + s -/
  lastSet : Option Nat
  /-- target under scan of each hall -/
  scans : Tbl (Option ScanRun)
  /-- tick, plus 1, of the last complete scan of a target with a set: channel × 512 + set -/
  scanned : Tbl Nat
  /-- recent checksum mismatches: unit, KIND and INDEX as one number, tick (R447) -/
  checksums : List (Nat × Nat × Nat)
  /-- recent charged shadow mismatches: channel, tick -/
  mismatches : List (Nat × Nat)
  /-- effective rate of each hall, 10 until the first evaluation, and the mask of forced formats (R461) -/
  rate : Tbl Nat
  mask : Tbl Nat
  deriving DecidableEq, Repr

def SdcSt.reset : SdcSt :=
  { shadows := [], base := [], packs := [], round := none, lastRound := none, lastSet := none, scans := [],
    scanned := [], checksums := [], mismatches := [], rate := [], mask := [] }

end Sys2Proof.Machine
end

