-- ==== Sys2Proof/Machine/TypesHost.lean ====
section
/-! DEFINITION. State of the PCIe and management interfaces, of the flash areas whose contents are no
bytes, and of boundary scan (R396 to R423) beside the PCI and MGT registers. -/

namespace Sys2Proof.Machine

/-- A package MSI-X vector (R407). -/
structure MsixEntry where
  addr : W64
  data : W32
  mask : Bool
  pending : Bool
  deriving DecidableEq, Repr

/-- A masked entry (log 12). -/
def MsixEntry.reset : MsixEntry := { addr := 0, data := 0, mask := true, pending := false }

/-- A function's PCIe controls that this manual's rules read. -/
structure FuncCtl where
  msixEnable : Bool
  funcMask : Bool
  atsEnable : Bool
  /-- PASID Enable of the PF, which its VFs share -/
  pasidEnable : Bool
  /-- log2 of the BAR4 size in GiB (R400) -/
  bar4Log : Nat
  /-- Unsupported Requests logged in AER (R406) -/
  aerUr : Nat
  deriving DecidableEq, Repr

/-- A VF's BAR4 is 64 GiB at reset and the PF's 512 GiB (R400). -/
def FuncCtl.reset (v : Nat) : FuncCtl :=
  { msixEnable := false, funcMask := false, atsEnable := false, pasidEnable := false, bar4Log := if v = 0 then 9 else 6,
    aerUr := 0 }

/-- A translation kept for a function and PASID (R409): 4 KiB page of the untranslated address. -/
structure Translation where
  func : Nat
  pasid : Option Nat
  page : Nat
  deriving DecidableEq, Repr

/-- Boundary-scan instructions (R421). -/
inductive JtagInstr
  | idcode | sample | extest | clamp | highz | ijtag | bypass
  deriving DecidableEq, Repr

/-- The register bridge's data register (R422). -/
structure BridgeReg where
  data : W32
  address : W32
  write : Bool
  deriving DecidableEq, Repr

/-- A firmware component as management sends it (R416), with whether its signature verifies. -/
inductive Payload
  | pmc (x : Image)
  | hall (x : Image)
  | scan (sets : List ScanSet) (signed : Bool)
  | pack (x : ScanSet)
  /-- stored profiles by number, 512 bytes each -/
  | profiles (l : List (List Nat)) (signed : Bool)
  | compat (l : List CompatEntry) (signed : Bool)
  deriving DecidableEq, Repr

/-- The component ID. -/
def Payload.id : Payload → Nat
  | .pmc _ => 1 | .hall _ => 2 | .scan .. => 3 | .pack _ => 4 | .profiles .. => 5 | .compat .. => 6

/-- Whether its signature verifies. -/
def Payload.signed : Payload → Bool
  | .pmc x => x.signed | .hall x => x.signed | .scan _ b => b | .pack x => x.signed | .profiles _ b => b
  | .compat _ b => b

/-- A flash operation that waits or is under way (R420). -/
inductive FlashOp
  /-- a retired-page entry: index and its eight bytes, for copy A or B -/
  | retiredPage (copyB : Bool) (index : Nat) (entry : Nat)
  /-- a firmware component, with the bank that an image goes to -/
  | component (c : Payload) (bank : Nat)
  deriving DecidableEq, Repr

/-- PCIe, management, flash and JTAG. -/
structure HostSt where
  msix : Tbl MsixEntry
  funcs : Tbl (Option FuncCtl)
  /-- the PCIe link is in L0 -/
  linkUp : Bool
  translations : List Translation
  flashQueue : List FlashOp
  /-- stored profiles as their 512 bytes, by number (R338); an unlisted one is erased -/
  profiles : Tbl (List Nat)
  /-- retired-page entries of the two copies, by index (R419) -/
  pagesA : Tbl (Option Nat)
  pagesB : Tbl (Option Nat)
  eid : Option Nat
  /-- PLDM update state as `MGT_STATUS`.UPDATE codes it -/
  update : Nat
  /-- component that has passed its verify step -/
  component : Option Payload
  /-- components that the update has applied -/
  applied : List Nat
  jtag : JtagInstr
  /-- boundary register as captured or preloaded -/
  boundary : Nat
  bridge : BridgeReg
  deriving DecidableEq, Repr

def HostSt.reset : HostSt :=
  { msix := [], funcs := [], linkUp := false, translations := [], flashQueue := [], profiles := [],
    pagesA := [], pagesB := [], eid := none, update := 0, component := none, applied := [],
    jtag := .idcode, boundary := 0, bridge := { data := 0, address := 0, write := false } }

/-- The controls of function `v`. -/
def HostSt.func (h : HostSt) (v : Nat) : FuncCtl := (tget none h.funcs v).getD (.reset v)

end Sys2Proof.Machine
end

