-- ==== Sys2Proof/Syntax.lean ====
section
/-! DEFINITION. The commands of the block: one constructor per row of spec/opcode_table.json. -/

namespace Sys2Proof
open Sys2Proof.Machine

/-- A command. -/
inductive Instr
  /-- REGISTER_WRITE (R7) -/
  | registerWrite (agent : Agent) (addr : Nat) (size : Nat) (value : Nat) (same : Option SameUpdate)
  /-- REGISTER_CLEARING_READ (R11) -/
  | registerClearingRead (agent : Agent) (addr : Nat) (size : Nat) (same : Option SameUpdate)
  /-- TIME_NOW_LO_READ (R519) -/
  | timeNowLoRead (agent : Agent) (same : Option SameUpdate)
  /-- TIME_CTRL_WRITE (R50) -/
  | timeCtrlWrite (agent : Agent) (value : Nat)
  /-- ROOT_ANNOUNCEMENT_SEND (R27) -/
  | rootAnnouncementSend
  /-- ANNOUNCE_RECEIVE (R27) -/
  | announceReceive (port : Fin 64)
  /-- UPSTREAM_PATH_LOST (R29) -/
  | upstreamPathLost
  /-- UPSTREAM_PORT_SWITCH (R29) -/
  | upstreamPortSwitch
  /-- ROOT_ELECTION_COMPLETE (R29) -/
  | rootElectionComplete
  /-- DOMAIN_COUNT_START (R30) -/
  | domainCountStart
  /-- PPS_IN_EDGE (R30) -/
  | ppsInEdge
  /-- PPS_WAIT_TIMEOUT (R30) -/
  | ppsWaitTimeout
  /-- PPS_OUT_PULSE (R31) -/
  | ppsOutPulse
  /-- TIME_REF_IN_PRESENT (R32) -/
  | timeRefInPresent
  /-- TIME_REF_IN_LOST (R38) -/
  | timeRefInLost
  /-- TIME_BEAT_SEND (R33) -/
  | timeBeatSend
  /-- TIME_BEAT_RECEIVE (R35) -/
  | timeBeatReceive (path : Island ⊕ Fin 64)
  /-- BEAT_LOSS_HOLDOVER (R40) -/
  | beatLossHoldover (i : Island)
  /-- BRIDGE_PATH_DELAY_MEASURE (R34) -/
  | bridgePathDelayMeasure (h : Fin 8) (delay : Nat)
  /-- DELAY_EXCHANGE_START (R386) -/
  | delayExchangeStart (p : Fin 64)
  /-- DELAY_REQ_RECEIVE (R386) -/
  | delayReqReceive (p : Fin 64)
  /-- DELAY_RESP_RECEIVE (R386) -/
  | delayRespReceive (p : Fin 64)
  /-- DELAY_FOLLOW_RECEIVE (R37) -/
  | delayFollowReceive (p : Fin 64)
  /-- DELAY_EXCHANGE_DISCARD (R386) -/
  | delayExchangeDiscard (p : Fin 64)
  /-- TIMED_LAUNCH (R42) -/
  | timedLaunch (q : Fin 4096) (i : Nat)
  /-- BUNDLE_ISSUE (R51) -/
  | bundleIssue (n : Fin 265)
  /-- GROUP_ABORT (R75) -/
  | groupAbort (n : Fin 256)
  /-- RESULT_WRITEBACK (R63) -/
  | resultWriteback (n : Fin 265) (k : Nat)
  /-- ALCOVE_WAIT_RELEASE (R109) -/
  | alcoveWaitRelease (n : Fin 265)
  /-- ALCOVE_REPORT_COMPLETION (R70) -/
  | alcoveReportCompletion (n : Fin 256)
  /-- SAVE_POINT (R82) -/
  | savePoint (n : Fin 256)
  /-- ALC_HALT (R81) -/
  | alcHalt (agent : Agent) (n : Fin 256) (value : Nat)
  /-- ALC_RESUME (R81) -/
  | alcResume (agent : Agent) (n : Fin 256) (value : Nat)
  /-- ALC_STEP (R81) -/
  | alcStep (agent : Agent) (n : Fin 256) (value : Nat)
  /-- HC_HALT (R83) -/
  | hcHalt (agent : Agent) (h : Fin 8) (value : Nat)
  /-- HC_RESUME (R83) -/
  | hcResume (agent : Agent) (h : Fin 8) (value : Nat)
  /-- HC_RESTART (R355) -/
  | hcRestart (agent : Agent) (h : Fin 8) (value : Nat)
  /-- HC_AUTO_RESTART (R475) -/
  | hcAutoRestart (h : Fin 8)
  /-- HELD_ISTORE_WRITE_APPLY (R55) -/
  | heldIstoreWriteApply (n : Fin 256)
  /-- WEIGHT_SHIFT_START (R116) -/
  | weightShiftStart (n : Fin 256) (u : Fin 4)
  /-- WEIGHT_SHIFT_COMPLETE (R115) -/
  | weightShiftComplete (n : Fin 256) (u : Fin 4)
  /-- WSWAP_EXCHANGE (R116) -/
  | wswapExchange (n : Fin 256) (u : Fin 4)
  /-- GANG_CHANGE (R127) -/
  | gangChange (n : Fin 256)
  /-- PASS_START (R132) -/
  | passStart (n : Fin 256) (u : Fin 4)
  /-- PASS_COMPLETE (R132) -/
  | passComplete (n : Fin 256) (u : Fin 4)
  /-- ACCUMULATOR_PARITY_ERROR (R136) -/
  | accumulatorParityError (n : Fin 256) (tile : Fin 16)
  /-- STREAM_COMPLETE (R120) -/
  | streamComplete (n : Fin 256) (k : Nat)
  /-- SDRAIN_COMPLETE (R163) -/
  | sdrainComplete (n : Fin 256) (k : Nat)
  /-- DONE_COUNT_UPDATE (R173) -/
  | doneCountUpdate (n : Fin 256)
  /-- SHADOW_SELFTEST_COMPLETE (R453) -/
  | shadowSelftestComplete (h : Fin 8) (ok : Bool) (step : Nat)
  /-- SHADOW_SELFTEST_TIMER (R453) -/
  | shadowSelftestTimer (h : Fin 8)
  /-- SDC_SELFTEST_WRITE (R453) -/
  | sdcSelftestWrite (agent : Agent) (h : Fin 8) (value : Nat)
  /-- COPY_START (R186) -/
  | copyStart (e : Fin 64)
  /-- PACKET_WRITE (R189) -/
  | packetWrite (i : Nat)
  /-- CSET_APPLY (R199) -/
  | csetApply (i : Nat)
  /-- PACKET_ACKNOWLEDGE (R189) -/
  | packetAcknowledge (i : Nat)
  /-- COPY_COMPLETE (R186) -/
  | copyComplete (e : Fin 64)
  /-- GALLERY_BURST_REQUEST (R204) -/
  | galleryBurstRequest (es : List (Fin 64))
  /-- GALLERY_BURST_RELEASE (R204) -/
  | galleryBurstRelease (e : Fin 64)
  /-- RANGE_INVALIDATION_DONE (R197) -/
  | rangeInvalidationDone (i : Nat)
  /-- MEZ_INVAL_ALL (R206) -/
  | mezInvalAll (agent : Agent) (h : Fin 8) (value : Nat)
  /-- HBM_ACCESS (R213) -/
  | hbmAccess (off : Nat) (op : HbmOp) (noise : List (Nat × Nat))
  /-- HBM_CORRECTED_WRITEBACK (R219) -/
  | hbmCorrectedWriteback (i : Nat)
  /-- PATROL_SCRUB (R219) -/
  | patrolScrub (c : Fin 256) (line : Fin 6291456)
  /-- HBM_REREAD (R220) -/
  | hbmReread (i : Nat) (noise : List (Nat × Nat))
  /-- HBM_REFRESH (R226) -/
  | hbmRefresh (c : Fin 256) (pc : Fin 2) (bank : Fin 256)
  /-- HBM_REFRESH_MANAGEMENT (R229) -/
  | hbmRefreshManagement (c : Fin 256) (pc : Fin 2) (bank : Fin 256)
  /-- HBM_TEMPERATURE_READ (R227) -/
  | hbmTemperatureRead (h : Fin 8) (t : Int)
  /-- HBM_BRINGUP_STEP (R230) -/
  | hbmBringupStep (c : Fin 256) (ok : Bool) (lanes : Nat)
  /-- HBM_WIPE_DONE (R230) -/
  | hbmWipeDone (i : Nat)
  /-- TGEN_START (R233) -/
  | tgenStart (agent : Agent) (c : Fin 256) (value : Nat)
  /-- TGEN_ABORT (R233) -/
  | tgenAbort (agent : Agent) (c : Fin 256) (value : Nat)
  /-- TGEN_RUN_COMPLETE (R233) -/
  | tgenRunComplete (c : Fin 256)
  /-- GATHER_COMPLETE (R217) -/
  | gatherComplete (h : Fin 8)
  /-- TOKEN_SIGNAL (R238) -/
  | tokenSignal (i : Nat)
  /-- TOKEN_WAIT (R239) -/
  | tokenWait (i : Nat)
  /-- TOKEN_WAITER_RELEASE (R239) -/
  | tokenWaiterRelease (hall : Fin 8) (i : Fin 4096)
  /-- TOKEN_TRY (R240) -/
  | tokenTry (i : Nat)
  /-- LANDING_ARRIVAL (R241) -/
  | landingArrival (i : Nat)
  /-- LANDING_WAIT (R244) -/
  | landingWait (i : Nat)
  /-- TIMED_LANDING_RELEASE (R246) -/
  | timedLandingRelease (hall : Fin 8) (l : Fin 1024)
  /-- LANDING_STALL_DETECT (R247) -/
  | landingStallDetect (hall : Fin 8) (l : Fin 1024)
  /-- ASCENT_RECEIVE (R252) -/
  | ascentReceive (i : Nat)
  /-- DESCENT_RECEIVE (R252) -/
  | descentReceive (i : Nat)
  /-- SYNC_READ (R256) -/
  | syncRead (agent : Agent) (h : Fin 8) (kind : Fin 8) (i : Fin 4096)
  /-- SYNC_WRITE (R256) -/
  | syncWrite (agent : Agent) (h : Fin 8) (kind : Fin 8) (i : Fin 4096)
  /-- SYNC_INIT (R256) -/
  | syncInit (agent : Agent) (h : Fin 8) (kind : Fin 8) (i : Fin 4096)
  /-- SYNC_DISABLE (R256) -/
  | syncDisable (agent : Agent) (h : Fin 8) (kind : Fin 8) (i : Fin 4096)
  /-- ANNEAL_EPOCH_LOAD (R274) -/
  | annealEpochLoad (h : Fin 8)
  /-- ANNEAL_CLAMP_PASS (R274) -/
  | annealClampPass (h : Fin 8)
  /-- ANNEAL_EVALUATION_PASS (R269) -/
  | annealEvaluationPass (h : Fin 8)
  /-- ANNEAL_SWEEP (R266) -/
  | annealSweep (h : Fin 8)
  /-- ANNEAL_EXCHANGE_ROUND (R270) -/
  | annealExchangeRound (h : Fin 8)
  /-- ANNEAL_SWEEP_POINT (R275) -/
  | annealSweepPoint (h : Fin 8)
  /-- ANNEAL_SWEEP_POINT_RELEASE (R275) -/
  | annealSweepPointRelease (h : Fin 8)
  /-- ANNEAL_INITIAL_SWEEP_POINT (R276) -/
  | annealInitialSweepPoint (h : Fin 8)
  /-- ANNEAL_END (R280) -/
  | annealEnd (h : Fin 8)
  /-- DOORBELL_WRITE (R291) -/
  | doorbellWrite (fn : Fin 256) (offset : Nat) (size : Nat) (value : Nat) (record : Nat)
  /-- NOTIFY_POLL (R291) -/
  | notifyPoll (v : Fin 256) (record : Nat)
  /-- ADMIN_COMMAND_FETCH (R285) -/
  | adminCommandFetch (v : Fin 256) (entry : List Nat)
  /-- ADMIN_RING_FULL_POLL (R285) -/
  | adminRingFullPoll (v : Fin 256) (head : Nat)
  /-- ADMIN_RESERVED_OPCODE (R286) -/
  | adminReservedOpcode (v : Fin 256)
  /-- CREATE_QUEUE (R288) -/
  | createQueue (v : Fin 256)
  /-- DESTROY_QUEUE (R289) -/
  | destroyQueue (v : Fin 256)
  /-- STOP_QUEUE (R289) -/
  | stopQueue (v : Fin 256)
  /-- RESTART_QUEUE (R289) -/
  | restartQueue (v : Fin 256)
  /-- MAP_MEMORY (R327) -/
  | mapMemory (v : Fin 256)
  /-- UNMAP_MEMORY (R328) -/
  | unmapMemory (v : Fin 256)
  /-- BIND_PARTITION (R329) -/
  | bindPartition (v : Fin 256)
  /-- SET_PROFILE (R340) -/
  | setProfile (v : Fin 256)
  /-- LIFT_QUARANTINE (R336) -/
  | liftQuarantine (v : Fin 256)
  /-- QUERY (R330) -/
  | query (v : Fin 256)
  /-- RETIRE_PAGE (R224) -/
  | retirePage (v : Fin 256)
  /-- SYNC_CONFIG (R290) -/
  | syncConfig (v : Fin 256) (record : List Nat)
  /-- POOL_CREATE (R315) -/
  | poolCreate (v : Fin 256)
  /-- POOL_DESTROY (R315) -/
  | poolDestroy (v : Fin 256)
  /-- POOL_GRANT (R315) -/
  | poolGrant (v : Fin 256)
  /-- VERSION_OVERRIDE (R484) -/
  | versionOverride (v : Fin 256)
  /-- VST_ADMIN_CTRL_WRITE (R316) -/
  | vstAdminCtrlWrite (agent : Agent) (v : Fin 256) (value : Nat)
  /-- WORK_TAIL_READ (R293) -/
  | workTailRead (q : Fin 4096)
  /-- COMMAND_BUFFER_BEGIN (R298) -/
  | commandBufferBegin (q : Fin 4096)
  /-- OPERATION_READY (R301) -/
  | operationReady (q : Fin 4096) (i : Nat)
  /-- KERNEL_DISPATCH (R302) -/
  | kernelDispatch (q : Fin 4096) (i : Nat)
  /-- KERNEL_LAUNCH (R302) -/
  | kernelLaunch (q : Fin 4096) (i : Nat)
  /-- COPY_DISPATCH (R301) -/
  | copyDispatch (q : Fin 4096) (i : Nat)
  /-- GATHER_DISPATCH (R216) -/
  | gatherDispatch (q : Fin 4096) (i : Nat)
  /-- ANNEAL_DISPATCH (R263) -/
  | annealDispatch (q : Fin 4096) (i : Nat)
  /-- POOL_ALLOC (R314) -/
  | poolAlloc (q : Fin 4096) (i : Nat)
  /-- POOL_FREE (R314) -/
  | poolFree (q : Fin 4096) (i : Nat)
  /-- NOP_OPERATION (R297) -/
  | nopOperation (q : Fin 4096) (i : Nat)
  /-- PAUSE_CLAIM (R303) -/
  | pauseClaim (q : Fin 4096) (i : Nat)
  /-- RANK_SAVED (R304) -/
  | rankSaved (n : Fin 256)
  /-- OPERATION_RESUME (R306) -/
  | operationResume (q : Fin 4096) (i : Nat)
  /-- WAIT_CLOCK_EXPIRE (R308) -/
  | waitClockExpire (q : Fin 4096) (i : Nat)
  /-- RUN_CLOCK_EXPIRE (R308) -/
  | runClockExpire (q : Fin 4096) (i : Nat)
  /-- OPERATION_COMPLETE (R309) -/
  | operationComplete (q : Fin 4096) (i : Nat)
  /-- COMPLETION_RING_HEAD_READ (R310) -/
  | completionRingHeadRead (q : Fin 4096) (head : Nat)
  /-- PARTITION_RESET (R342) -/
  | partitionReset (agent : Agent) (p : Fin 16) (value : Nat)
  /-- VI_RESET (R341) -/
  | viReset (v : Fin 256)
  /-- INTERRUPT_TAKE (R351) -/
  | interruptTake (t : Fin 9)
  /-- IC_TGT_EOI_WRITE (R353) -/
  | icTgtEoiWrite (agent : Agent) (t : Fin 10) (value : Nat)
  /-- IC_SWI_WRITE (R359) -/
  | icSwiWrite (agent : Agent) (value : Nat)
  /-- IC_SRC_CFG_WRITE (R347) -/
  | icSrcCfgWrite (agent : Agent) (src : Fin 1024) (value : Nat)
  /-- IC_TGT_CTRL_WRITE (R348) -/
  | icTgtCtrlWrite (agent : Agent) (t : Fin 10) (value : Nat)
  /-- IC_VI_NOTICE_WRITE (R358) -/
  | icViNoticeWrite (agent : Agent) (v : Fin 256) (value : Nat)
  /-- IC_VI_EOI_WRITE (R358) -/
  | icViEoiWrite (agent : Agent) (v : Fin 256) (value : Nat)
  /-- PORT_ENABLE (R364) -/
  | portEnable (agent : Agent) (p : Fin 64) (value : Nat)
  /-- PORT_RETRAIN (R371) -/
  | portRetrain (agent : Agent) (p : Fin 64) (value : Nat)
  /-- PORT_RETIRE_WRITE (R392) -/
  | portRetireWrite (agent : Agent) (p : Fin 64) (value : Nat)
  /-- LANE_OFF_CHANGE (R366) -/
  | laneOffChange (agent : Agent) (p : Fin 64) (value : Nat)
  /-- LANE_SIGNAL_DETECT (R364) -/
  | laneSignalDetect (p : Fin 64)
  /-- LINK_TRAINING_DONE (R364) -/
  | linkTrainingDone (p : Fin 64)
  /-- FEC_LOCK_DONE (R364) -/
  | fecLockDone (p : Fin 64)
  /-- BRINGUP_STEP_TIMEOUT (R364) -/
  | bringupStepTimeout (p : Fin 64) (failed : Fin 16)
  /-- INIT_FLIT_RECEIVE (R365) -/
  | initFlitReceive (p : Fin 64) (flit : List Nat)
  /-- LANE_LOCK_LOSS (R371) -/
  | laneLockLoss (p : Fin 64) (lane : Fin 4)
  /-- DATA_FLIT_RECEIVE (R370) -/
  | dataFlitReceive (p : Fin 64) (flit : List Nat) (fec : Bool)
  /-- CONTROL_FLIT_RECEIVE (R369) -/
  | controlFlitReceive (p : Fin 64) (flit : List Nat) (fec : Bool)
  /-- NAK_RECEIVE (R370) -/
  | nakReceive (p : Fin 64) (flit : List Nat) (fec : Bool)
  /-- NAK_REPEAT_TIMER (R370) -/
  | nakRepeatTimer (p : Fin 64)
  /-- ACK_PROGRESS_TIMEOUT (R370) -/
  | ackProgressTimeout (p : Fin 64)
  /-- REPLAY_GIVE_UP (R372) -/
  | replayGiveUp (p : Fin 64)
  /-- MESSAGE_TRANSMIT (R375) -/
  | messageTransmit (p : Fin 64)
  /-- READ_REQ_SERVE (R379) -/
  | readReqServe (i : Nat)
  /-- READ_CPL_RECEIVE (R379) -/
  | readCplReceive (i : Nat)
  /-- ROUTE_WAIT_TIMEOUT (R382) -/
  | routeWaitTimeout (p : Fin 64)
  /-- WINDOW_ARM (R387) -/
  | windowArm (agent : Agent) (p : Fin 64) (w : Fin 16) (value : Nat)
  /-- WINDOW_OPEN (R388) -/
  | windowOpen (p : Fin 64) (w : Fin 16)
  /-- WINDOW_CLOSE (R388) -/
  | windowClose (p : Fin 64)
  /-- BUCKET_LEAK (R426) -/
  | bucketLeak (kind : Fin 9)
  /-- CHANNEL_RETIRE (R434) -/
  | channelRetire (ch : Fin 65536)
  /-- RAS_RETIRE_WRITE (R429) -/
  | rasRetireWrite (agent : Agent) (value : Nat)
  /-- REMOTE_RESEND (R432) -/
  | remoteResend (i : Nat)
  /-- REMOTE_GIVE_UP (R432) -/
  | remoteGiveUp (i : Nat)
  /-- RECEIPT_ENTRY_RELEASE (R433) -/
  | receiptEntryRelease (h : Fin 8) (i : Nat)
  /-- BRIDGE_FLIT_CRC_ERROR (R425) -/
  | bridgeFlitCrcError (lane : Fin 288)
  /-- BRIDGE_LANE_LOCK_LOSS (R425) -/
  | bridgeLaneLockLoss (lane : Fin 288) (relocked : Bool)
  /-- RAS_RECORD_STORE (R444) -/
  | rasRecordStore
  /-- RAS_REC_CMD_WRITE (R445) -/
  | rasRecCmdWrite (agent : Agent) (value : Nat)
  /-- SCAN_ROUND_START (R455) -/
  | scanRoundStart
  /-- SCAN_CHUNK_DELIVER (R455) -/
  | scanChunkDeliver
  /-- SCAN_ROUND_END (R457) -/
  | scanRoundEnd (h : Fin 8) (mask : Nat)
  /-- SCAN_RETEST_END (R457) -/
  | scanRetestEnd (h : Fin 8) (mask : Nat) (pattern : Nat) (diff : Nat)
  /-- PACK_INSTALL (R459) -/
  | packInstall
  /-- SCAN_AREA_UPDATE (R460) -/
  | scanAreaUpdate
  /-- FOCUS_PACK_EVALUATE (R461) -/
  | focusPackEvaluate
  /-- INJ_ARM_WRITE (R465) -/
  | injArmWrite (agent : Agent) (i : Fin 16) (value : Nat)
  /-- INJ_DISARM_WRITE (R466) -/
  | injDisarmWrite (agent : Agent) (i : Fin 16) (value : Nat)
  /-- INJ_ARMING_POINT (R466) -/
  | injArmingPoint (i : Fin 16)
  /-- BAR4_READ (R405) -/
  | bar4Read (v : Fin 256) (off : Nat) (len : Nat)
  /-- BAR4_WRITE (R405) -/
  | bar4Write (v : Fin 256) (off : Nat) (bytes : List Nat) (ep : Bool)
  /-- VF_FLR (R399) -/
  | vfFlr (v : Fin 256)
  /-- PF_FLR (R399) -/
  | pfFlr
  /-- VF_ENABLE_CLEAR (R399) -/
  | vfEnableClear
  /-- ATS_INVALIDATE (R409) -/
  | atsInvalidate (v : Fin 256) (pasid : Option Nat) (page : Nat) (pages : Nat)
  /-- HOST_ACCESS_FAIL (R410) -/
  | hostAccessFail (v : Fin 256) (access : Fin 5) (kind : Fin 5) (ring : Fin 16)
  /-- PCIE_LINK_DOWN (R397) -/
  | pcieLinkDown
  /-- MSIX_UNMASK (R407) -/
  | msixUnmask (v : Fin 256) (entry : Option Nat)
  /-- SET_ENDPOINT_ID (R412) -/
  | setEndpointId (eid : Nat)
  /-- MCTP_CONTROL_MESSAGE (R413) -/
  | mctpControlMessage (typ : Nat) (pldm : Nat)
  /-- MGT_REGISTER_READ (R414) -/
  | mgtRegisterRead (addr : Nat)
  /-- MGT_REGISTER_WRITE (R414) -/
  | mgtRegisterWrite (addr : Nat) (value : Nat)
  /-- GET_SENSOR_READING (R415) -/
  | getSensorReading (id : Nat)
  /-- FRU_DATA_READ (R413) -/
  | fruDataRead
  /-- REQUEST_UPDATE (R416) -/
  | requestUpdate
  /-- FIRMWARE_COMPONENT_VERIFY (R416) -/
  | firmwareComponentVerify (c : Payload)
  /-- FIRMWARE_COMPONENT_APPLY (R416) -/
  | firmwareComponentApply
  /-- ACTIVATE_FIRMWARE (R416) -/
  | activateFirmware
  /-- FLASH_OPERATION (R420) -/
  | flashOperation (ok : Bool)
  /-- IDCODE (R421) -/
  | idcode
  /-- SAMPLE_PRELOAD (R421) -/
  | samplePreload (value : Nat)
  /-- EXTEST (R421) -/
  | extest
  /-- CLAMP (R421) -/
  | clamp
  /-- HIGHZ (R421) -/
  | highz
  /-- IJTAG_SEL (R421) -/
  | ijtagSel
  /-- BYPASS (R421) -/
  | bypass
  /-- REGISTER_BRIDGE_UPDATE (R422) -/
  | registerBridgeUpdate (value : Nat)
  /-- COLD_RESET (R471) -/
  | coldReset
  /-- BOOT_CTRL_COLD (R471) -/
  | bootCtrlCold (agent : Agent) (value : Nat)
  /-- BOOT_CTRL_WARM (R471) -/
  | bootCtrlWarm (agent : Agent) (value : Nat)
  /-- BOOT_CTRL_PART_ALL (R471) -/
  | bootCtrlPartAll (agent : Agent) (value : Nat)
  /-- PERST_N_ASSERT (R497) -/
  | perstNAssert
  /-- PERST_N_DEASSERT (R497) -/
  | perstNDeassert
  /-- RESET_WIPE_COMPLETE (R471) -/
  | resetWipeComplete
  /-- BOOT_PMC_IMAGE_VERIFIED (R479) -/
  | bootPmcImageVerified
  /-- BOOT_HALL_IMAGE_VERIFIED (R479) -/
  | bootHallImageVerified
  /-- BOOT_HALL_START (R479) -/
  | bootHallStart
  /-- BOOT_READY (R479) -/
  | bootReady
  /-- BOOT_WATCHDOG_EXPIRE (R479) -/
  | bootWatchdogExpire
  /-- PMC_SERVICE_TIMER_EXPIRE (R476) -/
  | pmcServiceTimerExpire
  /-- PMC_FAULT (R476) -/
  | pmcFault
  /-- BOOT_OVERRIDE_WRITE (R484) -/
  | bootOverrideWrite (agent : Agent) (value : Nat)
  /-- LC_ARM (R490) -/
  | lcArm (agent : Agent) (value : Nat)
  /-- LC_COMMIT (R490) -/
  | lcCommit (agent : Agent) (value : Nat)
  /-- LC_ARM_LAPSE (R490) -/
  | lcArmLapse
  /-- LC_STORE_ID (R491) -/
  | lcStoreId (agent : Agent) (value : Nat)
  /-- PWR_OK_IN_FALL (R502) -/
  | pwrOkInFall
  /-- RAIL_REGULATION_TIMEOUT (R501) -/
  | railRegulationTimeout (rail : Nat)
  /-- POWER_LIMIT_EVALUATE (R505) -/
  | powerLimitEvaluate (watts : List Nat) (mv : List Nat) (good : Nat)
  /-- CLOCK_GLIDE_STEP (R504) -/
  | clockGlideStep (h : Fin 8)
  /-- THROTTLE_N_FALL (R506) -/
  | throttleNFall
  /-- THROTTLE_N_RISE (R506) -/
  | throttleNRise
  /-- THERMAL_SAMPLE (R508) -/
  | thermalSample (h : Fin 8) (t : Int)
  /-- THERMAL_TRIP (R509) -/
  | thermalTrip
  /-- RAIL_FAULT_IN_SERVICE (R511) -/
  | railFaultInService (rail : Nat)
  /-- ALCOVE_ISLAND_SILENT (R425) -/
  | alcoveIslandSilent (n : Fin 256)
  /-- PPS_PRESENT_EXPIRE (R50) -/
  | ppsPresentExpire
  /-- VF_ENABLE_SET (R321) -/
  | vfEnableSet (num : Nat)
  /-- PCIE_LINK_UP (R397) -/
  | pcieLinkUp (rate : Nat) (width : Nat) (flit : Bool)
  /-- QUARANTINE_VERIFY_DONE (R336) -/
  | quarantineVerifyDone
  deriving DecidableEq, Repr

end Sys2Proof
end

