-- ==== Sys2Proof/Config.lean ====
section
/-! DEFINITION. What an implementation fixes and what the manual leaves open. Every constant here is opaque:
no proof can see its value, so a claim holds whatever it is. -/

namespace Sys2Proof.Config

/-- The choice a transcendental operation makes among the FP32 values its error bound allows (R139), for
operation `op` on FP32 input `x`. R133 makes it a function of the operands. -/
opaque approxPick : (op : Nat) → (x : Nat) → Nat

/-- A value the manual leaves open, drawn with a counter of State. -/
opaque freeValue : (n : Nat) → Nat

/-- Byte `i` of the PRBS31 pattern of R233 from a seed: the manual names no polynomial. -/
opaque prbsByte : (seed i : Nat) → Nat

/-- What the ECC lanes carry in a raw test (R233) for a sector: the manual gives no layout. -/
opaque rawEcc : (seed sector : Nat) → Nat

/-- Llynio's JEP106 identity (R421), which the manual does not give. -/
opaque jep106 : Nat

/-- Byte `i` of a Common Platform Error Record header and section descriptor, where R441 gives none: revisions,
creator, notification type and flags. -/
opaque cperByte : (i : Nat) → Nat

/-- The agent ID of the package controller's landing-unit operations, which R236 does not assign. -/
opaque pmcAgent : Nat

end Sys2Proof.Config
end

