-- ==== Sys2Proof/Machine/Flags.lean ====
section
/-! DEFINITION. Number formats, rounding, narrowing and the FSTAT flags they set (R141 to R157, R138,
R139). Exact values are dyadic; every rounding step is explicit. -/

namespace Sys2Proof.Machine

/-! ### FSTAT flags (R158) -/

def flagNV : Nat := 0x01
def flagOF : Nat := 0x02
def flagUF : Nat := 0x04
def flagNX : Nat := 0x08
def flagSATD : Nat := 0x10
def flagDENF : Nat := 0x20
def flagOUTF : Nat := 0x40
def flagIOV : Nat := 0x80

/-! ### Formats -/

/-- The element formats of R95. -/
inductive Fmt
  | fp32 | fp19 | bf16 | fp16 | e4m3 | e5m2 | e3m2 | e2m3 | e2m1 | int8 | uint8 | int4 | uint4 | int32
  deriving DecidableEq, Repr

def Fmt.code : Fmt → Nat
  | .fp32 => 0 | .fp19 => 1 | .bf16 => 2 | .fp16 => 3 | .e4m3 => 4 | .e5m2 => 5 | .e3m2 => 6
  | .e2m3 => 7 | .e2m1 => 8 | .int8 => 9 | .uint8 => 10 | .int4 => 11 | .uint4 => 12 | .int32 => 13

/-- Codes 0xE and 0xF are reserved. -/
def Fmt.ofCode? : Nat → Option Fmt
  | 0 => some .fp32 | 1 => some .fp19 | 2 => some .bf16 | 3 => some .fp16 | 4 => some .e4m3
  | 5 => some .e5m2 | 6 => some .e3m2 | 7 => some .e2m3 | 8 => some .e2m1 | 9 => some .int8
  | 10 => some .uint8 | 11 => some .int4 | 12 => some .uint4 | 13 => some .int32 | _ => none

/-- Bits of one element as stored (R95, R146); FP19 has a 32-bit container. -/
def Fmt.bits : Fmt → Nat
  | .fp32 | .fp19 | .int32 => 32
  | .bf16 | .fp16 => 16
  | .e4m3 | .e5m2 | .int8 | .uint8 => 8
  | .e3m2 | .e2m3 => 6
  | .e2m1 | .int4 | .uint4 => 4

/-- Vector lanes of a format; none where it is for conversion only (R95). -/
def Fmt.lanes? : Fmt → Option Nat
  | .fp32 | .fp19 | .int32 => some 128
  | .bf16 | .fp16 => some 256
  | .e4m3 | .e5m2 | .int8 | .uint8 => some 512
  | _ => none

def Fmt.isInt : Fmt → Bool
  | .int8 | .uint8 | .int4 | .uint4 | .int32 => true
  | _ => false

/-- Least and greatest value of an integer format (R145). -/
def Fmt.intRange : Fmt → Int × Int
  | .int8 => (-128, 127)
  | .uint8 => (0, 255)
  | .int4 => (-8, 7)
  | .uint4 => (0, 15)
  | _ => (-2147483648, 2147483647)

/-- Exponent width, fraction width and bias of a floating format (R141); integers answer zeros. -/
def Fmt.layout : Fmt → Nat × Nat × Int
  | .fp32 => (8, 23, 127)
  | .fp19 => (8, 10, 127)
  | .bf16 => (8, 7, 127)
  | .fp16 => (5, 10, 15)
  | .e4m3 => (4, 3, 7)
  | .e5m2 => (5, 2, 15)
  | .e3m2 => (3, 2, 3)
  | .e2m3 => (2, 3, 1)
  | .e2m1 => (2, 1, 1)
  | _ => (0, 0, 0)

/-- Position of the fraction's lowest bit in the element: 13 for the FP19 container (R142). -/
def Fmt.shift : Fmt → Nat
  | .fp19 => 13
  | _ => 0

/-- Encoding of the largest finite magnitude, without the container shift. -/
def Fmt.maxEnc : Fmt → Nat
  | .fp32 => 0x7F7FFFFF
  | .fp19 => 0x3FBFF
  | .bf16 => 0x7F7F
  | .fp16 => 0x7BFF
  | .e4m3 => 0x7E
  | .e5m2 => 0x7B
  | .e3m2 => 0x1F
  | .e2m3 => 0x1F
  | .e2m1 => 0x7
  | _ => 0

/-- Encoding of infinity, where the format has one. -/
def Fmt.infEnc? : Fmt → Option Nat
  | .fp32 => some 0x7F800000
  | .fp19 => some 0x3FC00
  | .bf16 => some 0x7F80
  | .fp16 => some 0x7C00
  | .e5m2 => some 0x7C
  | _ => none

/-- The canonical NaN (R141, R144), where the format has one. -/
def Fmt.nanEnc? : Fmt → Option Nat
  | .fp32 => some 0x7FC00000
  | .fp19 => some 0x3FE00
  | .bf16 => some 0x7FC0
  | .fp16 => some 0x7E00
  | .e4m3 => some 0x7F
  | .e5m2 => some 0x7E
  | _ => none

/-- Formats whose subnormals are flushed (R143). -/
def Fmt.flushes : Fmt → Bool
  | .fp32 | .fp19 => true
  | _ => false

/-! ### Exact values -/

/-- An exact value: NaN, an infinity, or (−1)^neg × m × 2^e; m = 0 is a signed zero. -/
inductive Val
  | nan
  | inf (neg : Bool)
  | num (neg : Bool) (m : Nat) (e : Int)
  deriving DecidableEq, Repr

def Val.zero : Val := .num false 0 0
def Val.negZero : Val := .num true 0 0
def Val.one : Val := .num false 1 0

def Val.ofInt (i : Int) : Val := .num (i < 0) i.natAbs 0

def Val.isZero : Val → Bool
  | .num _ m _ => m == 0
  | _ => false

def Val.neg : Val → Val
  | .nan => .nan
  | .inf n => .inf (!n)
  | .num n m e => .num (!n) m e

def Val.abs : Val → Val
  | .nan => .nan
  | .inf _ => .inf false
  | .num _ m e => .num false m e

/-- Multiply by a power of two. -/
def Val.scale (k : Int) : Val → Val
  | .num n m e => .num n m (e + k)
  | v => v

/-- The signed integer m × 2^(e − f) for a common exponent f not above e. -/
def alignTo (f : Int) (neg : Bool) (m : Nat) (e : Int) : Int :=
  let x : Int := (m <<< (e - f).toNat : Nat)
  if neg then -x else x

/-- Exact sum and the flag of ∞ − ∞ (R144). An exact zero sum is +0 unless both terms are −0 (R156). -/
def Val.add : Val → Val → Val × Nat
  | .nan, _ => (.nan, 0)
  | _, .nan => (.nan, 0)
  | .inf a, .inf b => if a = b then (.inf a, 0) else (.nan, flagNV)
  | .inf a, _ => (.inf a, 0)
  | _, .inf b => (.inf b, 0)
  | .num na ma ea, .num nb mb eb =>
    if ma = 0 ∧ mb = 0 then (.num (na && nb) 0 0, 0)
    else if ma = 0 then (.num nb mb eb, 0)
    else if mb = 0 then (.num na ma ea, 0)
    else
      let f := min ea eb
      let s := alignTo f na ma ea + alignTo f nb mb eb
      if s = 0 then (.zero, 0) else (.num (s < 0) s.natAbs f, 0)

/-- Exact product and the flag of 0 × ∞ (R144). -/
def Val.mul : Val → Val → Val × Nat
  | .nan, _ => (.nan, 0)
  | _, .nan => (.nan, 0)
  | .inf a, .inf b => (.inf (a != b), 0)
  | .inf a, .num n m _ => if m = 0 then (.nan, flagNV) else (.inf (a != n), 0)
  | .num n m _, .inf b => if m = 0 then (.nan, flagNV) else (.inf (n != b), 0)
  | .num na ma ea, .num nb mb eb => (.num (na != nb) (ma * mb) (ea + eb), 0)

/-- Order of two values that are no NaN, with −0 equal to +0. -/
def Val.lt : Val → Val → Bool
  | .inf true, .inf true => false
  | .inf true, .inf false => true
  | .inf true, .num .. => true
  | .num .., .inf false => true
  | .num na ma ea, .num nb mb eb =>
    let f := min ea eb
    decide (alignTo f na ma ea < alignTo f nb mb eb)
  | _, _ => false

def Val.isNan : Val → Bool
  | .nan => true
  | _ => false

def Val.eqv (a b : Val) : Bool := !a.isNan && !b.isNan && !a.lt b && !b.lt a

def Val.isNeg : Val → Bool
  | .inf n => n
  | .num n _ _ => n
  | .nan => false

/-! ### Reading an element -/

/-- Two's-complement or unsigned reading of an integer element. -/
def readInt (f : Fmt) (x : Nat) : Int :=
  let w := f.bits
  let x := x % 2 ^ w
  match f with
  | .uint8 | .uint4 => x
  | _ => if x ≥ 2 ^ (w - 1) then (x : Int) - (2 ^ w : Nat) else x

/-- The value of a floating element, before any flushing (R141, R142). -/
def readFloat (f : Fmt) (x : Nat) : Val :=
  let (ew, fw, bias) := f.layout
  let x := x >>> f.shift
  let frac := x % 2 ^ fw
  let e := (x >>> fw) % 2 ^ ew
  let neg := (x >>> (fw + ew)) % 2 = 1
  let mag := x % 2 ^ (fw + ew)
  match f.infEnc? with
  | some i =>
    if mag = i then .inf neg else if mag > i then .nan
    else if e = 0 then .num neg frac (1 - bias - fw) else .num neg (2 ^ fw + frac) (e - bias - fw)
  | none =>
    if f = .e4m3 ∧ mag = 0x7F then .nan
    else if e = 0 then .num neg frac (1 - bias - fw) else .num neg (2 ^ fw + frac) (e - bias - fw)

/-- Whether a floating element is a nonzero subnormal. -/
def isSubnormal (f : Fmt) (x : Nat) : Bool :=
  let (ew, fw, _) := f.layout
  let x := x >>> f.shift
  (x >>> fw) % 2 ^ ew = 0 && x % 2 ^ fw != 0

/-- An operand as an operation uses it, with the flag of an input flushed (R143). -/
def readOperand (f : Fmt) (x : Nat) : Val × Nat :=
  if f.isInt then (.ofInt (readInt f x), 0)
  else if f.flushes && isSubnormal f x then
    (.num ((readFloat f x).isNeg) 0 0, flagDENF)
  else (readFloat f x, 0)

/-! ### Rounding (R149, R150) -/

/-- An effective rounding mode. -/
inductive Rnd
  | nearest | zero | stochastic
  deriving DecidableEq, Repr

/-- ROUND.MODE (R158). -/
def Rnd.ofMode (m : Nat) : Rnd :=
  match m % 4 with
  | 2 => .zero
  | 3 => .stochastic
  | _ => .nearest

/-- The effective mode of an operation: its RND, or ROUND where RND is 0 (R149). -/
def effectiveRnd (rnd round : Nat) : Rnd :=
  match rnd % 4 with
  | 0 => Rnd.ofMode round
  | 1 => .nearest
  | 2 => .zero
  | _ => .stochastic

/-- Matrix accumulation never rounds stochastically (R149). -/
def accumulationRnd (round : Nat) : Rnd :=
  match Rnd.ofMode round with
  | .zero => .zero
  | _ => .nearest

/-- Whether a magnitude q + rem / 2^k rounds away from zero: q the magnitude below, rem its remainder, r
the draw of R152. -/
def roundsAway (mode : Rnd) (q rem k : Nat) (r : Nat) : Bool :=
  match mode with
  | .zero => false
  | .nearest => if 2 * rem = 2 ^ k then rem != 0 && q % 2 = 1 else 2 * rem > 2 ^ k
  | .stochastic => (rem <<< 32) >>> k + r ≥ 2 ^ 32

/-- Round m × 2^e to a multiple of 2^u: the multiple, and whether it is inexact. -/
def roundAt (mode : Rnd) (r : Nat) (m : Nat) (e u : Int) : Nat × Bool :=
  if u ≤ e then (m <<< (e - u).toNat, false)
  else
    let k := (u - e).toNat
    let q := m >>> k
    let rem := m % 2 ^ k
    (if roundsAway mode q rem k r then q + 1 else q, rem != 0)

/-- Encoding of the finite magnitude q × 2^u, a value of the format (without container shift). -/
def encodeMag (f : Fmt) (q : Nat) (u : Int) : Nat :=
  let (_, fw, bias) := f.layout
  let emin : Int := 1 - bias
  if q = 0 then 0
  else
    let ex : Int := (Nat.log2 q : Int) + u
    if ex < emin then q <<< (u - (emin - fw)).toNat
    else
      let frac := if (Nat.log2 q) ≤ fw then q <<< (fw - Nat.log2 q) else q >>> (Nat.log2 q - fw)
      ((ex + bias).toNat <<< fw) + (frac - 2 ^ fw)

/-- An encoding with its sign, in its container. -/
def withSign (f : Fmt) (neg : Bool) (mag : Nat) : Nat :=
  let (ew, fw, _) := f.layout
  ((if neg then 2 ^ (ew + fw) else 0) + mag) <<< f.shift

/-- What a NaN bound for a format is written as (R144, R153): the canonical NaN, or +0 with NV. -/
def writeNan (f : Fmt) : Nat × Nat :=
  match f.nanEnc? with
  | some x => (x <<< f.shift, 0)
  | none => (0, flagNV)

/-- A finite overflow (`finite`) or an infinity bound for a floating format (R153). -/
def writeOver (f : Fmt) (mode : Rnd) (sat finite neg : Bool) : Nat × Nat :=
  let base := if finite then flagOF ||| flagNX else 0
  let maxv := (withSign f neg f.maxEnc, base ||| flagSATD)
  if sat then maxv
  else
    match f.infEnc? with
    | some i => if finite && mode = .zero then maxv else (withSign f neg i, base)
    | none =>
      if f = .e4m3 then
        if finite && mode = .zero then maxv else (0x7F, base ||| flagNV)
      else maxv

/-- Write a value to a floating format: one rounding, then R143 and R153. -/
def writeFloat (f : Fmt) (mode : Rnd) (sat : Bool) (r : Nat) : Val → Nat × Nat
  | .nan => writeNan f
  | .inf n => writeOver f mode sat false n
  | .num neg m e =>
    if m = 0 then (withSign f neg 0, 0)
    else
      let (_, fw, bias) := f.layout
      let emin : Int := 1 - bias
      let ex : Int := (Nat.log2 m : Int) + e
      let u : Int := max (ex - fw) (emin - fw)
      let (q, inexact) := roundAt mode r m e u
      let past := (Val.lt (readFloat f (f.maxEnc <<< f.shift)) (.num false q u))
      if past then writeOver f mode sat true neg
      else
        let tiny := q != 0 && Val.lt (.num false q u) (.num false 1 emin)
        if tiny && f.flushes then (withSign f neg 0, flagOUTF ||| flagUF ||| flagNX)
        else
          (withSign f neg (encodeMag f q u),
            (if inexact then flagNX else 0) ||| (if tiny && inexact then flagUF else 0))

/-- The bits of an integer in an integer format. -/
def intBits (f : Fmt) (i : Int) : Nat := (i % (2 ^ f.bits : Nat)).toNat

def clampInt (f : Fmt) (i : Int) : Int :=
  let (lo, hi) := f.intRange
  if i < lo then lo else if i > hi then hi else i

/-- A floating value bound for an integer format (R154). -/
def writeIntFromFloat (f : Fmt) (mode : Rnd) (r : Nat) : Val → Nat × Nat
  | .nan => (0, flagNV)
  | .inf n => (intBits f (if n then f.intRange.1 else f.intRange.2), flagSATD)
  | .num neg m e =>
    let (q, inexact) := roundAt mode r m e 0
    let i : Int := if neg then -(q : Int) else q
    let c := clampInt f i
    (intBits f c, (if inexact then flagNX else 0) ||| (if c = i then 0 else flagSATD))

/-- An integer bound for an integer format (R154): kept, wrapped or clamped. -/
def writeIntFromInt (f : Fmt) (sat : Bool) (i : Int) : Nat × Nat :=
  let c := clampInt f i
  if c = i then (intBits f i, 0)
  else if sat then (intBits f c, flagSATD)
  else (intBits f i, flagIOV)

/-- Convert an element from one format to another (R147, R153, R154). -/
def convert (src dst : Fmt) (mode : Rnd) (sat : Bool) (r : Nat) (x : Nat) : Nat × Nat :=
  if src.isInt then
    if dst.isInt then writeIntFromInt dst sat (readInt src x)
    else writeFloat dst mode sat r (.ofInt (readInt src x))
  else
    let (v, fl) := readOperand src x
    let (y, fl') := if dst.isInt then writeIntFromFloat dst mode r v else writeFloat dst mode sat r v
    (y, fl ||| fl')

/-! ### The stochastic generator (R151) -/

/-- Draw number `n` of a generator with seed `s`. -/
def draw (s n : Nat) : Nat :=
  let z : BitVec 64 := BitVec.ofNat 64 s ^^^ (BitVec.ofNat 64 n * 0x9E3779B97F4A7C15#64)
  let z := (z ^^^ (z >>> 30)) * 0xBF58476D1CE4E5B9#64
  let z := (z ^^^ (z >>> 27)) * 0x94D049BB133111EB#64
  let z := z ^^^ (z >>> 31)
  (z >>> 32).toNat

/-! ### FP32 accumulation of a pass (R156, R157) -/

/-- One rounding step of a floating pass: FP32 under the accumulation mode. Overflow gives an infinity, or
the greatest finite value with SATD under SAT.ACC_FP. NX is never set. -/
def accStep (mode : Rnd) (accFp : Bool) (v : Val) : Val × Nat :=
  match v with
  | .nan => (.nan, 0)
  | .inf n => (.inf n, 0)
  | .num neg m e =>
    if m = 0 then (v, 0)
    else
      let ex : Int := (Nat.log2 m : Int) + e
      let u : Int := max (ex - 23) (-149)
      let q := (roundAt mode 0 m e u).1
      if Val.lt (readFloat .fp32 0x7F7FFFFF) (.num false q u) then
        if accFp then
          ((readFloat .fp32 (withSign .fp32 neg 0x7F7FFFFF)), flagOF ||| flagSATD)
        else (.inf neg, flagOF)
      else if q != 0 && Val.lt (.num false q u) (.num false 1 (-126)) then
        (.num neg 0 0, flagOUTF ||| flagUF)
      else (.num neg q u, 0)

/-- The FP32 bits of a value that an accumulation step gave. -/
def accBits (v : Val) : Nat := (writeFloat .fp32 .nearest false 0 v).1

/-- Exact sum of a list of terms. -/
def sumVals : List Val → Val × Nat
  | [] => (.negZero, 0)
  | v :: vs =>
    let (s, f) := sumVals vs
    let (t, g) := v.add s
    (t, f ||| g)

/-- One step of an integer pass: wrap with IOV, or clamp with SATD under SAT.ACC_INT. -/
def accIntStep (accInt : Bool) (i : Int) : Int × Nat :=
  let c := clampInt .int32 i
  if c = i then (i, 0)
  else if accInt then (c, flagSATD)
  else (readInt .int32 (intBits .int32 i), flagIOV)

/-! ### Vector lane operations (R102, R103, R155) -/

/-- Round a floating V-slot result once to FMT. -/
def roundResult (f : Fmt) (mode : Rnd) (sat : Bool) (r : Nat) (v : Val × Nat) : Nat × Nat :=
  let (x, fl) := writeFloat f mode sat r v.1
  (x, fl ||| v.2)

/-- Floating binary operation of a lane from its two element encodings. -/
def floatBin (op : Val → Val → Val × Nat) (f : Fmt) (mode : Rnd) (sat : Bool) (r a b : Nat) :
    Nat × Nat :=
  let (va, fa) := readOperand f a
  let (vb, fb) := readOperand f b
  let (v, fv) := op va vb
  roundResult f mode sat r (v, fa ||| fb ||| fv)

/-- Integer V-slot arithmetic wraps with IOV, or clamps with SATD (R155). -/
def intBin (op : Int → Int → Int) (f : Fmt) (sat : Bool) (a b : Nat) : Nat × Nat :=
  writeIntFromInt f sat (op (readInt f a) (readInt f b))

def Val.sub (a b : Val) : Val × Nat := a.add b.neg

def laneAdd (f : Fmt) (mode : Rnd) (sat : Bool) (r a b : Nat) : Nat × Nat :=
  if f.isInt then intBin (· + ·) f sat a b else floatBin Val.add f mode sat r a b

def laneSub (f : Fmt) (mode : Rnd) (sat : Bool) (r a b : Nat) : Nat × Nat :=
  if f.isInt then intBin (· - ·) f sat a b else floatBin Val.sub f mode sat r a b

def laneMul (f : Fmt) (mode : Rnd) (sat : Bool) (r a b : Nat) : Nat × Nat :=
  if f.isInt then intBin (· * ·) f sat a b else floatBin Val.mul f mode sat r a b

/-- `VFMA` rounds once, after the addition (R155). -/
def laneFma (f : Fmt) (mode : Rnd) (sat : Bool) (r a b c : Nat) : Nat × Nat :=
  if f.isInt then writeIntFromInt f sat (readInt f a * readInt f b + readInt f c)
  else
    let (va, fa) := readOperand f a
    let (vb, fb) := readOperand f b
    let (vc, fc) := readOperand f c
    let (p, fp) := va.mul vb
    let (v, fv) := p.add vc
    roundResult f mode sat r (v, fa ||| fb ||| fc ||| fp ||| fv)

/-- Minimum or maximum of two floating values (R103): NaN wins, −0 lies below +0. -/
def valMinMax (wantMax : Bool) (a b : Val) : Val :=
  if a.isNan || b.isNan then .nan
  else
    let aLess := if a.isZero && b.isZero then a.isNeg && !b.isNeg else a.lt b
    if aLess != wantMax then a else b

def laneMinMax (wantMax : Bool) (f : Fmt) (mode : Rnd) (sat : Bool) (r a b : Nat) : Nat × Nat :=
  if f.isInt then
    intBin (fun x y => if wantMax then max x y else min x y) f sat a b
  else floatBin (fun x y => (valMinMax wantMax x y, 0)) f mode sat r a b

def laneAbs (f : Fmt) (mode : Rnd) (sat : Bool) (r a : Nat) : Nat × Nat :=
  if f.isInt then writeIntFromInt f sat (readInt f a).natAbs
  else
    let (v, fl) := readOperand f a
    roundResult f mode sat r (v.abs, fl)

def laneNeg (f : Fmt) (mode : Rnd) (sat : Bool) (r a : Nat) : Nat × Nat :=
  if f.isInt then writeIntFromInt f sat (-(readInt f a))
  else
    let (v, fl) := readOperand f a
    roundResult f mode sat r (v.neg, fl)

/-- The compare conditions of R96 on integers: signed, then unsigned. -/
def condInt (cond : Nat) (sa sb : Int) (ua ub : Nat) : Bool :=
  match cond with
  | 0 => ua = ub
  | 1 => ua ≠ ub
  | 2 => sa < sb
  | 3 => sb ≤ sa
  | 4 => ua < ub
  | 5 => ub ≤ ua
  | 6 => sa ≤ sb
  | 7 => sb < sa
  | 8 => ua ≤ ub
  | 9 => ub < ua
  | _ => false

/-- The compare conditions on floating values; a NaN makes every condition but NE false. -/
def condVal (cond : Nat) (a b : Val) : Bool :=
  match cond with
  | 0 => a.eqv b
  | 1 => !a.eqv b
  | 2 => a.lt b
  | 3 => b.lt a || a.eqv b
  | 6 => a.lt b || a.eqv b
  | 7 => b.lt a
  | _ => false

/-- One lane of `VCMP` (R103). -/
def laneCmp (f : Fmt) (cond a b : Nat) : Bool × Nat :=
  if f.isInt then
    let w := f.bits
    let s (x : Nat) : Int := if x ≥ 2 ^ (w - 1) then (x : Int) - (2 ^ w : Nat) else x
    (condInt cond (s a) (s b) a b, 0)
  else
    let (va, fa) := readOperand f a
    let (vb, fb) := readOperand f b
    (condVal cond va vb, fa ||| fb)

/-- Lane shifts; the count is taken modulo the lane width. -/
def laneShl (f : Fmt) (a b : Nat) : Nat := (a <<< (b % f.bits)) % 2 ^ f.bits
def laneShr (f : Fmt) (a b : Nat) : Nat := a >>> (b % f.bits)
def laneSar (f : Fmt) (a b : Nat) : Nat :=
  let w := f.bits
  let s : Int := if a ≥ 2 ^ (w - 1) then (a : Int) - (2 ^ w : Nat) else a
  ((s >>> (b % w)) % (2 ^ w : Nat)).toNat

end Sys2Proof.Machine
end

