-- ==== Sys2Proof/Machine/TypesAlcove.lean ====
section
/-! DEFINITION. State of an alcove and of a hall controller (R51 to R83, R113 to R140, R158, R164 to R177)
beside their registers of the package map. -/

namespace Sys2Proof.Machine

/-- `ALC_STATUS`.STATE. -/
inductive CoreState
  | off | idle | running | waiting | halted | faulted | retired | draining
  deriving DecidableEq, Repr

def CoreState.code : CoreState → Nat
  | .off => 0 | .idle => 1 | .running => 2 | .waiting => 3 | .halted => 4 | .faulted => 5
  | .retired => 6 | .draining => 7

/-- The register files of R90; `gx`, `ax` and `px` are those of a hall controller's bank not in use. -/
inductive RegFile
  | g | a | v | p | acc | lc | ctl | gx
  deriving DecidableEq, Repr

/-- A register of a core. -/
structure RegRef where
  file : RegFile
  idx : Nat
  deriving DecidableEq, Repr

/-- A g register with its poison mark (R74). -/
structure Scalar where
  val : W64
  poison : Bool
  deriving DecidableEq, Repr

/-- An a register (R59). -/
structure AddrReg where
  addr : BitVec 24
  stride : BitVec 24
  low : BitVec 24
  high : BitVec 24
  deriving DecidableEq, Repr

/-- A v register with its poison mark. -/
structure VecReg where
  bits : BitVec 4096
  poison : Bool
  deriving DecidableEq, Repr

/-- A p register with its poison mark. -/
structure PredReg where
  bits : BitVec 512
  poison : Bool
  deriving DecidableEq, Repr

/-- An accumulator tile: element 64 × row + column to its 32 bits; whether it holds INT32 values (R58); and, while it
carries poison, the rows that `ACCWR` has rewritten clean since, as a mask (R136). -/
structure AccTile where
  elems : Tbl W32
  poison : Bool
  int : Bool
  clean : Nat
  deriving DecidableEq, Repr

def Scalar.zero : Scalar := { val := 0, poison := false }
def AddrReg.zero : AddrReg := { addr := 0, stride := 0, low := 0, high := 0 }
def VecReg.zero : VecReg := { bits := 0, poison := false }
def PredReg.zero : PredReg := { bits := 0, poison := false }
def AccTile.zero : AccTile := { elems := [], poison := false, int := false, clean := 0 }

/-- A result on its way to a register. -/
inductive RegVal
  | g (x : Scalar)
  | a (x : AddrReg)
  | v (x : VecReg)
  | p (x : PredReg)
  | lc (x : BitVec 32)
  deriving DecidableEq, Repr

/-- A result of fixed latency not yet written (R63, R64), with the FSTAT flags it brings. -/
structure WriteBack where
  reg : RegRef
  val : RegVal
  latency : Nat
  flags : Nat
  /-- whether it counts for the busy mark of FSTAT (R98) -/
  flagged : Bool
  deriving DecidableEq, Repr

/-- An active hardware loop (R69). -/
structure LoopFrame where
  lc : Nat
  start : Nat
  stop : Nat
  deriving DecidableEq, Repr

/-- What a WAITING core waits for (R109). -/
inductive Wait
  /-- tokens or a landing: the landing unit answers (R239, R244) -/
  | sync
  /-- an arrival counter of a hall reaching a value (R199) -/
  | counter (hall idx : Nat) (value : Nat)
  /-- the core's replica reaching a tread (R108) -/
  | until (tread : Nat)
  /-- completion of C-slot commands, by tag -/
  | tags (ts : List Nat)
  /-- an interrupt (R111) -/
  | interrupt
  deriving DecidableEq, Repr

/-- A bundle in the prefetch buffer (R54). -/
structure Fetched where
  idx : Nat
  bits : BitVec 1024
  poison : Bool
  deriving DecidableEq, Repr

/-- What an alcove and a hall controller have in common. Registers of bank 1 of a hall controller have
keys 64 higher (R79). -/
structure Core where
  state : CoreState
  pc : Nat
  prefetch : List Fetched
  g : Tbl Scalar
  a : Tbl AddrReg
  v : Tbl VecReg
  p : Tbl PredReg
  lc : Tbl (BitVec 32)
  calls : List Nat
  loops : List LoopFrame
  /-- control registers of R158 -/
  round : W64
  sat : W64
  fstat : W64
  rngSeed : W64
  rngPos : W64
  wb : List WriteBack
  /-- registers an engine or a unit keeps busy -/
  busy : List RegRef
  wait : Option Wait
  /-- the landing unit has answered the wait -/
  granted : Bool
  haltReq : Bool
  /-- halt again after one bundle (STEP, R81) -/
  stepOne : Bool
  /-- the breakpoint that halted this bundle does not halt it again -/
  passBreak : Bool
  bank : Nat
  deriving DecidableEq, Repr

def Core.reset : Core :=
  { state := .off, pc := 0, prefetch := [], g := [], a := [], v := [], p := [], lc := [], calls := [],
    loops := [], round := 1, sat := 0, fstat := 0, rngSeed := 0, rngPos := 0, wb := [], busy := [],
    wait := none, granted := false, haltReq := false, stepOne := false, passBreak := false, bank := 0 }

/-- State of a weight plane (R114). -/
inductive PlaneState
  | empty | valid | invalid | shifting
  deriving DecidableEq, Repr

def PlaneState.code : PlaneState → Nat
  | .empty => 0 | .valid => 1 | .invalid => 2 | .shifting => 3

/-- A weight plane: 64 plane rows as packed bytes (elements, then scale bytes), row 0 first (R113, R121). -/
structure Plane where
  state : PlaneState
  fmt : Nat
  bs : Bool
  rows : List Nat
  poison : Bool
  deriving DecidableEq, Repr

def Plane.empty : Plane := { state := .empty, fmt := 0, bs := false, rows := [], poison := false }

/-- A plane as tracked at issue (R114). -/
structure PlaneView where
  state : PlaneState
  fmt : Nat
  bs : Bool
  deriving DecidableEq, Repr

def PlaneView.empty : PlaneView := { state := .empty, fmt := 0, bs := false }

/-- The ganging modes (R125). -/
inductive Gang
  | quad | wide | tall | square
  deriving DecidableEq, Repr

def Gang.code : Gang → Nat
  | .quad => 0 | .wide => 1 | .tall => 2 | .square => 3

def Gang.ofCode (n : Nat) : Gang :=
  match n % 4 with
  | 0 => .quad | 1 => .wide | 2 => .tall | _ => .square

/-- An operation in a matrix unit's queue (R116), with all it read at issue. -/
inductive XOp
  /-- claim of 64 rows of weight stream `tag` from row `first` -/
  | wshift (tag first fmt : Nat) (bs : Bool)
  | wswap (ganged : Bool)
  /-- a pass: destination tile 4u + N, rows claimed from `first` of `tag`, and the modifiers -/
  | mpass (acc tag first rows depth fmtA fmtW : Nat) (add chk bs : Bool) (cols round sat pc : Nat) (mode : Gang)
  | gang (mode : Gang)
  /-- the register it writes, with its new value -/
  | accrd (v : Nat) (x : VecReg)
  /-- the columns that a predicate enables, as a mask (R104) -/
  | accwr (acc pair cols : Nat) (x : VecReg)
  | accz (acc cols : Nat)
  deriving DecidableEq, Repr

/-- A sum that a checked pass compares (R134): the unit and kind of the check, its row or column within the pass, and
the sum of the outputs as FP32 or INT32 bits; `bad` when the comparison fails. -/
structure Check where
  unit : Nat
  kind : Nat
  index : Nat
  sum : Nat
  bad : Bool
  deriving DecidableEq, Repr

/-- An operation fed into a pass pipe and not yet complete, with the tiles it will write. -/
structure PassJob where
  op : XOp
  tiles : List (Nat × AccTile)
  flags : Nat
  /-- the sums it compares, and how many rows and columns it does not -/
  checks : List Check
  skipped : Nat
  /-- unit-cycles in which it fed rows, and whether it carries integers -/
  fed : Nat
  int : Bool
  deriving DecidableEq, Repr

/-- One matrix unit (R113 to R116). -/
structure XUnit where
  active : Plane
  shadow : Plane
  viewActive : PlaneView
  viewShadow : PlaneView
  queue : List XOp
  /-- the shift under way -/
  shift : Option XOp
  pipe : List PassJob
  deriving DecidableEq, Repr

def XUnit.reset : XUnit :=
  { active := .empty, shadow := .empty, viewActive := .empty, viewShadow := .empty, queue := [],
    shift := none, pipe := [] }

/-- The kinds of stream command (R106). -/
inductive StreamKind
  | sbcast | swgt | sdrain | fence
  deriving DecidableEq, Repr

/-- A stream command in flight (R106, R117 to R121, R130, R163). -/
structure Stream where
  kind : StreamKind
  tag : Nat
  /-- the g register that holds the tag -/
  dst : Nat
  fmt : Nat
  rows : Nat
  window : AddrReg
  /-- the alcove store as the command sees it (R66) -/
  snap : List Host.Cell
  snapPoison : Tbl Bool
  /-- rows claimed by each cursor: consumer 0 to 3 a unit, 4 a gang; only opened cursors -/
  cursors : List (Nat × Nat)
  /-- rows claimed by `WSHIFT` -/
  claimed : Nat
  closed : Bool
  /-- a drain's tile, rounding, saturation, histogram offset, generator and bundle -/
  tile : AccTile
  rnd : Rnd
  sat : Bool
  hist : Option Nat
  seed : Nat
  pos : Nat
  pc : Nat
  deriving DecidableEq, Repr

/-- A copy request of the alcove in flight. -/
structure CopyRef where
  tag : Nat
  dst : Nat
  /-- number of the copy (see the copy engines) -/
  copy : Nat
  deriving DecidableEq, Repr

/-- C-slot commands noted at an advance (R173): share index and tags still in flight. -/
structure DoneNote where
  share : Nat
  tags : List Nat
  deriving DecidableEq, Repr

/-- The tile walker (R164 to R177). `desc` holds the descriptor's 32 bytes. -/
structure Walker where
  desc : List Nat
  loaded : Bool
  rank : Nat
  group : Nat
  share : Nat
  next : Nat
  done : Nat
  queued : Nat
  notes : List DoneNote
  deriving DecidableEq, Repr

def Walker.empty : Walker :=
  { desc := [], loaded := false, rank := 0, group := 1, share := 0, next := 0, done := 0, queued := 0,
    notes := [] }

/-- A C-slot command is complete for the walker's notes (R173). -/
def Walker.tagDone (w : Walker) (tag : Nat) : Walker :=
  { w with notes := w.notes.map fun x => { x with tags := x.tags.filter (· != tag) } }

/-- A held I-space write (R55): one 128-byte bundle. -/
structure HeldWrite where
  bundle : Nat
  bits : BitVec 1024
  poison : Bool
  /-- copy engine, copy and packet that wait for this bundle -/
  engine : Nat
  copy : Nat
  packet : Nat
  /-- the last bundle of its packet -/
  last : Bool
  deriving DecidableEq, Repr

/-- What operation an alcove runs: work queue, index in its buffer, rank and group size. -/
structure Grant where
  queue : Nat
  op : Nat
  rank : Nat
  size : Nat
  deriving DecidableEq, Repr

/-- An alcove. -/
structure Alcove where
  core : Core
  store : List Host.Cell
  /-- poisoned 32-byte granules -/
  storePoison : Tbl Bool
  /-- wrong bits of stored 8-byte words -/
  upsets : Tbl Upset
  istore : Tbl (BitVec 1024)
  istorePoison : Tbl Bool
  held : List HeldWrite
  tiles : Tbl AccTile
  units : Tbl XUnit
  /-- ganging mode in issue order, and in effect at the units -/
  modeIssued : Gang
  mode : Gang
  streams : List Stream
  streamSeq : Nat
  copySeq : Nat
  copies : List CopyRef
  walker : Walker
  /-- virtual interface of the last kernel (R62) -/
  lastVi : Option Nat
  grant : Option Grant
  pausePending : Bool
  /-- a save point is reached and the state is being handed over (R82) -/
  saving : Bool
  /-- the alcove whose fault aborts this one (R75) -/
  abortBy : Option Nat
  /-- END has issued; completion not yet reported (R70) -/
  ended : Bool
  /-- served by a swapped-in spare (R19) -/
  spare : Bool
  deriving DecidableEq, Repr

def Alcove.reset : Alcove :=
  { core := .reset, store := [], storePoison := [], upsets := [],
    istore := [], istorePoison := [], held := [],
    tiles := [], units := [], modeIssued := .quad, mode := .quad, streams := [], streamSeq := 0,
    copySeq := 0, copies := [], walker := .empty, lastVi := none, grant := none, pausePending := false,
    saving := false, abortBy := none, ended := false, spare := false }

/-- A hall controller, or the PMC (R79, R351). -/
structure HallCtl where
  core : Core
  dstore : List Host.Cell
  dstorePoison : Tbl Bool
  istore : Tbl (BitVec 1024)
  /-- code, slot and bundle of the fault that halted it -/
  fault : Option (Nat × Nat × Nat)
  /-- ticks of its faults in the last 3,600 s (R475) -/
  faults : List Nat
  deriving DecidableEq, Repr

def HallCtl.reset : HallCtl :=
  { core := .reset, dstore := [], dstorePoison := [], istore := [], fault := none, faults := [] }

end Sys2Proof.Machine
end

