-- ==== Sys2Proof/Machine/TypesAnn.lean ====
section
/-! DEFINITION. State of the annealers (R259 to R282) beside the ANN registers. -/

namespace Sys2Proof.Machine

/-- What an annealer's operation does next. -/
inductive AnnStage
  /-- dispatched, not yet launched -/
  | ready
  /-- initialises its blocks and passes the initial sweep point (R276) -/
  | initial
  /-- loads its block (R274) -/
  | load
  /-- runs the clamp pass -/
  | clamp
  /-- runs the evaluation pass (R269) -/
  | eval
  /-- runs the next sweep -/
  | sweep
  /-- runs an exchange round -/
  | exchange
  /-- stands before its sweep point (R275) -/
  | point
  /-- sends its region; an arrival follows the last packet -/
  | sending
  /-- has arrived, and waits for the landing's release -/
  | arrived
  /-- released, and waits for its counter -/
  | released
  /-- its last step is done: `ANNEAL_END` follows -/
  | ended
  deriving DecidableEq, Repr

/-- A packet of a state send that is not handed over yet (R275). -/
structure AnnSend where
  dev : Nat
  /-- global index of the first spin it carries -/
  spin : Nat
  /-- global address on the peer -/
  dst : Nat
  data : List Nat
  poison : Nat
  deriving DecidableEq, Repr

/-- The running operation of an annealer. Energies are FP64 encodings. -/
structure AnnRun where
  queue : Nat
  op : Nat
  vi : Nat
  /-- the 320 bytes of the problem descriptor (R262) -/
  desc : List Nat
  stage : AnnStage
  epoch : Nat
  /-- sweeps the operation has done: the global sweep number t of R271 -/
  done : Nat
  /-- sweeps done of the epoch -/
  inEpoch : Nat
  /-- the spin file: a word per resident spin, bit r for slot r -/
  spins : List Nat
  energy : List Nat
  /-- accepted flips and exchanged pairs since the last trace entry -/
  flipsEntry : Nat
  exchEntry : Nat
  entries : Nat
  overflow : Bool
  /-- best energy with its sweep and slot (R279) -/
  best : Option (Nat × Nat × Nat)
  target : Bool
  /-- sweep points passed -/
  points : Nat
  startTread : Nat
  flips : Nat
  exchAccept : List Nat
  rounds : Nat
  /-- phase of the next arrival -/
  phase : Nat
  /-- the sweep point under way is the initial one -/
  initPoint : Bool
  /-- the bad row that the evaluation pass found (R265) -/
  problem : Option Nat
  poison : Bool
  /-- global indices of spins whose state words carry poison (R280) -/
  dirty : List Nat
  sharedPoison : Option Nat
  cause : Nat
  sends : List AnnSend
  /-- code of R188 of the first failed state packet, 0 for none -/
  sendError : Nat
  deriving DecidableEq, Repr

end Sys2Proof.Machine
end

