-- ==== Sys2Proof/Machine/TypesIc.lean ====
section
/-! DEFINITION. State of the interrupt controller (R344 to R361) beside its registers. -/

namespace Sys2Proof.Machine

/-- One source line (R346, R349): its state, the target assigned or serving it, and the target its
ROUND_ROBIN choice took last. -/
structure IcSource where
  state : SrcState
  target : Option Nat
  lastChoice : Nat
  deriving DecidableEq, Repr

/-- After reset the last choice counts as target 9 (R349). -/
def IcSource.reset : IcSource := { state := .inactive, target := none, lastChoice := 9 }

/-- An entry of an interrupt stack (R351). -/
structure IntEntry where
  pc : Nat
  bank : Nat
  level : Nat
  deriving DecidableEq, Repr

/-- The interrupt controller. -/
structure IcSt where
  sources : Tbl IcSource
  /-- notice source of each virtual interface (R358) -/
  notices : Tbl SrcState
  /-- interrupt stacks of targets 0 to 8, top first (R351) -/
  frames : Tbl (List IntEntry)
  /-- sources each target took, newest first, as long as they are ACTIVE there (`IC_TGT_CLAIM`) -/
  taken : Tbl (List Nat)
  deriving DecidableEq, Repr

def IcSt.reset : IcSt := { sources := [], notices := [], frames := [], taken := [] }

end Sys2Proof.Machine
end

