-- ==== Sys2Proof/Machine/TypesClz.lean ====
section
/-! DEFINITION. Messages and state of the Coluz ports (R362 to R395) beside the CLZ registers. -/

namespace Sys2Proof.Machine

/-- The long header of R376. -/
structure LongHdr where
  vc : Nat
  bytes : Nat
  flow : Nat
  hops : Nat
  dst : Nat
  src : Nat
  job : Nat
  counter : Nat
  addr : Nat
  poison : Nat
  afmt : Nat
  aop : Nat
  agent : Nat
  cls : Nat
  status : Nat
  volatile : Bool
  resend : Bool
  pseq : Nat
  deriving DecidableEq, Repr

/-- The messages of R376 to R378. -/
inductive LinkMsg
  | write (h : LongHdr) (data : List Nat)
  | atomic (h : LongHdr) (data : List Nat)
  | readReq (h : LongHdr)
  | readCpl (h : LongHdr) (data : List Nat)
  | ack (vc status agent hops dst pseq : Nat)
  | ascent (phase : Nat) (resend : Bool) (tree sln : Nat)
  | descent (phase : Nat) (resend : Bool) (tree sln : Nat)
  | announce (rootValid : Bool) (role priority hops rootId sender : Nat)
  | beat (frac int : Nat)
  | delayReq (exchange : Nat)
  | delayResp (exchange t2 t3 : Nat)
  | delayFollow (exchange t1 t4 : Nat)
  | reserved (mtype : Nat)
  deriving DecidableEq, Repr

/-- Port states (R364), as `CLZ_PORT_STATUS`.STATE codes them. -/
inductive PortState
  | off | detect | train | lock | init | active | recover | retired
  deriving DecidableEq, Repr

def PortState.code : PortState → Nat
  | .off => 0 | .detect => 1 | .train => 2 | .lock => 3 | .init => 4 | .active => 5 | .recover => 6
  | .retired => 7

/-- A DATA flit in the replay buffer (R369): its SEQ, the bytes of its 15 slots, CONT and WIN, and the tick
of its first resend. -/
structure TxFlit where
  seq : Nat
  slots : List Nat
  cont : Nat
  win : Bool
  firstResend : Option Nat
  deriving DecidableEq, Repr

/-- What an INIT flit says (R365). -/
structure InitInfo where
  version : Nat
  caps : Nat
  device : Nat
  port : Nat
  role : Nat
  lanes : Nat
  fresh : Bool
  rxNext : Nat
  credits : List Nat
  deriving DecidableEq, Repr

/-- A received message that no buffer beyond the port has taken yet (R382): the VC it came on, and the tick at
which its wait began. -/
structure Ingress where
  msg : LinkMsg
  vc : Nat
  since : Nat
  /-- a message of this device, which has no ingress port -/
  own : Bool
  /-- it came in a WIN flit, so its slots are the window pool's (R390) -/
  win : Bool
  deriving DecidableEq, Repr

/-- A port. -/
structure Port where
  state : PortState
  /-- tick at which the state was entered -/
  since : Nat
  /-- lanes that work: not retired, trained and locked -/
  working : Nat
  /-- lanes agreed at INIT, 0 before -/
  agreed : Nat
  role : Nat
  peer : Option InitInfo
  /-- codewords corrected on each lane since its last corrected event (R425) -/
  laneCe : List Nat
  /-- the INIT under way follows a full retrain (R372) -/
  full : Bool
  /-- INIT flits carry VERSION 0, by a shot of row 0x05 with this mark (R468) -/
  badVersion : Option Mark
  /-- successive TRAIN or LOCK failures of each lane (R429) -/
  laneFails : List Nat
  /-- INIT last received and how often in a row, unchanged -/
  lastInit : Option InitInfo
  initCount : Nat
  /-- this side's INIT carries FRESH 1 -/
  fresh : Bool
  txSeq : Nat
  unacked : List TxFlit
  /-- tick of the last ACK progress -/
  progress : Nat
  rxNext : Nat
  /-- a DATA flit has been received in order since the last FRESH -/
  rxAny : Bool
  /-- slots of a message that continues in the next DATA flit -/
  partialMsg : List Nat
  partialWin : Bool
  /-- tick of the last NAK sent while a flit is missing -/
  nakAt : Option Nat
  credits : List Nat
  /-- slots freed and not yet returned, by VC and window pool -/
  owed : List Nat
  /-- messages ready to send, by VC -/
  queues : Tbl (List LinkMsg)
  /-- flow messages that wait for their window (R389), oldest first -/
  flows : List LinkMsg
  ingress : List Ingress
  /-- window open now (R388) -/
  openWindow : Option Nat
  /-- VC of VC0 to VC5 served last (R375) -/
  lastVc : Nat
  deriving DecidableEq, Repr

def Port.reset : Port :=
  { state := .off, since := 0, working := 0, agreed := 0, role := 0, peer := none, laneCe := [],
    full := false, badVersion := none, laneFails := [], lastInit := none, initCount := 0, fresh := true, txSeq := 0, unacked := [],
    progress := 0, rxNext := 0, rxAny := false, partialMsg := [], partialWin := false, nakAt := none, credits := [],
    owed := [], queues := [], flows := [], ingress := [], openWindow := none, lastVc := 5 }

/-- A time message that has arrived, with the port's timestamp of its first bit in 1/16 tread (R37). -/
structure TimeArrival where
  port : Nat
  msg : LinkMsg
  stamp : Nat
  deriving DecidableEq, Repr

/-- The Coluz block: ports, and time messages not yet consumed. -/
structure ClzSt where
  ports : Tbl Port
  inbox : List TimeArrival
  deriving DecidableEq, Repr

def ClzSt.reset : ClzSt := { ports := [], inbox := [] }

end Sys2Proof.Machine
end

