-- ==== Sys2Proof/Machine/TypesMem.lean ====
section
/-! DEFINITION. State of the memory spaces, the copy engines, the mezzanines and the arrival counters (R178 to
R206) beside the CE and MEZ registers. -/

namespace Sys2Proof.Machine

/-- The four words of a copy request (R181). -/
structure CopyReq where
  w0 : Nat
  w1 : Nat
  w2 : Nat
  w3 : Nat
  deriving DecidableEq, Repr

/-- Whose copy it is. -/
inductive CopyOrigin
  /-- `CPY` of an alcove, with its tag -/
  | alcove (n tag : Nat)
  /-- a copy operation of a work queue -/
  | operation (queue op : Nat)
  deriving DecidableEq, Repr

/-- A packet of a copy (R185). `src` is the source global address of its first byte, `dst` its destination. -/
structure Packet where
  idx : Nat
  src : Nat
  dst : Nat
  len : Nat
  /-- payload once its source is read; bit j of `poison` marks bytes 32j to 32j + 31 -/
  data : Option (List Nat)
  poison : Nat
  /-- handed to the concourse or to a link -/
  sent : Bool
  /-- acknowledged from its destination point -/
  acked : Bool
  /-- its PSEQ when it crosses links (R432) -/
  pseq : Option Nat
  deriving DecidableEq, Repr

/-- A copy in an engine. -/
structure CopyJob where
  id : Nat
  req : CopyReq
  origin : CopyOrigin
  /-- virtual interface and partition it runs for -/
  vi : Nat
  part : Option Nat
  launch : Option Nat
  started : Bool
  packets : List Packet
  /-- code of R188 of the first failure -/
  error : Nat
  poison : Bool
  /-- record in the cause slot (R431) -/
  cause : Nat
  /-- shared region whose poison it read (R335) -/
  sharedPoison : Option Nat
  /-- bytes of the alcove store that the bundle of its `CPY` overwrites: offset, old value and old mark (R187) -/
  before : List (Nat × Nat × Bool)
  deriving DecidableEq, Repr

/-- A message over links that is not answered yet (R432). -/
structure Unanswered where
  agent : Nat
  pseq : Nat
  /-- copy it belongs to; none for an annealer's state send -/
  copy : Option Nat
  packet : Nat
  msg : LinkMsg
  lastSend : Nat
  firstResend : Option Nat
  deriving DecidableEq, Repr

/-- A copy engine. -/
structure CopyEngine where
  queue : List CopyJob
  running : Option CopyJob
  retired : Bool
  /-- ports held or asked for by a gallery-to-gallery burst (R204) -/
  burst : Option (Nat × Nat)
  refused : Option (Nat × Nat)
  deriving DecidableEq, Repr

def CopyEngine.reset : CopyEngine :=
  { queue := [], running := none, retired := false, burst := none, refused := none }

/-- Where a packet in the concourse came from. -/
inductive FlightFrom
  /-- copy engine `e`, copy `id`, packet `idx` -/
  | engine (e id idx : Nat)
  /-- a Coluz port of this device -/
  | link (port : Nat)
  /-- annealer of a hall, with the index of the send -/
  | annealer (h idx : Nat)
  /-- a message of an agent of this device that another device answers -/
  | remote (agent pseq : Nat)
  /-- narrow path of a hall: element of its gather -/
  | narrow (h idx : Nat)
  deriving DecidableEq, Repr

/-- What a packet does at its destination point. -/
inductive FlightKind
  | write
  | atomic (afmt aop : Nat)
  /-- sets an arrival counter (R199) -/
  | cset (value : Nat) (mode : Nat)
  deriving DecidableEq, Repr

/-- A packet on its way to its destination point (R189). -/
structure Flight where
  origin : FlightFrom
  kind : FlightKind
  dst : Nat
  data : List Nat
  poison : Nat
  /-- COUNTER field of R181 -/
  counter : Nat
  vi : Nat
  job : Nat
  hdr : Option LongHdr
  /-- whether the receipt filter has no room for its source (R433) -/
  waiting : Bool
  deriving DecidableEq, Repr

/-- An acknowledgement on its way back. -/
structure AckNote where
  origin : FlightFrom
  status : Nat
  deriving DecidableEq, Repr

/-- A line of a mezzanine (R192): device offset ÷ 256, its bytes and poison marks per sector. -/
structure MezLine where
  line : Nat
  bytes : List Nat
  poison : Nat
  part : Nat
  deriving DecidableEq, Repr

/-- A range of device offsets. -/
structure DRange where
  base : Nat
  bytes : Nat
  deriving DecidableEq, Repr

/-- A mezzanine invalidation in progress (R195 to R197): the hall, the partition, the ranges or everything,
and its number. -/
structure Invalidation where
  num : Nat
  halls : List Nat
  part : Option Nat
  all : Bool
  ranges : List DRange
  deriving DecidableEq, Repr

/-- An arrival counter (R198). -/
structure Counter where
  count : W64
  packets : Bool
  deriving DecidableEq, Repr

def Counter.reset : Counter := { count := 0, packets := false }

/-- Memory spaces and movement between them. -/
structure MemSt where
  /-- G-space: hall × 64 MiB + offset, to byte -/
  g : List Host.Cell
  /-- poisoned 64-byte gallery words -/
  gPoison : Tbl Bool
  engines : Tbl CopyEngine
  /-- number of the next copy -/
  nextCopy : Nat
  inflight : List Flight
  acks : List AckNote
  /-- next PSEQ of each agent -/
  pseq : Tbl Nat
  unanswered : List Unanswered
  /-- READ_REQ messages for this device that wait to be served, with their port -/
  readReqs : List LinkMsg
  readCpls : List LinkMsg
  mezz : Tbl (List MezLine)
  invals : List Invalidation
  nextInval : Nat
  /-- counter key: hall × 4,096 + index -/
  counters : Tbl Counter
  /-- engine that holds the gallery port of each hall -/
  galleryPort : Tbl (Option Nat)
  /-- halls between, from hall i to hall j, key 8i + j; an unlisted route is that of R14 (R16) -/
  routes : Tbl (List Nat)
  deriving DecidableEq, Repr

def MemSt.reset : MemSt :=
  { g := [], gPoison := [], engines := [], nextCopy := 0, inflight := [], acks := [], pseq := [],
    unanswered := [], readReqs := [], readCpls := [], mezz := [], invals := [], nextInval := 0,
    counters := [], galleryPort := [], routes := [] }

end Sys2Proof.Machine
end

