-- ==== Sys2Proof/Machine/TypesOut.lean ====
section
/-! DEFINITION. What leaves the package: messages to the host, the management bus and the links, and pulses
on pins. -/

namespace Sys2Proof.Machine

/-- What management gets as an answer (R413 to R416). -/
inductive Reply
  /-- success, with data -/
  | ok (data : List Nat)
  /-- MCTP or PLDM: the type is not supported -/
  | unsupported
  /-- a sensor without a reading -/
  | unavailable
  /-- status 0x01: the register address is not 4-byte aligned -/
  | misaligned
  /-- PLDM: already in update mode -/
  | alreadyUpdating
  /-- PLDM: the verify step failed -/
  | verifyFailed
  /-- PLDM: incompatible component -/
  | incompatible
  /-- PLDM: the command does not fit the update's state -/
  | wrongState
  deriving DecidableEq, Repr

/-- Something the package sends outward. -/
inductive Out
  /-- an MSI-X message on a package vector, as that vector's entry addresses it (R407) -/
  | msix (vector : Nat) (addr : W64) (data : W32)
  /-- a posted write to host memory for a virtual interface, with its PASID (R408) -/
  | hostWrite (v : Nat) (addr : Nat) (pasid : Option Nat) (bytes : List Nat)
  /-- a PLDM platform event message that carries the 296 bytes of a RAS record (R415, R441) -/
  | platformEvent (cper : List Nat)
  /-- a flit on a Coluz port: its 256 bytes (R367) -/
  | flit (port : Nat) (bytes : List Nat)
  /-- the completion of a BAR4 read: the bytes with whether EP is set, none for Unsupported Request (R405, R406) -/
  | bar4Data (v : Nat) (data : Option (List Nat × Bool))
  /-- the completion of an ATS Invalidate Request (R409) -/
  | atsInvalidated (v : Nat)
  /-- an answer on the management bus -/
  | reply (r : Reply)
  /-- what TDO shifts out of the register that an instruction selects (R421) -/
  | tdo (value : Nat)
  /-- a 10 µs pulse on TIME_PPS_OUT (R31) -/
  | ppsOut
  deriving DecidableEq, Repr

end Sys2Proof.Machine
end

