-- ==== Sys2Proof/Machine/TypesPart.lean ====
section
/-! DEFINITION. State of partitions and virtual interfaces (R317 to R343) beside their registers. -/

namespace Sys2Proof.Machine

/-- The spaces an allocation lies in (R327). -/
inductive AllocSpace
  | d | g | t
  deriving DecidableEq, Repr

def AllocSpace.code : AllocSpace → Nat
  | .d => 0 | .g => 1 | .t => 4

/-- An entry of the allocation table (R323): a range of one virtual interface, or a mapping of a shared
region into it (R333). `base` and `size` are a device offset and bytes in D, a gallery byte 0 to
8 × 64 MiB and bytes in G, and an object number (a landing number for landings) and objects in T, where `hall` and `kind` name the unit. -/
structure Alloc where
  vi : Nat
  space : AllocSpace
  base : Nat
  size : Nat
  hall : Nat
  kind : Nat
  half : Nat
  attr : Nat
  /-- region this entry creates or maps -/
  region : Option Nat
  /-- the entry is a mapping of that region -/
  mapping : Bool
  /-- an UNMAP_MEMORY waits or its wipe is under way (R328) -/
  unmapping : Bool
  deriving DecidableEq, Repr

/-- A shared region (R333). -/
structure Region where
  num : Nat
  base : Nat
  size : Nat
  partition : Nat
  quarantined : Bool
  /-- record of its quarantine (R440) -/
  record : Nat
  deriving DecidableEq, Repr

/-- A stored profile as applied (R338). -/
structure Profile where
  clockMhz : List Nat
  boardW : Nat
  hallW : Nat
  timeRole : Nat
  timePriority : Nat
  timeFlags : Nat
  vi0Part : Nat
  /-- per half-hall: its partition, none when unassigned -/
  layout : List (Option Nat)
  annealerHalf : Nat
  locals : List Nat
  /-- per port: 0 off, 1 link, 2 sync only -/
  portRole : List Nat
  /-- bytes of the THRESHOLDS field (R427) -/
  thresholds : List Nat
  deriving DecidableEq, Repr

/-- Before a profile is applied no half-hall is assigned. -/
def Profile.none : Profile :=
  { clockMhz := [], boardW := 0, hallW := 0, timeRole := 0, timePriority := 0, timeFlags := 0,
    vi0Part := 0, layout := [], annealerHalf := 0, locals := [], portRole := [], thresholds := [] }

/-- Partitions and virtual interfaces. -/
structure PartSt where
  /-- the profile in effect -/
  profile : Profile
  allocs : List Alloc
  regions : List Region
  /-- functions the host has enabled, VI0 apart (R321) -/
  vfEnable : Bool
  numVfs : Nat
  /-- partition of each bound virtual interface -/
  bound : Tbl (Option Nat)
  /-- virtual interfaces being reset -/
  resetting : List Nat
  /-- alcove numbers a spare serves, with the spare's hall and half-hall number (R19) -/
  spares : Tbl (Option Nat)
  deriving DecidableEq, Repr

def PartSt.reset : PartSt :=
  { profile := .none, allocs := [], regions := [], vfEnable := false, numVfs := 0, bound := [],
    resetting := [], spares := [] }

end Sys2Proof.Machine
end

