-- ==== Sys2Proof/Machine/TypesPwr.lean ====
section
/-! DEFINITION. State of package power, clocks and pins (R493 to R514) beside the PWR registers. -/

namespace Sys2Proof.Machine

/-- The caps and the clock of one hall (R504 to R508); clocks in MHz. -/
structure HallPower where
  /-- running clock; 0 while unpowered -/
  running : Nat
  hallCap : Nat
  thermalCap : Nat
  /-- cap that THROTTLE_N holds or that glides back after its release (R506) -/
  pinCap : Nat
  step : Nat
  temp : Int
  /-- tick at which the step was entered or the thermal cap last moved -/
  moved : Nat
  /-- core-rail voltage in mV and power in W at the last AVSBus read -/
  mv : Nat
  watts : Nat
  powered : Bool
  deriving DecidableEq, Repr

def HallPower.reset : HallPower :=
  { running := 0, hallCap := 0, thermalCap := 0, pinCap := 0, step := 0, temp := 0, moved := 0, mv := 0, watts := 0,
    powered := false }

/-- The input pins (R495). -/
structure Pins where
  pwrOk : Bool
  perstN : Bool
  throttleN : Bool
  /-- PROFILE[1:0], MGT_ADDR[1:0] and TIME_REF_SEL as the board drives them (R496) -/
  strapProfile : Nat
  strapMgtAddr : Nat
  strapRefSel : Nat
  deriving DecidableEq, Repr

/-- Power, clocks and output pins. -/
structure PwrSt where
  pins : Pins
  /-- straps as sampled at boot step 1 (R496) -/
  profile : Nat
  mgtAddr : Nat
  refSel : Nat
  halls : Tbl HallPower
  boardCap : Nat
  /-- evaluations in a row with board_cap at 1,000 MHz and P over BOARD_W (R505) -/
  floorRun : Nat
  seqEn : Bool
  /-- THERM_TRIP_N is driven low (R509) -/
  tripped : Bool
  /-- stack temperatures in °C (R507) -/
  stackTemp : Tbl Int
  /-- rails that report a latched fault, one bit each (R511) -/
  latchedFaults : Nat
  deriving DecidableEq, Repr

def Pins.reset : Pins :=
  { pwrOk := true, perstN := true, throttleN := true, strapProfile := 0, strapMgtAddr := 0,
    strapRefSel := 0 }

def PwrSt.reset : PwrSt :=
  { pins := .reset, profile := 0, mgtAddr := 0, refSel := 0, halls := [], boardCap := 0, floorRun := 0,
    seqEn := false, tripped := false, stackTemp := [], latchedFaults := 0 }

end Sys2Proof.Machine
end

