-- ==== Sys2Proof/Machine/TypesRas.lean ====
section
/-! DEFINITION. State of fault handling (R424 to R445) beside the RAS registers. -/

namespace Sys2Proof.Machine

/-- The classes of a detector event (R425). -/
inductive EventClass
  | ce | tue | pue
  deriving DecidableEq, Repr

/-- The fields of a RAS record's Llynio section that differ between records (R441). -/
structure RasRecord where
  kind : Nat
  detector : Nat
  recordId : Nat
  rootId : Nat
  flags : Nat
  deviceId : Nat
  channel : Nat
  partition : Nat
  vi : Nat
  tread : Nat
  queue : Nat
  opIndex : Nat
  level : Nat
  omitted : Nat
  /-- 16 bytes (R442) -/
  location : List Nat
  /-- 32 bytes (R442) -/
  signature : List Nat
  deriving DecidableEq, Repr

/-- What folding keeps for one channel and record kind (R444): the tick of the last record, the events
folded since, and that record's ID. -/
structure FoldEntry where
  lastTick : Nat
  omitted : Nat
  recordId : Nat
  deriving DecidableEq, Repr

/-- An entry of a receipt filter (R433): 4,096 bits from BASE, bit i of `map` for PSEQ BASE + i. -/
structure FilterEntry where
  srcDev : Nat
  srcAgent : Nat
  base : Nat
  map : Nat
  lastTick : Nat
  deriving DecidableEq, Repr

/-- A retirement that is owed (R429): its channel, the tick, whether a hard signature makes it, whether a
`RAS_RETIRE` command named it, and the record it follows from, 0 for none. -/
structure OwedRetire where
  channel : Nat
  since : Nat
  hard : Bool
  commanded : Bool
  rootId : Nat
  detector : Nat
  injected : Bool
  deriving DecidableEq, Repr

/-- Fault handling. -/
structure RasSt where
  /-- ID of the newest record (R441), loaded from the store -/
  lastId : Nat
  /-- records written and not yet in the flash store (R444), oldest first -/
  unstored : List RasRecord
  /-- the record store: slot number to record (R444) -/
  store : Tbl (Option RasRecord)
  /-- next slot of the ring -/
  nextSlot : Nat
  /-- by channel × 256 + kind -/
  folds : Tbl (Option FoldEntry)
  /-- retirements owed (R429), oldest first -/
  owed : List OwedRetire
  /-- tick of the last leak of each channel kind (R426) -/
  leakAt : Tbl Nat
  /-- receipt filters of the eight slices (R433) -/
  filters : Tbl (List FilterEntry)
  deriving DecidableEq, Repr

/-- A record with every field at its value for "none". -/
def RasRecord.blank : RasRecord :=
  { kind := 0, detector := 0, recordId := 0, rootId := 0, flags := 0, deviceId := 0, channel := 0xFFFF,
    partition := 0xFF, vi := 0, tread := 0, queue := 0xFFFF, opIndex := 0xFFFF, level := 0, omitted := 0,
    location := [], signature := [] }

def RasSt.reset : RasSt :=
  { lastId := 0, unstored := [], store := [], nextSlot := 0, folds := [], owed := [],
    leakAt := [], filters := [] }

end Sys2Proof.Machine
end

