-- ==== Sys2Proof/Machine/TypesSync.lean ====
section
/-! DEFINITION. State of the landing units and the stairwell (R235 to R258, R526) beside the SYNC registers. -/

namespace Sys2Proof.Machine

/-- Who waits at an object. -/
inductive Party
  | alcove (n : Nat)
  | hallController (h : Nat)
  /-- operation `op` of work queue `q` -/
  | operation (q op : Nat)
  | annealer (h : Nat)
  deriving DecidableEq, Repr

/-- A place in a waiter list (R239). -/
structure Waiter where
  agent : Nat
  party : Party
  count : Nat
  deriving DecidableEq, Repr

/-- A token queue. -/
structure TokenQ where
  valid : Bool
  limit : Nat
  value : Nat
  anchored : Bool
  anchor : Nat
  anchorTokens : Nat
  overflows : Nat
  waiters : List Waiter
  deriving DecidableEq, Repr

def TokenQ.reset : TokenQ :=
  { valid := false, limit := 0, value := 0, anchored := false, anchor := 0, anchorTokens := 0,
    overflows := 0, waiters := [] }

/-- How an unreleased arrival counts (R241, R242). -/
inductive ArrivalKind
  | counted | held | excess
  deriving DecidableEq, Repr

/-- An arrival-table entry (R245). -/
structure Arrival where
  agent : Nat
  phase : Nat
  kind : ArrivalKind
  deriving DecidableEq, Repr

/-- A waiter of a landing (R244). -/
structure LandWaiter where
  agent : Nat
  party : Party
  phase : Nat
  deriving DecidableEq, Repr

/-- A landing: its record of R258 and its generation under way. -/
structure Landing where
  valid : Bool
  system : Bool
  timed : Bool
  slackIrq : Bool
  tree : Nat
  count : Nat
  sln : Nat
  releaseNext : Nat
  period : Nat
  slackWarn : Int
  stall : Nat
  generation : Nat
  phase : Nat
  lastAgent : Nat
  slack : Int
  minSlack : Int
  spread : Nat
  doubles : Nat
  lateReleases : Nat
  arrivals : List Arrival
  waiters : List LandWaiter
  /-- the local count is complete, and an ascent is sent where one is due -/
  localDone : Bool
  /-- tread of the completion of the generation -/
  completed : Option Nat
  /-- R48 decided the generation LATE -/
  late : Bool
  firstTread : Option Nat
  lastTread : Nat
  /-- STALL is reported for this generation -/
  stalled : Bool
  /-- PERIOD 0 and released once: untimed until RELEASE_NEXT changes (R246) -/
  spent : Bool
  deriving DecidableEq, Repr

def Landing.reset : Landing :=
  { valid := false, system := false, timed := false, slackIrq := false, tree := 0, count := 0, sln := 0,
    releaseNext := 0, period := 0, slackWarn := 0, stall := 0, generation := 0, phase := 0, lastAgent := 0,
    slack := 0, minSlack := 0, spread := 0, doubles := 0, lateReleases := 0, arrivals := [], waiters := [],
    localDone := false, completed := none, late := false, firstTread := none, lastTread := 0, stalled := false,
    spent := false }

/-- A stairwell tree entry (R251). -/
structure Tree where
  valid : Bool
  parentValid : Bool
  parentPort : Nat
  childMask : Nat
  deriving DecidableEq, Repr

def Tree.reset : Tree := { valid := false, parentValid := false, parentPort := 0, childMask := 0 }

/-- An SLN map entry (R251, R258). -/
structure SlnEntry where
  valid : Bool
  hall : Nat
  landing : Nat
  deriving DecidableEq, Repr

def SlnEntry.reset : SlnEntry := { valid := false, hall := 0, landing := 0 }

/-- An operation on its way to a landing unit (R237). -/
inductive SyncOp
  | signal (hall idx agent count : Nat)
  | wait (hall idx agent count : Nat) (party : Party)
  /-- the answer goes to predicate `dst` of the party -/
  | try (hall idx agent count : Nat) (party : Party) (dst : Nat)
  | arrive (hall idx agent phase : Nat)
  | landWait (hall idx agent phase : Nat) (party : Party)
  | ascent (port phase : Nat) (resend : Bool) (tree sln : Nat)
  | descent (port phase : Nat) (resend : Bool) (tree sln : Nat)
  deriving DecidableEq, Repr

/-- Landing units and stairwell. Objects have the key hall × 4,096 + index. -/
structure SyncSt where
  queues : Tbl TokenQ
  landings : Tbl Landing
  trees : Tbl Tree
  slns : Tbl SlnEntry
  /-- operations on their way, in order of issue -/
  net : List SyncOp
  deriving DecidableEq, Repr

def SyncSt.reset : SyncSt := { queues := [], landings := [], trees := [], slns := [], net := [] }

end Sys2Proof.Machine
end

