-- ==== Sys2Proof/Machine/TypesTime.lean ====
section
/-! DEFINITION. State of the stair-time block (R24 to R50) beside its registers. -/

namespace Sys2Proof.Machine

/-- One replica (R25). Its count is `base` up to tick `since`, and grows by `inc` a tick from there; a count is
a fixed-point number of treads with 24 fraction bits. A `since` that lies ahead is a hold at increment zero
(R26). -/
structure Replica where
  base : Nat
  since : Nat
  inc : Nat
  /-- frequency correction, in 2^-24 of nominal (R35) -/
  freq : Int
  /-- filtered offset, in 1/16 tread -/
  filt : Int
  state : TimeState
  /-- beats in a row within 0.25 tread -/
  good : Nat
  /-- beats in a row over 1 tread while LOCKED -/
  bad : Nat
  /-- tick of the last beat -/
  beatAt : Nat
  /-- has left LOCKED and is not LOCKED again (R36) -/
  left : Bool
  deriving DecidableEq, Repr

/-- A replica that counts on the local reference from cold reset (R24). -/
def Replica.free : Replica :=
  { base := 0, since := 0, inc := 2 ^ 24, freq := 0, filt := 0, state := .free, good := 0, bad := 0,
    beatAt := 0, left := false }

/-- A root as an announcement names it (R27). -/
structure RootInfo where
  id : Nat
  configured : Bool
  priority : Nat
  deriving DecidableEq, Repr

/-- What a device last heard on a port (R27, R29): the root and hop count announced, and the tick. -/
structure PortAnnounce where
  root : RootInfo
  hops : Nat
  heard : Nat
  deriving DecidableEq, Repr

/-- A link's four-timestamp exchange and its results (R37, R386); times in 1/16 tread. -/
structure DelayExch where
  /-- number of the exchange under way, mod 256 -/
  num : Nat
  /-- an exchange is under way -/
  awaiting : Bool
  t1 : Option Nat
  t2 : Option Nat
  t3 : Option Nat
  t4 : Option Nat
  /-- tick at which the exchange under way began -/
  began : Nat
  /-- delays of the last eight completed exchanges, newest first -/
  last : List Int
  /-- exchanges completed since bring-up or degrade -/
  done : Nat
  /-- last offset of the downstream side -/
  offset : Int
  /-- no beats cross the port until eight exchanges complete (R37) -/
  quiet : Bool
  deriving DecidableEq, Repr

def DelayExch.empty : DelayExch :=
  { num := 0, awaiting := false, t1 := none, t2 := none, t3 := none, t4 := none, began := 0, last := [],
    done := 0, offset := 0, quiet := false }

/-- A beat on a spur or on a bridge time path (R33): the island it goes to, and the sender's count. -/
structure Beat where
  dest : Nat
  sent : Nat
  deriving DecidableEq, Repr

/-- The PPS input as a root sees it (R30). -/
inductive PpsWait
  | idle
  /-- the root is LOCKED since this tick and waits for the first edge -/
  | waiting (since : Nat)
  deriving DecidableEq, Repr

/-- Stair time (R24 to R50). -/
structure TimeSt where
  /-- ticks since cold reset: one tick is one tread of the local reference -/
  tick : Nat
  /-- replicas that differ from one counting freely since cold reset, by `Island.key` -/
  replicas : Tbl Replica
  /-- a domain count exists (R30) -/
  counting : Bool
  pps : PpsWait
  /-- tick of the last TIME_PPS_IN edge -/
  ppsSeen : Option Nat
  refPresent : Bool
  /-- the root lost a TIME_REF_IN it was locked to (R38) -/
  rootHoldover : Bool
  /-- the root this device follows, none in FREE (R27) -/
  root : Option RootInfo
  hops : Nat
  upstream : Option Nat
  /-- tick at which the upstream path or the root was lost (R29) -/
  lostAt : Option Nat
  announces : Tbl (Option PortAnnounce)
  exchanges : Tbl DelayExch
  /-- measured delay of each spur, in 1/16 tread, by `Island.key` (R34) -/
  spurDelay : Tbl Nat
  /-- measured delay of each bridge time path from the master's slice, in 1/16 tread (R34) -/
  bridgeDelay : Tbl Nat
  /-- `TIME_NOW_HI` latches, by `Agent.latch` (R519) -/
  nowHi : Tbl W32
  /-- beats on their way, oldest first -/
  beats : List Beat
  deriving DecidableEq, Repr

def TimeSt.reset : TimeSt :=
  { tick := 0, replicas := [], counting := false, pps := .idle, ppsSeen := none, refPresent := false,
    rootHoldover := false, root := none, hops := 0, upstream := none, lostAt := none, announces := [],
    exchanges := [], spurDelay := [], bridgeDelay := [], nowHi := [], beats := [] }

end Sys2Proof.Machine
end

