-- ==== Sys2Proof/Machine/TypesVst.lean ====
section
/-! DEFINITION. State of the vestibule (R283 to R316) beside the VST and POOL registers. -/

namespace Sys2Proof.Machine

/-- What an admin command waits for before it completes. -/
inductive AdminWait
  /-- launched operations of a queue, then STOP_QUEUE completes (R289) -/
  | stop (ring : Nat)
  | destroy (ring : Nat)
  /-- operations dispatched before an UNMAP_MEMORY of an allocation, then its wipe (R328) -/
  | unmapOps (ops : List (Nat × Nat)) (alloc : Alloc)
  | unmapWipe (num : Nat) (alloc : Alloc)
  /-- the verifying read of a region (R336) -/
  | verify (region : Nat)
  /-- both copies of the retired-page entry at an index (R419), with its sequence number -/
  | flash (index seq : Nat)
  deriving DecidableEq, Repr

/-- The admin queue of a virtual interface (R285). -/
structure AdminQ where
  /-- submission entries consumed, mod 2^32 -/
  consumed : Nat
  /-- doorbell record last read -/
  tail : Nat
  /-- completion entries written -/
  written : Nat
  /-- head record last read -/
  head : Nat
  /-- the 64-byte entry being processed -/
  current : Option (List Nat)
  wait : Option AdminWait
  /-- a completion entry that waits for room: CID, status, detail, result -/
  stalled : Option (Nat × Nat × Nat × Nat)
  /-- stopped on a malformed doorbell record or a failed access (R410) -/
  stopped : Bool
  /-- tick of the last polled read (R291) -/
  polled : Nat
  deriving DecidableEq, Repr

def AdminQ.reset : AdminQ :=
  { consumed := 0, tail := 0, written := 0, head := 0, current := none, wait := none, stalled := none,
    stopped := false, polled := 0 }

/-- The states of a work queue (R284). -/
inductive QueueState
  | active | stoppedFault | stoppedAdmin
  deriving DecidableEq, Repr

def QueueState.code : QueueState → Nat
  | .active => 1 | .stoppedFault => 2 | .stoppedAdmin => 3

/-- The states of an operation. -/
inductive OpState
  | waitPred | waitSync | ready | dispatched | running | paused | complete
  deriving DecidableEq, Repr

/-- A sync list entry (R299). -/
structure SyncEntry where
  kind : Nat
  handle : Nat
  value : Nat
  deriving DecidableEq, Repr

/-- A range list entry (R300): kind 0 written, 1 input, 2 receive. -/
structure RangeEntry where
  base : Nat
  bytes : Nat
  kind : Nat
  deriving DecidableEq, Repr

/-- How a wait of an operation stands. -/
inductive WaitState
  | idle | asked | met
  deriving DecidableEq, Repr

/-- A rank of a kernel: the alcove that runs it, and whether it is loaded, has reported, was retired, or is
saved in the slot at the given D-space offset. -/
structure Rank where
  alcove : Nat
  loaded : Bool
  reported : Bool
  retired : Bool
  saved : Option Nat
  /-- END has been executed, so it needs no save (R303) -/
  ended : Bool
  deriving DecidableEq, Repr

/-- An operation of the buffer that a queue runs. -/
structure Operation where
  idx : Nat
  typ : Nat
  timed : Bool
  report : Bool
  pausable : Bool
  preds : List Nat
  syncs : List SyncEntry
  ranges : List RangeEntry
  launchTread : Nat
  /-- bytes 0x20 to 0x7F -/
  body : List Nat
  /-- g1 to g15 of a kernel, 120 bytes; the 320-byte descriptor of an anneal operation -/
  extra : List Nat
  state : OpState
  /-- one per sync entry -/
  waits : List WaitState
  /-- invalidations it waits for, by number -/
  invals : List Nat
  received : Bool
  /-- held by a quarantine (R300), now or before -/
  held : Bool
  wasHeld : Bool
  ranks : List Rank
  armed : Bool
  launched : Bool
  engineDone : Bool
  pauseWanted : Bool
  status : Nat
  detail : Nat
  flags : Nat
  deficit : Nat
  launch : Nat
  stop : Nat
  fstat : Nat
  chk : Nat
  ras : Nat
  fault : Nat
  lost : List (Nat × Nat × Nat)
  retiredCount : Nat
  pauses : Nat
  /-- record in the cause slot (R431) -/
  cause : Nat
  sharedPoison : Option Nat
  sweepPoints : Nat
  /-- code and tag of the first failed copy of a kernel (R188) -/
  copyFault : Option (Nat × Nat)
  /-- treads on the wait and run clocks (R307) -/
  waitClock : Nat
  runClock : Nat
  deriving DecidableEq, Repr

/-- The command buffer a queue runs (R295). -/
structure Buffer where
  base : Nat
  bytes : Nat
  tag : Nat
  reportAll : Bool
  ops : List Operation
  /-- status and detail of its first stopping operation -/
  stopStatus : Nat
  stopDetail : Nat
  deriving DecidableEq, Repr

/-- A work queue (R283, R288). -/
structure WorkQ where
  vi : Nat
  ring : Nat
  prio : Nat
  cqHost : Bool
  hall : Nat
  log2 : Nat
  timeoutUs : Nat
  ringBase : Nat
  tailRecord : Nat
  cqBase : Nat
  cqLog2 : Nat
  msix : Nat
  pauseLeadUs : Nat
  notifyTq : Nat
  saveBase : Nat
  saveBytes : Nat
  fence : Nat
  state : QueueState
  consumed : Nat
  tail : Nat
  buffer : Option Buffer
  /-- completion slots written, and the consumer's head record last read -/
  cqWritten : Nat
  cqHead : Nat
  /-- records that wait for room, oldest first: their bytes, and whether a message follows -/
  waiting : List (List Nat × Bool)
  /-- save slots in use: operation, rank, device offset and bytes (R304) -/
  slots : List (Nat × Nat × Nat × Nat)
  /-- a doorbell or a token has named the ring since its tail record was read -/
  notified : Bool
  /-- host access of its ring failed: later records are not written (R410) -/
  mute : Bool
  deriving DecidableEq, Repr

/-- An image an alcove holds (R302): tag, address, bytes, bundle and virtual interface. -/
structure LoadedImage where
  tag : Nat
  addr : Nat
  bytes : Nat
  bundle : Nat
  vi : Nat
  deriving DecidableEq, Repr

/-- A claim of R303: the claiming operation and its victims, as queue and operation. -/
structure Claim where
  queue : Nat
  op : Nat
  victims : List (Nat × Nat)
  deriving DecidableEq, Repr

/-- A buffer pool (R313). -/
structure Pool where
  valid : Bool
  blockLog2 : Nat
  count : Nat
  base : Nat
  tags : Nat
  stack : Nat
  free : Nat
  granted : List Nat
  deriving DecidableEq, Repr

def Pool.reset : Pool :=
  { valid := false, blockLog2 := 0, count := 0, base := 0, tags := 0, stack := 0, free := 0, granted := [] }

/-- The vestibule. -/
structure VstSt where
  admin : Tbl AdminQ
  /-- work queues by package queue number -/
  queues : Tbl (Option WorkQ)
  pools : Tbl Pool
  claims : List Claim
  images : Tbl (Option LoadedImage)
  deriving DecidableEq, Repr

def VstSt.reset : VstSt := { admin := [], queues := [], pools := [], claims := [], images := [] }

end Sys2Proof.Machine
end

