-- ==== Sys2Proof/Machine/State.lean ====
section
/-! DEFINITION. The state of the Paliz as plain data, its faults and refusals, and the state after reset. -/

namespace Sys2Proof.Machine

/-- Reasons a command faults. -/
inductive Fault
  /-- raised by nothing in this model: every command answers a next state (safe) -/
  | none
  deriving DecidableEq, Repr

/-- Reasons a command is refused. -/
inductive Refusal
  /-- raised by an arm of `exec` whose command has no meaning yet; safe -/
  | notModelled (mnemonic : String)
  deriving DecidableEq, Repr

/-- The state of the block. -/
structure State where
  /-- commands that wait, first in first out -/
  pending : List Instr
  /-- order code (R1) -/
  order : OrderCode
  /-- package registers that differ from their reset values, by package register address (R515) -/
  regs : Tbl W32
  /-- value the last register read returned; an 8-byte read returns two registers -/
  readData : W64
  time : TimeSt
  ic : IcSt
  ras : RasSt
  pwr : PwrSt
  part : PartSt
  host : HostSt
  boot : BootSt
  clz : ClzSt
  mem : MemSt
  hbm : HbmSt
  sync : SyncSt
  vst : VstSt
  inj : InjSt
  /-- the operation each hall's annealer runs -/
  ann : Tbl (Option AnnRun)
  sdc : SdcSt
  alcoves : Tbl Alcove
  /-- hall controllers 0 to 7; the PMC is 8 -/
  hcs : Tbl HallCtl
  /-- what the package has sent outward, newest first -/
  out : List Out
  /-- the number of free values drawn so far; the model's own field -/
  drawn : Nat
  deriving DecidableEq, Repr

/-- The state after cold reset is released, before boot step 1 (R471, R479, R524). -/
def State.reset : State :=
  { pending := [], order := .l, regs := [], readData := 0, time := .reset, ic := .reset, ras := .reset,
    pwr := .reset, part := .reset, host := .reset, boot := .init, clz := .reset, mem := .reset,
    hbm := .reset, sync := .reset, vst := .reset, inj := .reset, ann := [], sdc := .reset, alcoves := [], hcs := [], out := [],
    drawn := 0 }

/-- The operation that the annealer of hall `h` runs. -/
def State.annRun (s : State) (h : Nat) : Option AnnRun := tget none s.ann h

/-- `s` with the annealer of hall `h` as given. -/
def State.setAnn (s : State) (h : Nat) (x : Option AnnRun) : State :=
  { s with ann := tset none s.ann h x }

/-- Changes the running operation of an annealer. -/
def State.onAnn (s : State) (h : Nat) (f : AnnRun → AnnRun) : State := s.setAnn h ((s.annRun h).map f)

/-- Alcove `n`. -/
def State.alcove (s : State) (n : Nat) : Alcove := tget .reset s.alcoves n

/-- `s` with alcove `n` as given. -/
def State.setAlcove (s : State) (n : Nat) (a : Alcove) : State :=
  { s with alcoves := tset .reset s.alcoves n a }

/-- Hall controller `h`, or the PMC for 8. -/
def State.hc (s : State) (h : Nat) : HallCtl := tget .reset s.hcs h

/-- `s` with hall controller `h` as given. -/
def State.setHc (s : State) (h : Nat) (c : HallCtl) : State :=
  { s with hcs := tset .reset s.hcs h c }

/-! Changes of one block's state. -/

def State.onTime (s : State) (f : TimeSt → TimeSt) : State := { s with time := f s.time }
def State.onIc (s : State) (f : IcSt → IcSt) : State := { s with ic := f s.ic }
def State.onRas (s : State) (f : RasSt → RasSt) : State := { s with ras := f s.ras }
def State.onPwr (s : State) (f : PwrSt → PwrSt) : State := { s with pwr := f s.pwr }
def State.onPart (s : State) (f : PartSt → PartSt) : State := { s with part := f s.part }
def State.onHost (s : State) (f : HostSt → HostSt) : State := { s with host := f s.host }
def State.onBoot (s : State) (f : BootSt → BootSt) : State := { s with boot := f s.boot }
def State.onClz (s : State) (f : ClzSt → ClzSt) : State := { s with clz := f s.clz }
def State.onMem (s : State) (f : MemSt → MemSt) : State := { s with mem := f s.mem }
def State.onHbm (s : State) (f : HbmSt → HbmSt) : State := { s with hbm := f s.hbm }
def State.onSync (s : State) (f : SyncSt → SyncSt) : State := { s with sync := f s.sync }
def State.onInj (s : State) (f : InjSt → InjSt) : State := { s with inj := f s.inj }
def State.onSdc (s : State) (f : SdcSt → SdcSt) : State := { s with sdc := f s.sdc }
def State.onVst (s : State) (f : VstSt → VstSt) : State := { s with vst := f s.vst }

/-- Changes alcove `n`. -/
def State.onAlcove (s : State) (n : Nat) (f : Alcove → Alcove) : State := s.setAlcove n (f (s.alcove n))

/-- Changes hall controller `h`, or the PMC for 8. -/
def State.onHc (s : State) (h : Nat) (f : HallCtl → HallCtl) : State := s.setHc h (f (s.hc h))

/-- Port `p` of Coluz. -/
def State.port (s : State) (p : Nat) : Port := tget .reset s.clz.ports p

/-- `s` with port `p` as given. -/
def State.setPort (s : State) (p : Nat) (x : Port) : State :=
  s.onClz fun c => { c with ports := tset .reset c.ports p x }

/-- Changes port `p`. -/
def State.onPort (s : State) (p : Nat) (f : Port → Port) : State := s.setPort p (f (s.port p))

/-- Makes a message ready to send on port `p` in virtual channel `vc`. -/
def State.sendLink (s : State) (p vc : Nat) (m : LinkMsg) : State :=
  s.onPort p fun x => { x with queues := tset [] x.queues vc (tget [] x.queues vc ++ [m]) }

/-- Records that the package sends `o`. -/
def State.emit (s : State) (o : Out) : State := { s with out := o :: s.out }

end Sys2Proof.Machine
end

