-- ==== Sys2Proof/Machine/Regs.lean ====
section
/-! DEFINITION. Package registers: addresses (R516), stored values, fields, and the hardware updates of a
field that set bits, count and log. -/

namespace Sys2Proof.Machine

/-- The package register address of instance `i` of register `r` in window `w`. -/
def Reg.addr (r : Reg) (w : Nat := 0) (i : Nat := 0) : Nat :=
  r.row.base + w * r.row.winStride + i * r.row.stride

/-- The register at a package register address, with its window and instance (R516). -/
def regAt (a : Nat) : Option (Reg × Nat × Nat) :=
  allRegs.findSome? fun r =>
    let x := r.row
    let w := if x.windows = 1 then 0 else (a - x.base) / x.winStride
    let o := a - x.base - w * x.winStride
    let i := if x.count = 1 then 0 else o / x.stride
    if x.base ≤ a && w < x.windows && i < x.count && r.addr w i == a then some (r, w, i) else none

/-- The value of field `f` in register value `v`. -/
def Fld.of (f : Fld) (v : Nat) : Nat := bits v f.hi f.lo

/-- Register value `v` with field `f` made `x`. -/
def Fld.put (f : Fld) (v x : Nat) : Nat := putBits v f.hi f.lo x

/-- The largest value of a field. -/
def Fld.max (f : Fld) : Nat := 2 ^ (f.hi + 1 - f.lo) - 1

/-- The reset value of a register, from its fields. -/
def Reg.resetVal (r : Reg) : Nat := r.fields.foldl (fun a f => f.put a f.reset) 0

/-- The stored value of a register. -/
def State.reg (s : State) (r : Reg) (w : Nat := 0) (i : Nat := 0) : Nat :=
  (tget (BitVec.ofNat 32 r.resetVal) s.regs (r.addr w i)).toNat

/-- `s` with a register's stored value replaced. -/
def State.setReg (s : State) (r : Reg) (w i : Nat) (x : Nat) : State :=
  { s with regs := tset (BitVec.ofNat 32 r.resetVal) s.regs (r.addr w i) (BitVec.ofNat 32 x) }

/-- The stored value of a field. -/
def State.fld (s : State) (f : Fld) (w : Nat := 0) (i : Nat := 0) : Nat := f.of (s.reg f.reg w i)

/-- `s` with a field's stored value replaced; the value is cut to the field's width. -/
def State.setFld (s : State) (f : Fld) (x : Nat) (w : Nat := 0) (i : Nat := 0) : State :=
  s.setReg f.reg w i (f.put (s.reg f.reg w i) x)

/-- Counts `n` events in a field that saturates (R10). -/
def State.addFld (s : State) (f : Fld) (n : Nat) (w : Nat := 0) (i : Nat := 0) : State :=
  s.setFld f (min f.max (s.fld f w i + n)) w i

/-- Counts `n` events in a field that wraps. -/
def State.wrapFld (s : State) (f : Fld) (n : Nat) (w : Nat := 0) (i : Nat := 0) : State :=
  s.setFld f (s.fld f w i + n) w i

/-- Returns a register to its reset value. -/
def State.clearReg (s : State) (r : Reg) (w : Nat := 0) (i : Nat := 0) : State :=
  s.setReg r w i r.resetVal

/-- Logs an event in a register with VALID and OVERRUN: the first is kept (VALID at `valid`, OVERRUN at
`past`, the rest of the register from `fields`). -/
def State.logFirst (s : State) (valid past : Fld) (w i : Nat) (fields : List (Fld × Nat)) : State :=
  if s.fld valid w i = 1 then s.setFld past 1 w i
  else fields.foldl (fun s p => s.setFld p.1 p.2 w i) (s.setFld valid 1 w i)

end Sys2Proof.Machine
end

