-- ==== Sys2Proof/Machine/Clock.lean ====
section
/-! DEFINITION. Reading stair time (R24 to R26, R36, R49): replica counts, the package time master, and the
device's time state. -/

namespace Sys2Proof.Machine

/-- One tread of a replica's fixed-point count. -/
def treadUnit : Nat := 2 ^ 24

/-- A replica's count at a tick, in fixed point. -/
def Replica.at (r : Replica) (tick : Nat) : Nat := r.base + (tick - r.since) * r.inc

/-- The replica with key `k` (see `Island.key`). -/
def State.replica (s : State) (k : Nat) : Replica := tget .free s.time.replicas k

/-- A replica's count now, in fixed point. -/
def State.count (s : State) (k : Nat) : Nat := (s.replica k).at s.time.tick

/-- A replica's integer part now (R25). -/
def State.now (s : State) (k : Nat) : Nat := s.count k / treadUnit % 2 ^ 64

/-- A replica's timestamp now, in 1/16 tread (R25). -/
def State.stamp (s : State) (k : Nat) : Nat := s.count k / 2 ^ 20

/-- The key of the package time master (R33): the slice of H0 in a root or where nothing is followed, else
that of the hall that owns the upstream port. -/
def State.master (s : State) : Nat :=
  match s.time.upstream with
  | some p => p / 8
  | none => 0

/-- The package time master's replica integer. -/
def State.masterNow (s : State) : Nat := s.now s.master

/-- This device's ID (R491). -/
def State.deviceId (s : State) : Nat := s.boot.record.deviceId

/-- Whether the vestibule accepts admin commands (R479): the boot has completed and no warm reset is in progress. -/
def State.inService (s : State) : Bool := s.boot.step == 9 && !(s.boot.resets.any fun r => r.kind == .warm)

/-- Whether this device is its domain's root. -/
def State.isRoot (s : State) : Bool :=
  match s.time.root with
  | some r => r.id == s.deviceId
  | none => false

/-- The device's time state (R36). -/
def State.timeState (s : State) : TimeState :=
  let m := (s.replica s.master).state
  if m = .locked && s.time.replicas.any (fun p => p.2.left) then .acquire else m

def TimeState.code : TimeState → Nat
  | .free => 0 | .acquire => 1 | .locked => 2 | .holdover => 3

end Sys2Proof.Machine
end

