-- ==== Sys2Proof/Machine/Flit.lean ====
section
/-! DEFINITION. Flits and the messages in their slots (R367, R368, R376 to R378). -/

namespace Sys2Proof.Machine

/-! ## CRC-32 (IEEE 802.3) -/

/-- One bit of the reflected CRC. -/
def crcBit (c : Nat) : Nat := if c % 2 = 1 then c / 2 ^^^ 0xEDB88320 else c / 2

/-- One byte. -/
def crcByte (c b : Nat) : Nat :=
  crcBit (crcBit (crcBit (crcBit (crcBit (crcBit (crcBit (crcBit (c ^^^ b % 256))))))))

/-- CRC-32 of some bytes. -/
def crc32 (l : List Nat) : Nat := l.foldl crcByte 0xFFFFFFFF ^^^ 0xFFFFFFFF

/-! ## Messages as slots -/

def LinkMsg.mtype : LinkMsg → Nat
  | .write .. => 1 | .atomic .. => 2 | .readReq .. => 3 | .readCpl .. => 4 | .ack .. => 5
  | .ascent .. => 6 | .descent .. => 7 | .announce .. => 8 | .beat .. => 9 | .delayReq .. => 10
  | .delayResp .. => 11 | .delayFollow .. => 12 | .reserved m => m

/-- The 32 bytes of a long header (R376). -/
def LongHdr.encode (h : LongHdr) (mtype : Nat) : List Nat :=
  [mtype + 16 * (h.vc % 8), (h.bytes + 255) % 256, h.flow % 256, h.hops % 256] ++ toBytes 4 (h.dst % 2 ^ 17) ++
    toBytes 4 (h.src % 2 ^ 17) ++ toBytes 2 h.job ++ toBytes 2 h.counter ++ toBytes 8 (h.addr % 2 ^ 47) ++
    [h.poison % 256, h.afmt % 8 + 8 * (h.aop % 16), h.agent % 256,
      h.cls % 4 + 4 * (h.status % 4) + (if h.volatile then 16 else 0) + (if h.resend then 32 else 0)] ++
    toBytes 4 h.pseq

/-- The header in a message's first two slots. -/
def LongHdr.decode (b : List Nat) : LongHdr :=
  { vc := bits (byteAt b 0) 6 4, bytes := byteAt b 1 + 1, flow := byteAt b 2, hops := byteAt b 3,
    dst := field b 4 4 % 2 ^ 17, src := field b 8 4 % 2 ^ 17, job := field b 12 2, counter := field b 14 2,
    addr := field b 16 8 % 2 ^ 47, poison := byteAt b 24, afmt := bits (byteAt b 25) 2 0, aop := bits (byteAt b 25) 6 3,
    agent := byteAt b 26, cls := bits (byteAt b 27) 1 0, status := bits (byteAt b 27) 3 2,
    volatile := bit (byteAt b 27) 4 == 1, resend := bit (byteAt b 27) 5 == 1, pseq := field b 28 4 }

/-- Bytes padded to whole slots. -/
def padSlots (l : List Nat) : List Nat := l ++ List.replicate ((16 - l.length % 16) % 16) 0

/-- A slot from its first bytes. -/
def oneSlot (l : List Nat) : List Nat := (l ++ List.replicate 16 0).take 16

/-- The slots of a message, as bytes (R376 to R378). -/
def LinkMsg.encode (m : LinkMsg) : List Nat :=
  let first := fun vc => m.mtype + 16 * vc
  match m with
  | .write h d => h.encode 1 ++ padSlots d
  | .atomic h d => h.encode 2 ++ padSlots d
  | .readReq h => h.encode 3
  | .readCpl h d => h.encode 4 ++ padSlots d
  | .ack vc status agent hops dst pseq =>
    oneSlot ([first (vc % 8), status % 4, agent % 256, hops % 256] ++ toBytes 4 (dst % 2 ^ 17) ++ toBytes 4 pseq)
  | .ascent phase resend tree sln =>
    oneSlot ([first 6, phase % 2 + (if resend then 2 else 0), tree % 256, 0] ++ toBytes 2 sln)
  | .descent phase resend tree sln =>
    oneSlot ([first 6, phase % 2 + (if resend then 2 else 0), tree % 256, 0] ++ toBytes 2 sln)
  | .announce rv role prio hops root sender =>
    oneSlot ([first 7, (if rv then 1 else 0) + 2 * (role % 4), prio % 256, hops % 256] ++ toBytes 4 root ++
      toBytes 4 sender)
  | .beat frac int => oneSlot ([first 7] ++ toBytes 3 frac ++ zeros 4 ++ toBytes 8 int)
  | .delayReq n => oneSlot [first 7, n % 256]
  | .delayResp n t2 t3 => oneSlot ([first 7, n % 256] ++ toBytes 7 t2 ++ toBytes 7 t3)
  | .delayFollow n t1 t4 => oneSlot ([first 7, n % 256] ++ toBytes 7 t1 ++ toBytes 7 t4)
  | .reserved _ => oneSlot [first 0]

/-- How many slots the message whose first slot is `b` has (R377). -/
def slotsOf (b : List Nat) : Nat :=
  let data := (byteAt b 1 + 16) / 16
  match byteAt b 0 % 16 with
  | 1 | 2 => 2 + data
  | 3 => 2
  | 4 => if bits (byteAt b 27) 3 2 = 0 then 2 + data else 2
  | _ => 1

/-- Slots that a message takes. -/
def LinkMsg.slots (m : LinkMsg) : Nat := m.encode.length / 16

/-- The message in its slots; none is a PAD slot. -/
def LinkMsg.decode (b : List Nat) : Option LinkMsg :=
  let h := LongHdr.decode b
  let data := slice b 32 h.bytes
  let b1 := byteAt b 1
  match byteAt b 0 % 16 with
  | 0 => none
  | 1 => some (.write h data)
  | 2 => some (.atomic h data)
  | 3 => some (.readReq h)
  | 4 => some (.readCpl h (if h.status = 0 then data else []))
  | 5 => some (.ack h.vc (b1 % 4) (byteAt b 2) (byteAt b 3) (field b 4 4 % 2 ^ 17) (field b 8 4))
  | 6 => some (.ascent (b1 % 2) (bit b1 1 == 1) (byteAt b 2) (field b 4 2))
  | 7 => some (.descent (b1 % 2) (bit b1 1 == 1) (byteAt b 2) (field b 4 2))
  | 8 => some (.announce (bit b1 0 == 1) (bits b1 2 1) (byteAt b 2) (byteAt b 3) (field b 4 4) (field b 8 4))
  | 9 => some (.beat (field b 1 3) (field b 8 8))
  | 10 => some (.delayReq b1)
  | 11 => some (.delayResp b1 (field b 2 7) (field b 9 7))
  | 12 => some (.delayFollow b1 (field b 2 7) (field b 9 7))
  | n => some (.reserved n)

/-- Header VC of a received message. -/
def msgVc (b : List Nat) : Nat := bits (byteAt b 0) 6 4

/-! ## Flits -/

def fkIdle : Nat := 0
def fkData : Nat := 1
def fkInit : Nat := 2
def fkNak : Nat := 3

/-- A flit's header fields (R367); a credit return is its CVC and slots. -/
structure FlitHdr where
  ack : Nat
  seq : Nat
  a : Nat × Nat
  b : Nat × Nat
  kind : Nat
  cont : Nat
  ackv : Bool
  win : Bool
  deriving DecidableEq, Repr

/-- The 256 bytes of a flit, with its CRC. -/
def FlitHdr.encode (h : FlitHdr) (payload : List Nat) : List Nat :=
  let ret := fun (c : Nat × Nat) => c.1 * 4096 + c.2 % 4096
  let body := toBytes 4 (h.ack % 65536 * 65536 + h.seq % 65536) ++ toBytes 4 (ret h.b * 65536 + ret h.a) ++
    toBytes 4 (h.kind * 2 ^ 28 + h.cont * 2 ^ 24 + (if h.ackv then 2 ^ 23 else 0) + (if h.win then 2 ^ 22 else 0)) ++
    (payload ++ zeros 240).take 240
  body ++ toBytes 4 (crc32 body)

/-- The header of a flit whose CRC and reserved bits are right (R367, R368). -/
def flitHdr? (f : List Nat) : Option FlitHdr :=
  let w0 := field f 0 4
  let w1 := field f 4 4
  let w2 := field f 8 4
  let ret := fun (x : Nat) => (x / 4096, x % 4096)
  let okc := fun (c : Nat) => c ≤ 8 || c == 15
  let a := ret (w1 % 65536)
  let b := ret (w1 / 65536)
  if f.length = 256 && field f 252 4 = crc32 (f.take 252) && w2 / 2 ^ 28 < 4 && w2 % 2 ^ 22 = 0 && okc a.1 && okc b.1 then
    some { ack := w0 / 65536, seq := w0 % 65536, a := a, b := b, kind := w2 / 2 ^ 28, cont := bits w2 27 24,
           ackv := bit w2 23 == 1, win := bit w2 22 == 1 }
  else none

/-- The payload of a flit. -/
def flitPayload (f : List Nat) : List Nat := slice f 12 240

/-! ## INIT (R365) -/

def InitInfo.encode (i : InitInfo) : List Nat :=
  toBytes 2 i.version ++ toBytes 2 i.caps ++ toBytes 4 i.device ++ [i.port, i.role, i.lanes, if i.fresh then 1 else 0] ++
    toBytes 2 i.rxNext ++ toBytes 2 0 ++ i.credits.flatMap (toBytes 2)

def InitInfo.decode (p : List Nat) : InitInfo :=
  { version := field p 0 2, caps := field p 2 2, device := field p 4 4 % 2 ^ 17, port := byteAt p 8, role := byteAt p 9,
    lanes := byteAt p 10 % 16, fresh := bit (byteAt p 11) 0 == 1, rxNext := field p 12 2,
    credits := (List.range 9).map fun k => field p (16 + 2 * k) 2 }

/-! ## Sending flits -/

/-- The credit returns of a flit: up to two pools that are owed some, and what stays owed. -/
def takeOwed (owed : List Nat) : (Nat × Nat) × (Nat × Nat) × List Nat :=
  let one := fun (l : List Nat) =>
    match (List.range 9).find? fun k => l.getD k 0 != 0 with
    | some k => ((k, min 4095 (l.getD k 0)), l.set k (l.getD k 0 - min 4095 (l.getD k 0)))
    | none => ((15, 0), l)
  let (a, l1) := one owed
  let (b, l2) := one l1
  (a, b, l2)

/-- Sends a flit on port `p`; every flit carries the acknowledgement and credit returns (R369, R374). -/
def State.sendFlit (s : State) (p kind seq cont : Nat) (win : Bool) (payload : List Nat) : State :=
  let x := s.port p
  let (a, b, owed) := takeOwed x.owed
  let h : FlitHdr := { ack := (x.rxNext + 65535) % 65536, seq := seq, a := a, b := b, kind := kind, cont := cont,
                       ackv := x.rxAny, win := win }
  (s.setPort p { x with owed := owed }).emit (.flit p (h.encode payload))

/-- Sends an IDLE flit on an ACTIVE port. -/
def State.sendIdle (s : State) (p : Nat) : State :=
  if (s.port p).state = .active then s.sendFlit p fkIdle 0 0 false [] else s

/-- Slots of the receive buffer that a message leaves are owed to the peer (R374). -/
def State.creditSlots (s : State) (p pool n : Nat) : State :=
  s.onPort p fun x =>
    let owed := if x.owed.isEmpty then List.replicate 9 0 else x.owed
    { x with owed := owed.set pool (owed.getD pool 0 + n) }

end Sys2Proof.Machine
end

