-- ==== Sys2Proof/Machine/Ic.lean ====
section
/-! DEFINITION. The interrupt controller's operations (R344 to R360): firing, assigning, taking and completing
sources, notices of virtual interfaces, and MSI-X messages. -/

namespace Sys2Proof.Machine

/-! ## MSI-X -/

/-- Sends package vector `pv` for function `v`, or sets its pending bit (R407). -/
def State.msixSend (s : State) (v pv : Nat) : State :=
  let e := tget .reset s.host.msix pv
  let c := s.host.func v
  if e.mask || !c.msixEnable || c.funcMask then
    { s with host := { s.host with msix := tset .reset s.host.msix pv { e with pending := true } } }
  else s.emit (.msix pv e.addr e.data)

/-- A message on VI-local vector `vec` of `v`, and whether it lies beyond COUNT (R356, R357). A vector whose
package vector lies beyond the table has no entry (R407). -/
def State.viMessage (s : State) (v vec : Nat) : State × Bool :=
  if s.fld F.VI_MSIX_COUNT v ≤ vec then (s, true)
  else
    let pv := s.fld F.VI_MSIX_BASE v + vec
    if pv < 2048 then (s.msixSend v pv, false) else (s, false)

/-! ## Sources -/

def State.icSource (s : State) (src : Nat) : IcSource := tget .reset s.ic.sources src

def State.setIcSource (s : State) (src : Nat) (x : IcSource) : State :=
  { s with ic := { s.ic with sources := tset .reset s.ic.sources src x } }

/-- The level of a source (R350). -/
def State.srcLevel (s : State) (src : Nat) : Nat :=
  s.fld F.IC_SRC_CFG_CLASS src * 16 + s.fld F.IC_SRC_CFG_PRIO src

/-- The sources that are ACTIVE or ACTIVE_PENDING at target `t`. -/
def State.activeAt (s : State) (t : Nat) : List Nat :=
  (s.ic.sources.filter fun p =>
    (p.2.state == .active || p.2.state == .activePending) && p.2.target == some t).map (·.1)

/-- The running level of a target (R350); none is idle. -/
def State.runningLevel (s : State) (t : Nat) : Option Nat :=
  if t = 9 then ((s.activeAt 9).map s.srcLevel).max?
  else ((tget [] s.ic.frames t).map (·.level)).max?

/-- Whether a target may take sources (R348). -/
def State.targetAble (s : State) (t : Nat) : Bool :=
  s.fld F.IC_TGT_CTRL_ENABLE t == 1 &&
    (t == 9 ||
      !((s.hc t).core.state == .off || (s.hc t).core.state == .halted || (s.hc t).core.state == .faulted))

/-- The candidates of R349 for a source, in increasing number. -/
def State.candidates (s : State) (src : Nat) : List Nat :=
  (List.range 10).filter fun t => bit (s.fld F.IC_SRC_CFG_TARGETS src) t == 1 && s.targetAble t

/-- The order of LOWEST: running level, then other halls after the source's own, then number (R349). -/
def State.lowestKey (s : State) (src t : Nat) : Nat :=
  let level := match s.runningLevel t with
    | none => 0
    | some l => l + 1
  let own := if t = 9 then 1 else if (if t = 8 then 0 else t) = src / 128 then 0 else 1
  (level * 2 + own) * 16 + t

/-- The target R349 selects. -/
def State.chooseTarget (s : State) (src : Nat) : Option Nat :=
  let c := s.candidates src
  if s.fld F.IC_SRC_CFG_MODE src = 1 then
    let last := (s.icSource src).lastChoice
    (c.find? (last < ·)).or c.head?
  else
    match (c.map (s.lowestKey src)).min? with
    | none => none
    | some k => some (k % 16)

/-- Bits of `IC_EVENT`. -/
def icBadEoi : Nat := 1
def icNoTarget : Nat := 2
def icVectorRange : Nat := 4

/-- The host takes a source as soon as it is assigned (R356). The second part is what `IC_EVENT` sets. -/
def State.hostTake (s : State) (src : Nat) : State × Nat :=
  let s1 := s.setIcSource src { s.icSource src with state := .active, target := some 9 }
  let (s2, range) := s1.viMessage 0 (s.fld F.IC_SRC_CFG_VECTOR src)
  (s2, if range then icVectorRange else 0)

/-- Assigns a PENDING source (R349); unassigned while it is disabled (R347). -/
def State.assignSource (s : State) (src : Nat) : State × Nat :=
  let x := s.icSource src
  if s.fld F.IC_SRC_CFG_ENABLE src = 0 then
    (s.setIcSource src { x with state := .pending, target := none }, 0)
  else
    match s.chooseTarget src with
    | none => (s.setIcSource src { x with state := .pending, target := none }, icNoTarget)
    | some t =>
      let s1 := s.setIcSource src { state := .pending, target := some t, lastChoice := t }
      if t = 9 then s1.hostTake src else (s1, 0)

/-- One firing of a source (R345, R346), and what `IC_EVENT` sets. -/
def State.fireOnce (s : State) (src : Nat) : State × Nat :=
  let s1 := s.addFld F.IC_SRC_STATE_FIRINGS 1 src
  let x := s1.icSource src
  match x.state with
  | .inactive => s1.assignSource src
  | .pending => (s1, 0)
  | .active => (s1.setIcSource src { x with state := .activePending }, 0)
  | .activePending => (s1, 0)

/-- The interrupt controller's own source (R344). -/
def icOwnSource : Nat := 106

/-- Sets bits of `IC_EVENT`, each set firing source 106; a firing may set bits once more. -/
def State.icEvent (s : State) (b : Nat) : State :=
  if b = 0 then s
  else
    let s1 := s.setReg .IC_EVENT 0 0 (s.reg .IC_EVENT ||| b)
    let (s2, b2) := s1.fireOnce icOwnSource
    if b2 = 0 then s2
    else ((s2.setReg .IC_EVENT 0 0 (s2.reg .IC_EVENT ||| b2)).fireOnce icOwnSource).1

/-- A source fires (R345). -/
def State.fire (s : State) (src : Nat) : State :=
  let (s1, b) := s.fireOnce src
  s1.icEvent b

/-- A block sets a status bit that a source listens to. -/
def State.raise (s : State) (f : Fld) (src : Nat) (w : Nat := 0) (i : Nat := 0) : State :=
  (s.setFld f 1 w i).fire src

/-- Logs an event in a VALID and OVERRUN register and fires its source: either set is a firing. -/
def State.raiseLog (s : State) (valid past : Fld) (src w i : Nat) (fields : List (Fld × Nat)) : State :=
  (s.logFirst valid past w i fields).fire src

/-- Assigns again every PENDING source that has no target able to take it (R349). A source that had none
before and finds none sets nothing new (log 14). -/
def State.reassignAll (s : State) : State :=
  let step := fun (acc : State × Nat) (src : Nat) =>
    let x := acc.1.icSource src
    if x.state = .pending then
      match x.target with
      | some t =>
        if acc.1.targetAble t then acc
        else
          let (s1, b) := acc.1.assignSource src
          (s1, acc.2 ||| b)
      | none =>
        let (s1, b) := acc.1.assignSource src
        (s1, acc.2 ||| (if b = icNoTarget then 0 else b))
    else acc
  let (s1, b) := (s.ic.sources.map (·.1)).foldl step (s, 0)
  s1.icEvent b

/-- A bad completion (R353). -/
def State.badEoi (s : State) : State := (s.addFld F.IC_BAD_EOI_COUNT_COUNT 1).icEvent icBadEoi

/-- Target `t` completes source `src` (R353). A source owed one more service goes back to the same target;
a source disabled since waits unassigned (R347). -/
def State.completeSource (s : State) (t src : Nat) : State :=
  let x := s.icSource src
  let drop := fun (s : State) =>
    { s with ic := { s.ic with taken := tset [] s.ic.taken t ((tget [] s.ic.taken t).filter (· != src)) } }
  if x.target = some t then
    match x.state with
    | .active => drop (s.setIcSource src { x with state := .inactive, target := none })
    | .activePending =>
      let s1 := drop s
      if s.fld F.IC_SRC_CFG_ENABLE src = 0 then
        s1.setIcSource src { x with state := .pending, target := none }
      else if t = 9 then
        let (s2, b) := (s1.setIcSource src { x with state := .pending }).hostTake src
        s2.icEvent b
      else (s1.setIcSource src { x with state := .pending }).reassignAll
    | .inactive => s.badEoi
    | .pending => s.badEoi
  else s.badEoi

/-- Empties a controller's interrupt stack and returns its ACTIVE sources to PENDING (R355). -/
def State.dropTarget (s : State) (t : Nat) : State :=
  let s1 := { s with ic := { s.ic with frames := tdel s.ic.frames t, taken := tdel s.ic.taken t } }
  let step := fun (acc : State × Nat) (src : Nat) =>
    let (s2, b) := acc.1.assignSource src
    (s2, acc.2 ||| b)
  let (s2, b) := (s.activeAt t).foldl step (s1, 0)
  (s2.icEvent b).reassignAll

/-! ## Taking -/

/-- Whether source `x` goes before source `y` (R351): its level is higher, or it is equal and the number lower. -/
def State.goesBefore (s : State) (x y : Nat) : Bool :=
  s.srcLevel y < s.srcLevel x || (s.srcLevel x == s.srcLevel y && x < y)

/-- The sources that are PENDING for target `t`. -/
def State.pendingAt (s : State) (t : Nat) : List Nat :=
  (s.ic.sources.filter fun p => p.2.state == .pending && p.2.target == some t).map (·.1)

/-- The source of a list that goes before the others. -/
def State.foremost (s : State) : List Nat → Option Nat
  | [] => none
  | x :: l =>
    match s.foremost l with
    | none => some x
    | some y => if s.goesBefore x y then some x else some y

/-- The source that controller `t` takes at a bundle boundary (R351): the assigned PENDING source of highest
level, the lower number winning a tie, when its level, the stack and the fast rule allow. -/
def State.takable (s : State) (t : Nat) : Option Nat :=
  match s.foremost (s.pendingAt t) with
  | none => none
  | some src =>
    let stack := tget [] s.ic.frames t
    let above := stack.all fun e => e.level < s.srcLevel src
    let fastOk := s.fld F.IC_SRC_CFG_CLASS src == 0 || !(stack.any fun e => 16 ≤ e.level)
    if above && stack.length < 8 && fastOk then some src else none

/-- Controller `t` takes source `src` (R351): pushes the pc, bank and level, and enters the handler. A
controller that waits under WFI leaves that state. -/
def State.takeSource (s : State) (t src : Nat) : State :=
  let c := s.hc t
  let level := s.srcLevel src
  let fast := s.fld F.IC_SRC_CFG_CLASS src = 1
  let entry := if fast then s.fld F.IC_TGT_CTRL_FAST_ENTRY t else s.fld F.IC_TGT_CTRL_NORMAL_ENTRY t
  let stack := { pc := c.core.pc, bank := c.core.bank, level := level } :: tget [] s.ic.frames t
  let core := { c.core with
    pc := entry, bank := if fast then 1 else c.core.bank, prefetch := [],
    state := .running, wait := none }
  let s1 := (s.setHc t { c with core := core }).setIcSource src { s.icSource src with state := .active }
  { s1 with ic := { s1.ic with
      frames := tset [] s1.ic.frames t stack,
      taken := tset [] s1.ic.taken t (src :: tget [] s1.ic.taken t) } }

/-- Whether a controller stands at a bundle boundary at which it may take a source. -/
def Core.atBoundary (c : Core) : Bool :=
  c.state == .running || (c.state == .waiting && c.wait == some .interrupt)

/-- R351: target `t`, at a bundle boundary, takes the source that may be taken. -/
def doInterruptTake (t : Nat) (s : State) : State :=
  if (s.hc t).core.atBoundary then
    match s.takable t with
    | some src => s.takeSource t src
    | none => s
  else s

/-! ## Notices -/

def State.noticeState (s : State) (v : Nat) : SrcState := tget .inactive s.ic.notices v

def State.setNotice (s : State) (v : Nat) (x : SrcState) : State :=
  { s with ic := { s.ic with notices := tset .inactive s.ic.notices v x } }

/-- A notice that becomes PENDING is taken at once while it is enabled (R358). -/
def State.noticePending (s : State) (v : Nat) : State :=
  if s.fld F.IC_VI_NOTICE_ENABLE v = 1 then
    let (s1, range) := (s.setNotice v .active).viMessage v (s.fld F.IC_VI_NOTICE_VECTOR v)
    if range then s1.icEvent icVectorRange else s1
  else s.setNotice v .pending

/-- The notice source of `v` fires (R358, R346). -/
def State.fireNotice (s : State) (v : Nat) : State :=
  match s.noticeState v with
  | .inactive => s.noticePending v
  | .pending => s
  | .active => s.setNotice v .activePending
  | .activePending => s

/-- Virtual interface `v` completes its notice (R358). -/
def State.completeNotice (s : State) (v : Nat) : State :=
  match s.noticeState v with
  | .active => s.setNotice v .inactive
  | .activePending => s.noticePending v
  | .inactive => s.badEoi
  | .pending => s.badEoi

/-- Hardware sets a bit of `VI_EVENT` of `v`. -/
def State.viEvent (s : State) (f : Fld) (v : Nat) : State := (s.setFld f 1 v).fireNotice v

/-- Hardware sets a bit of `IC_VI_SYNC` of `v`. -/
def State.viSync (s : State) (f : Fld) (v : Nat) : State := (s.setFld f 1 v).fireNotice v

/-- A completion message on a VI-local vector (R357). -/
def State.completionMessage (s : State) (v vec : Nat) : State :=
  let (s1, range) := s.viMessage v vec
  if range then s1.icEvent icVectorRange else s1

/-- Source number of local index `i` in hall `h` (R344). -/
def source (h i : Nat) : Nat := 128 * h + i

end Sys2Proof.Machine
end

