-- ==== Sys2Proof/Machine/Ras.lean ====
section
/-! DEFINITION. RAS records, detector charges and owed retirements (R424 to R445). What a retirement does to
its channel stands in Retire.lean. -/

namespace Sys2Proof.Machine

/-! ## Channels (R424) -/

def chanKind (ch : Nat) : Nat := ch / 4096
def chanIndex (ch : Nat) : Nat := ch % 4096
def channelId (kind index : Nat) : Nat := kind * 4096 + index

/-- How many channels a kind has. -/
def kindCount (kind : Nat) : Nat := [256, 64, 512, 256, 272, 1088, 64, 288, 8].getD kind 0

def isChannel (ch : Nat) : Bool := chanIndex ch < kindCount (chanKind ch)

/-- Whether a channel is retired. -/
def State.retired (s : State) (ch : Nat) : Bool := s.fld F.RAS_BUCKET_RETIRED 0 ch == 1

/-! ## Records (R441 to R444) -/

/-- Bytes of a fixed-length field, padded with zeros. -/
def padBytes (n : Nat) (l : List Nat) : List Nat := (l ++ List.replicate n 0).take n

/-- The 96 bytes of the Llynio section (R441). -/
def RasRecord.section (r : RasRecord) : List Nat :=
  toBytes 2 1 ++ [r.kind % 256, r.detector % 256] ++ toBytes 4 r.recordId ++ toBytes 4 r.rootId ++
    toBytes 4 r.flags ++ toBytes 4 r.deviceId ++ toBytes 2 r.channel ++ [r.partition % 256, r.vi % 256] ++
    toBytes 8 r.tread ++ toBytes 2 r.queue ++ toBytes 2 r.opIndex ++ toBytes 2 r.level ++
    toBytes 2 r.omitted ++ padBytes 16 r.location ++ padBytes 32 r.signature ++ toBytes 8 0

def kindWarn : Nat := 0x01
def kindLimit : Nat := 0x02
def kindTransient : Nat := 0x03
def kindPermanent : Nat := 0x04
def kindRetired : Nat := 0x05
def kindRetryExhausted : Nat := 0x06
def kindTimeout : Nat := 0x07
def kindSharedPoison : Nat := 0x08
def kindPmcReset : Nat := 0x09

def kindChecksum : Nat := 0x10
def kindShadow : Nat := 0x11
def kindShadowFault : Nat := 0x12
def kindScanFail : Nat := 0x13
def kindScanTransient : Nat := 0x14
def kindPack : Nat := 0x15

def flagRoot : Nat := 1
def flagInjected : Nat := 4
def flagHard : Nat := 8
def flagAuto : Nat := 16
def flagRemoteCause : Nat := 32

/-- The UEFI severity of a record (R443, R446): 0 recoverable, 2 corrected, 3 informational; none is fatal. The codes
are UEFI's (log 106). -/
def RasRecord.severity (r : RasRecord) : Nat :=
  if [kindWarn, kindLimit, kindShadowFault, kindPack].contains r.kind then 3
  else if [kindTransient, kindScanTransient].contains r.kind then 2
  else 0

/-- Bytes `i` to `i + n - 1` of the header and descriptor where R441 gives none. -/
def cperOpen (i n : Nat) : List Nat := (List.range n).map fun k => Config.cperByte (i + k) % 256

/-- The Section Type of R441, as UEFI stores a GUID. -/
def llynioSection : List Nat :=
  toBytes 4 0x9d2a7c41 ++ toBytes 2 0x5e10 ++ toBytes 2 0x4f6b ++ [0x8b, 0x37, 0x41, 0xc0, 0xf2, 0xa6, 0xe5, 0x9d]

/-- FRU Text: the order code. -/
def fruText (o : OrderCode) : List Nat :=
  padBytes 20 (("KPZ-8384-".toList.map Char.toNat) ++ [match o with | .l => 76 | .e => 69])

/-- A record as a Common Platform Error Record (R441): the header of 128 bytes, the section descriptor of 72, and the
section (log 106). -/
def RasRecord.cper (o : OrderCode) (r : RasRecord) : List Nat :=
  ("CPER".toList.map Char.toNat) ++ cperOpen 4 2 ++ toBytes 4 0xFFFFFFFF ++ toBytes 2 1 ++ toBytes 4 r.severity ++
    toBytes 4 0 ++ toBytes 4 296 ++ toBytes 8 0 ++ cperOpen 32 64 ++ toBytes 8 r.recordId ++ cperOpen 104 24 ++
  (toBytes 4 200 ++ toBytes 4 96 ++ cperOpen 136 2 ++ [2, 0] ++ cperOpen 140 4 ++ llynioSection ++ padBytes 16 [] ++
    toBytes 4 r.severity ++ fruText o) ++
  r.section

/-- The ID after `n`; 0 is never used (R441). -/
def nextRecordId (n : Nat) : Nat := if n + 1 < 2 ^ 32 then n + 1 else 1

/-- Whether records of a kind are folded (R444). -/
def folds (r : RasRecord) : Bool :=
  r.channel != 0xFFFF && r.kind != kindRetired && r.kind != kindRetryExhausted && r.kind != kindTimeout

/-- Writes a record (R441, R444). `r.rootId` 0 makes it its own root. The answer is its ID, or that of the
record a folded event belongs with. -/
def State.record (s : State) (r : RasRecord) : State × Nat :=
  let key := r.channel * 256 + r.kind
  let fold := if folds r then tget none s.ras.folds key else none
  let recent := match fold with
    | some e => decide (s.time.tick - e.lastTick < 1000000)
    | none => false
  match fold, recent with
  | some e, true =>
    (s.onRas fun x =>
      { x with folds := tset none x.folds key (some { e with omitted := min 0xFFFF (e.omitted + 1) }) },
     e.recordId)
  | _, _ =>
    let id := nextRecordId s.ras.lastId
    let own := r.rootId == 0
    let fromShot := (s.ras.unstored ++ s.ras.store.filterMap (·.2)).any fun x =>
      !own && x.recordId == r.rootId && x.flags &&& flagInjected != 0
    let rec1 : RasRecord := { r with
      recordId := id, rootId := if own then id else r.rootId,
      flags := r.flags ||| (if own then flagRoot else 0) ||| (if s.boot.override then 2 else 0) |||
        (if fromShot then flagInjected else 0),
      deviceId := s.deviceId, tread := s.masterNow,
      omitted := match fold with
        | some e => e.omitted
        | none => r.omitted }
    let s1 := s.onRas fun x => { x with
      lastId := id, unstored := x.unstored ++ [rec1],
      folds := if folds r then
          tset none x.folds key (some { lastTick := s.time.tick, omitted := 0, recordId := id })
        else x.folds }
    (s1.raise F.RAS_EVENT_RECORD 96, id)

/-! ## Charges (R426) -/

def EventClass.weight (s : State) (kind : Nat) : EventClass → Nat
  | .ce => s.fld F.RAS_THRESH_B_W_CE 0 kind
  | .tue => s.fld F.RAS_THRESH_B_W_TUE 0 kind
  | .pue => s.fld F.RAS_THRESH_B_W_PUE 0 kind

def State.limit (s : State) (kind : Nat) : Nat := max 1 (s.fld F.RAS_THRESH_A_LIMIT 0 kind)

/-- The record kind of an uncorrected event (R443, R446); corrected events write none. -/
def eventKind (detector : Nat) : EventClass → Option Nat
  | .ce => none
  | .tue => some (if detector = 0x04 then kindRetryExhausted
      else if detector = 0x20 then kindChecksum
      else if detector = 0x21 then kindShadow
      else if detector = 0x23 || detector = 0x24 then kindScanTransient
      else kindTransient)
  | .pue => some kindPermanent

/-- Sets a bit of `RAS_EVENT`. -/
def State.rasEvent (s : State) (f : Fld) : State := s.raise f 96

/-- Notes that a channel is to be retired (R429), unless it is retired or owed already. -/
def State.oweRetire (s : State) (x : OwedRetire) : State :=
  if s.retired x.channel then s
  else if s.ras.owed.any fun y => y.channel == x.channel then
    if x.hard then
      s.onRas fun r => { r with owed := r.owed.map fun y => if y.channel = x.channel then x else y }
    else s
  else s.onRas fun r => { r with owed := r.owed ++ [x] }

/-- A hard signature retires its channel in the same cycle (R429): Settle.lean carries it out. -/
def State.hardSignature (s : State) (ch detector rootId : Nat) (mark : Mark := .natural) : State :=
  if mark.nocharge then s
  else s.oweRetire { channel := ch, since := s.time.tick, hard := true, commanded := false,
                     rootId := rootId,
                     detector := detector, injected := mark.injected }

/-- Adds weight to a channel's bucket and acts on WARN and LIMIT (R426). -/
def State.addWeight (s : State) (ch w : Nat) (base : RasRecord) : State :=
  let kind := chanKind ch
  let old := s.fld F.RAS_BUCKET_LEVEL 0 ch
  let new := min 0xFFFF (old + w)
  let warn := s.fld F.RAS_THRESH_A_WARN 0 kind
  let limit := s.limit kind
  let s1 := s.setFld F.RAS_BUCKET_LEVEL new 0 ch
  let r := { base with level := new }
  let s2 := if warn != 0 && old < warn && warn ≤ new && s1.fld F.RAS_CTRL_WARN_REC = 1 then
      (s1.record { r with kind := kindWarn }).1
    else s1
  if old < limit && limit ≤ new then
    -- in RETURN, AUTO acts as 0 (R488)
    if s2.fld F.RAS_THRESH_B_FLAGS 0 kind % 2 = 1 && s2.fld F.RAS_CTRL_HOLD = 0 && s2.boot.record.state != 3 then
      s2.oweRetire { channel := ch, since := s.time.tick, hard := false, commanded := false, rootId := 0,
                     detector := base.detector, injected := base.flags &&& flagInjected != 0 }
    else (s2.record { r with kind := kindLimit }).1.rasEvent F.RAS_EVENT_LIMIT
  else s2

/-- A detector event on a channel (R425, R426): its record, then its charge. `base` holds what the record says
beside kind and level. The answer is the record's ID, 0 when none. -/
def State.charge (s : State) (ch : Nat) (cls : EventClass) (base : RasRecord) (mark : Mark := .natural) :
    State × Nat :=
  if s.retired ch then (s, 0)
  else
    let w := if mark.nocharge then 0 else cls.weight s (chanKind ch)
    let level := min 0xFFFF (s.fld F.RAS_BUCKET_LEVEL 0 ch + w)
    let b := { base with
      channel := ch, flags := base.flags ||| (if mark.injected then flagInjected else 0) }
    let (s1, id) := match eventKind base.detector cls with
      | some k => s.record { b with kind := k, level := level }
      | none => (s, 0)
    (s1.addWeight ch w b, id)

/-- A charge with no more to say than its detector. -/
def State.chargeSimple (s : State) (ch : Nat) (cls : EventClass) (detector : Nat) : State :=
  (s.charge ch cls { RasRecord.blank with detector := detector }).1

/-! ## Commands -/

/-- R426: the buckets of a channel kind fall by 1. -/
def doBucketLeak (kind : Nat) (s : State) : State :=
  let ms := s.reg .RAS_THRESH_C 0 kind
  if ms != 0 && ms * 1000000 ≤ s.time.tick - tget 0 s.ras.leakAt kind then
    let s1 := s.onRas fun x => { x with leakAt := tset 0 x.leakAt kind s.time.tick }
    forEach (List.range (kindCount kind)) s1 fun s i =>
      let ch := channelId kind i
      let l := s.fld F.RAS_BUCKET_LEVEL 0 ch
      if l = 0 then s else s.setFld F.RAS_BUCKET_LEVEL (l - 1) 0 ch
  else s

/-- Effects of a write to `RAS_RETIRE` (R429, R445). -/
def State.rasRetireWritten (s : State) (ch : Nat) : State :=
  if !isChannel ch then s.setFld F.RAS_RETIRE_STATUS_RESULT 1
  else if s.retired ch then s.setFld F.RAS_RETIRE_STATUS_RESULT 2
  else
    ((s.setFld F.RAS_RETIRE_STATUS_RESULT 0).setFld F.RAS_RETIRE_STATUS_BUSY 1).oweRetire
      { channel := ch, since := s.time.tick, hard := false, commanded := true, rootId := 0, detector := 0,
        injected := false }

/-- Number of slots of the record store (R444). -/
def storeSlots : Nat := 16384

/-- The first of `k` slots at or after `n` that holds no RETIRED record (R444). -/
def State.freeSlot (s : State) : (k n : Nat) → Option Nat
  | 0, _ => none
  | k + 1, n =>
    match tget none s.ras.store n with
    | some r => if r.kind = kindRetired then s.freeSlot k ((n + 1) % storeSlots) else some n
    | none => some n

/-- R444: the oldest record not yet stored goes to the record store, and out as a platform event. -/
def doRasRecordStore (s : State) : State :=
  match s.ras.unstored with
  | [] => s
  | r :: rest =>
    let s1 := match s.freeSlot storeSlots s.ras.nextSlot with
      | some i =>
        let wraps := (tget none s.ras.store i).isSome
        let s1 := s.onRas fun x => { x with
          unstored := rest, store := tset none x.store i (some r), nextSlot := (i + 1) % storeSlots }
        if wraps then s1.rasEvent F.RAS_EVENT_STORE_WRAP else s1
      | none => s.onRas fun x => { x with unstored := rest }
    if s1.fld F.RAS_CTRL_PLDM_EN = 1 then s1.emit (.platformEvent (r.cper s1.order)) else s1

/-- Effects of a write to `RAS_REC_CMD` (R445). -/
def State.rasRecCmdWritten (s : State) (id : Nat) : State :=
  let all := s.ras.store.filterMap (·.2)
  let want := if id = 0 then (all.map (·.recordId)).max?.getD 0 else id
  match all.find? fun r => r.recordId == want with
  | some r =>
    let bytes := r.section
    (forEach (List.range 24) s fun s w => s.setReg .RAS_REC_DATA 0 w (field bytes (4 * w) 4)).setFld
      F.RAS_REC_STATUS_RESULT 0
  | none => s.setFld F.RAS_REC_STATUS_RESULT 1

/-! ## Bridges (R16, R425) -/

/-- The halls a bridge joins (R13); 0 to 7 are BR0 to BR7, 8 to 11 are BX0 to BX3. -/
def bridgeHalls (b : Nat) : Nat × Nat := if b < 8 then (b, (b + 1) % 8) else (b - 8, b - 4)

/-- The bridge ports of a bridge as sources 92 to 94 of its two halls: port 0 leads to the next hall, port 1 to
the previous one, port 2 across (log 23). -/
def State.bridgeEvent (s : State) (b : Nat) : State :=
  let (i, j) := bridgeHalls b
  if b < 8 then (s.fire (source i 92)).fire (source j 93)
  else (s.fire (source i 94)).fire (source j 94)

/-- LOCATION of a bridge event (R442). -/
def bridgeRecord (detector lane width : Nat) : RasRecord :=
  { RasRecord.blank with
    detector := detector, location := [lane / 24, lane % 24, width], signature := toBytes 4 1 }

/-- Working lanes of a bridge. -/
def State.bridgeWidth (s : State) (b : Nat) : Nat :=
  ((List.range 24).filter fun l => !s.retired (channelId 7 (24 * b + l))).length

/-- A bridge flit fails its CRC and is resent (R425). -/
def State.bridgeFlitBad (s : State) (lane : Nat) (m : Mark) : State :=
  let b := lane / 24
  ((s.charge (channelId 7 lane) .tue (bridgeRecord 0x06 lane (s.bridgeWidth b)) m).1).bridgeEvent b

/-- R425: a bridge flit fails its CRC and is resent. -/
def doBridgeFlitCrcError (lane : Nat) (s : State) : State := s.bridgeFlitBad lane .natural

/-- A bridge lane loses lock; one that does not relock within 1 µs is retired (R425, R429). -/
def State.bridgeLaneLost (s : State) (lane : Nat) (relocked : Bool) (m : Mark) : State :=
  let b := lane / 24
  let (s1, id) := s.charge (channelId 7 lane) .pue (bridgeRecord 0x07 lane (s.bridgeWidth b)) m
  let s2 := s1.bridgeEvent b
  if relocked then s2 else s2.hardSignature (channelId 7 lane) 0x07 id m

/-- R425, R429: a bridge lane loses lock. -/
def doBridgeLaneLockLoss (lane : Nat) (relocked : Bool) (s : State) : State := s.bridgeLaneLost lane relocked .natural

/-! ## Silent islands (R425) -/

/-- R425: the island of an alcove gives no handshake for 10 µs, a hard signature. -/
def State.islandSilent (s : State) (n : Nat) (m : Mark := .natural) : State :=
  if s.retired (channelId 4 n) then s else s.hardSignature (channelId 4 n) 0x0F 0 m

def doAlcoveIslandSilent (n : Nat) (s : State) : State := s.islandSilent n

end Sys2Proof.Machine
end

