-- ==== Sys2Proof/Machine/Shot.lean ====
section
/-! DEFINITION. Due shots of the injectors and how a qualifying event fires one (R466 to R469). -/

namespace Sys2Proof.Machine

def State.injector (s : State) (i : Nat) : Injector := tget .reset s.inj.injectors i

def State.setInjector (s : State) (i : Nat) (x : Injector) : State :=
  s.onInj fun t => { t with injectors := tset .reset t.injectors i x }

/-- The lowest injector with a shot due for a detector and target whose parameter qualifies (R469). -/
def State.dueShot (s : State) (det target : Nat) (qualifies : Nat → Bool := fun _ => true) : Option Nat :=
  (List.range 16).find? fun i =>
    (s.injector i).due && s.fld F.INJ_CTRL_DETECTOR i == det &&
      s.fld F.INJ_TARGET_TARGET i == target && qualifies (s.fld F.INJ_PARAM_PARAM i)

/-- Whether the rows of a detector use the HBM parameter (R468). -/
def hbmRow (det : Nat) : Bool := det == 0x08 || det == 0x09 || det == 0x0A

/-- Injector `i` fires its due shot (R466): the counters, LINE_STEP, and DONE after the last. -/
def State.fireShot (s : State) (i : Nat) : State × Mark :=
  let x := s.injector i
  let s1 := (s.addFld F.INJ_COUNT_FIRED 1 i).setInjector i { x with due := false }
  let p := s1.fld F.INJ_PARAM_PARAM i
  let s2 := if hbmRow (s1.fld F.INJ_CTRL_DETECTOR i) && bit p 25 = 1 then
      s1.setFld F.INJ_PARAM_PARAM (putBits p 22 0 (bits p 22 0 + 1)) i
    else s1
  let periodic := s2.fld F.INJ_CTRL_PERIODIC i = 1
  let limit := s2.fld F.INJ_REPEAT_REPEAT i
  let last := if periodic then limit != 0 && limit ≤ s2.fld F.INJ_COUNT_FIRED i else true
  let s3 := if last then
      ((s2.setFld F.INJ_CTRL_STATE 2 i).setFld F.INJ_CTRL_ARM 0 i).setInjector i .reset
    else s2
  (s3, { injected := true, nocharge := s.fld F.INJ_CTRL_NOCHARGE i = 1 })

/-- Whether injector `i` corrupts the stored value. -/
def State.shotStores (s : State) (i : Nat) : Bool := s.fld F.INJ_CTRL_STORE i = 1

/-- Fires a shot of a detector and target if one is due: the state after, whether the stored value is
corrupted, the parameter, and the mark. -/
def State.shoot (s : State) (det target : Nat) (qualifies : Nat → Bool := fun _ => true) :
    Option (State × Bool × Nat × Mark) :=
  match s.dueShot det target qualifies with
  | some i =>
    let (s1, m) := s.fireShot i
    some (s1, s.shotStores i, s.fld F.INJ_PARAM_PARAM i, m)
  | none => none

/-- Cancels the injectors that a test picks (R469). -/
def State.cancelShots (s : State) (which : Nat → Nat → Bool) : State :=
  forEach (List.range 16) s fun s i =>
    if s.fld F.INJ_CTRL_STATE i = 1 && which (s.fld F.INJ_CTRL_DETECTOR i) (s.fld F.INJ_TARGET_TARGET i) then
      ((s.setFld F.INJ_CTRL_STATE 3 i).setFld F.INJ_CTRL_ARM 0 i).setInjector i .reset
    else s

end Sys2Proof.Machine
end

