-- ==== Sys2Proof/Machine/Map.lean ====
section
/-! DEFINITION. Where things lie: global addresses (R179, R180), half-halls and partitions (R17, R18, R317,
R324), the D-space map of R210 and R211, and who may reach an address (R184, R322 to R326, R333). -/

namespace Sys2Proof.Machine

/-! ## Global addresses (R179) -/

def gaDevice (ga : Nat) : Nat := ga / 2 ^ 47 % 2 ^ 17
def gaSpace (ga : Nat) : Nat := bits ga 46 44
def gaOffset (ga : Nat) : Nat := bits ga 43 0

def spaceD : Nat := 0
def spaceG : Nat := 1
def spaceS : Nat := 2
def spaceI : Nat := 3
def spaceT : Nat := 4

/-- The global address of an offset of a space on device `dev`. -/
def gaMake (dev space off : Nat) : Nat := dev * 2 ^ 47 + space * 2 ^ 44 + off

/-- Gallery byte number, hall × 64 MiB + offset; the two fields are adjacent. -/
def gByte (off : Nat) : Nat := bits off 28 0

/-- Alcove and byte of an S-space or I-space offset. -/
def siAlcove (off : Nat) : Nat := bits off 28 21
def siByte (off : Nat) : Nat := bits off 20 0

/-- Hall, kind and index of a T-space offset. -/
def tHall (off : Nat) : Nat := bits off 28 26
def tKind (off : Nat) : Nat := bits off 25 24
def tIndex (off : Nat) : Nat := bits off 23 6

/-- A handle of an object of this device. -/
def State.handle (s : State) (hall kind index : Nat) : Nat :=
  gaMake s.deviceId spaceT (hall * 2 ^ 26 + kind * 2 ^ 24 + index * 2 ^ 6)

/-- Implemented indices of R235. -/
def objectCount (kind : Nat) : Nat := [4096, 2048, 4096, 0].getD kind 0

/-! ## Half-halls and partitions -/

/-- Partition of half-hall `j`; none of a hall left unpowered (R481). -/
def State.halfPart (s : State) (j : Nat) : Option Nat :=
  if s.boot.unpowered.contains (j / 2) then none else s.part.profile.layout.getD j none

/-- The half-halls of partition `p`, in order. -/
def State.halfHalls (s : State) (p : Nat) : List Nat :=
  (List.range 16).filter fun j => s.halfPart j == some p

/-- Whether a partition exists (R317). -/
def State.partExists (s : State) (p : Nat) : Bool := !(s.halfHalls p).isEmpty

/-- Whether a hall is split between two partitions (R18). -/
def State.splitHall (s : State) (h : Nat) : Bool :=
  match s.halfPart (2 * h), s.halfPart (2 * h + 1) with
  | some a, some b => a != b
  | _, _ => false

/-- Whether partition `p` has a half-hall of hall `h`. -/
def State.inHall (s : State) (p h : Nat) : Bool :=
  s.halfPart (2 * h) == some p || s.halfPart (2 * h + 1) == some p

/-- Whether partition `p` holds hall `h` whole (R18). -/
def State.holdsHall (s : State) (p h : Nat) : Bool := s.inHall p h && !s.splitHall h

/-- The half of a split hall that partition `p` holds. -/
def State.halfIn (s : State) (p h : Nat) : Nat := if s.halfPart (2 * h) = some p then 0 else 1

/-- Bytes lo to hi − 1 of hall `h`'s gallery that partition `p` holds (R18), as gallery byte numbers. -/
def State.galleryOf (s : State) (p h : Nat) : Option (Nat × Nat) :=
  let b := h * 2 ^ 26
  if s.holdsHall p h then some (b, b + 2 ^ 26)
  else if s.inHall p h then
    let n := s.halfIn p h
    some (b + n * 2 ^ 25, b + (n + 1) * 2 ^ 25)
  else none

/-- The objects lo to hi − 1 of a kind in hall `h`'s landing unit that partition `p` holds (R324). -/
def State.objectsOf (s : State) (p h kind : Nat) : Option (Nat × Nat) :=
  let n := objectCount kind
  if s.holdsHall p h then some (0, n)
  else if s.inHall p h then
    let k := s.halfIn p h
    some (k * (n / 2), (k + 1) * (n / 2))
  else none

/-- The partition that holds hall `h`'s annealer (R18). -/
def State.annealerPart (s : State) (h : Nat) : Option Nat :=
  if s.splitHall h then s.halfPart (2 * h + bit s.part.profile.annealerHalf h)
  else (s.halfPart (2 * h)).or (s.halfPart (2 * h + 1))

/-- The partition a virtual interface is bound to. -/
def State.viPart (s : State) (v : Nat) : Option Nat := tget none s.part.bound v

/-- Whether the host has enabled the function (R321, R398). -/
def State.viEnabled (s : State) (v : Nat) : Bool :=
  v == 0 || (s.part.vfEnable && v ≤ s.part.numVfs)

/-- Half-hall of an alcove, a copy engine, a port and an HBM channel (R17). -/
def alcoveHalf (n : Nat) : Nat := n / 16
def engineHalf (e : Nat) : Nat := e / 4
def portHalf (p : Nat) : Nat := p / 4
def channelHalf (c : Nat) : Nat := c / 16

/-! ## D-space (R208 to R211) -/

def gib24 : Nat := 24 * 2 ^ 30
def sixteenthLines : Nat := 393216
def lineBytes : Nat := 256
def channelBytes : Nat := 6291456 * 256

/-- A place in the stacks: HBM channel, line of the channel, byte of the line. -/
structure Place where
  chan : Nat
  line : Nat
  byte : Nat
  deriving DecidableEq, Repr

def Place.phys (p : Place) : Nat := p.chan * channelBytes + p.line * lineBytes + p.byte

/-- The slabs of R211, half-hall by half-hall. -/
def mapSlabs (chans : List Nat) (localN sl : Nat) : List Nat → Nat → Option Place
  | [], _ => none
  | n :: rest, o =>
    let wn := chans.filter fun c => channelHalf c == n
    let size := localN * sixteenthLines * 256 * wn.length
    if o < size then
      let g := o / 256
      let q := g / wn.length
      some { chan := wn.getD ((g + q) % wn.length) 0, line := sl + q, byte := o % 256 }
    else mapSlabs chans localN sl rest (o - size)

/-- The map of R211 for an offset relative to the partition's base. -/
def PartMap.place (m : PartMap) (o : Nat) : Option Place :=
  let k := m.chans.length
  let sl := (16 - m.localN) * sixteenthLines
  if o < sl * 256 * k then
    let g := o / 256
    let q := g / k
    some { chan := m.chans.getD ((g + q) % k) 0, line := q, byte := o % 256 }
  else mapSlabs m.chans m.localN sl m.halfHalls (o - sl * 256 * k)

/-- Mapped bytes of a partition. -/
def PartMap.capacity (m : PartMap) : Nat := m.chans.length * 16 * sixteenthLines * 256

/-- The partition whose range holds a device offset (R210). -/
def State.offsetPart (s : State) (off : Nat) : Option (Nat × PartMap) :=
  s.hbm.maps.find? fun p =>
    p.2.baseHH * gib24 ≤ off && off < (p.2.baseHH + p.2.halfHalls.length) * gib24

/-- Where a device offset lies; none is absent (R210). -/
def State.placeOf (s : State) (off : Nat) : Option Place :=
  match s.offsetPart off with
  | some (_, m) => m.place (off - m.baseHH * gib24)
  | none => none

/-- The home hall of a device offset (R12). -/
def State.homeHall (s : State) (off : Nat) : Option Nat := (s.placeOf off).map fun p => p.chan / 32

/-- Slot of an element in a list. -/
def slotIn (l : List Nat) (c : Nat) : Nat := l.findIdx (· == c)

/-- The device offset of line `q` of channel `c` under a map: the inverse of R211. -/
def PartMap.offsetOf (m : PartMap) (c q : Nat) : Option Nat :=
  if m.chans.contains c then
    let k := m.chans.length
    let sl := (16 - m.localN) * sixteenthLines
    if q < sl then
      let i := slotIn m.chans c
      some (m.baseHH * gib24 + (q * k + (i + k * (q / k + 1) - q) % k) * 256)
    else
      let n := channelHalf c
      let wn := m.chans.filter fun x => channelHalf x == n
      let before := (m.halfHalls.filter (· < n)).foldl (fun a j =>
        a + m.localN * sixteenthLines * 256 * (m.chans.filter fun x => channelHalf x == j).length) 0
      let r := q - sl
      let i := slotIn wn c
      let kn := wn.length
      some (m.baseHH * gib24 + sl * 256 * k + before + (r * kn + (i + kn * (r / kn + 1) - r) % kn) * 256)
  else none

/-- The device offset of a line under the maps in effect. -/
def State.offsetOfLine (s : State) (c q : Nat) : Option Nat :=
  s.hbm.maps.findSome? fun p => p.2.offsetOf c q

/-! ## Existing memory (R180) -/

/-- Whether every byte from `off` for `len` bytes is mapped. The mapped offsets of a partition run from its
base for its capacity, so a range that crosses into the next partition needs the first one full. -/
def State.dMapped (s : State) (off len : Nat) : Bool :=
  match s.offsetPart off, s.offsetPart (off + len - 1) with
  | some a, some b =>
    (s.placeOf off).isSome && (s.placeOf (off + len - 1)).isSome &&
      (a.1 == b.1 || a.2.capacity == a.2.halfHalls.length * gib24)
  | _, _ => false

/-- Whether a range of one space names existing memory of the own device. -/
def State.namesMemory (s : State) (ga len : Nat) : Bool :=
  let off := gaOffset ga
  match gaSpace ga with
  | 0 => off + len ≤ 0x6000000000 && s.dMapped off len
  | 1 => off < 2 ^ 29 && off % 2 ^ 26 + len ≤ 2 ^ 26
  | 2 => off < 2 ^ 29 && siByte off + len ≤ 0x180000
  | 3 => off < 2 ^ 29 && siByte off + len ≤ 0x80000
  | 4 => off < 2 ^ 29 && off % 64 == 0 && tIndex off < objectCount (tKind off)
  | _ => false

/-! ## Allocations (R323, R325, R333) -/

/-- Whether a range [lo, hi) is covered by ranges; `n` bounds the number of steps. -/
def covered (ranges : List (Nat × Nat)) : (n lo hi : Nat) → Bool
  | 0, lo, hi => hi ≤ lo
  | n + 1, lo, hi =>
    if hi ≤ lo then true
    else match ranges.find? fun r => r.1 ≤ lo && lo < r.2 with
      | some r => covered ranges n r.2 hi
      | none => false

/-- The ranges of one virtual interface in D or G: its own allocations, and for reading its mappings. -/
def State.viRanges (s : State) (v : Nat) (sp : AllocSpace) (write : Bool) : List (Nat × Nat) :=
  (s.part.allocs.filter fun a => a.vi == v && a.space == sp && (!write || !a.mapping)).map
    fun a => (a.base, a.base + a.size)

/-- Number of the object that a T-space index names; a landing has two indices (R235). -/
def objectNumber (kind index : Nat) : Nat := if kind = 1 then index / 2 else index

/-- Whether an allocation holds the object of a T-space index. -/
def Alloc.holdsObject (a : Alloc) (hall kind index : Nat) : Bool :=
  a.space == .t && a.hall == hall && a.kind == kind && a.base ≤ objectNumber kind index &&
    objectNumber kind index < a.base + a.size

/-- Whether `v` holds a T-space object. -/
def State.viObject (s : State) (v hall kind index : Nat) : Bool :=
  s.part.allocs.any fun a => a.vi == v && a.holdsObject hall kind index

/-- Whether a handle names an object of a kind in the allocations of `v` (R110, R322). -/
def State.handleOk (s : State) (v ga kind : Nat) : Bool :=
  let off := gaOffset ga
  gaSpace ga == spaceT && gaDevice ga == s.deviceId && tKind off == kind && s.namesMemory ga 1 &&
    s.viObject v (tHall off) kind (tIndex off)

/-- The virtual interface whose operation holds an alcove (R325). -/
def State.alcoveVi (s : State) (n : Nat) : Option Nat :=
  match (s.alcove n).grant with
  | some g => (tget none s.vst.queues g.queue).map (·.vi)
  | none => none

/-- Whether a local range lies in what `v` may reach (R184, R322, R325, R333). -/
def State.viMay (s : State) (v ga len : Nat) (write : Bool) : Bool :=
  let off := gaOffset ga
  match gaSpace ga with
  | 0 => covered (s.viRanges v .d write) (s.part.allocs.length + 1) off (off + len)
  | 1 => covered (s.viRanges v .g write) (s.part.allocs.length + 1) (gByte off) (gByte off + len)
  | 2 => s.alcoveVi (siAlcove off) == some v
  | 3 => s.alcoveVi (siAlcove off) == some v
  | 4 => s.viObject v (tHall off) (tKind off) (tIndex off)
  | _ => false

/-! ## Shared regions (R333 to R335) -/

/-- The shared region that holds a device offset. -/
def State.regionAt (s : State) (off : Nat) : Option Region :=
  s.part.regions.find? fun r => r.base ≤ off && off < r.base + r.size

def State.setRegion (s : State) (r : Region) : State :=
  s.onPart fun p => { p with regions := p.regions.map fun x => if x.num = r.num then r else x }

/-- The interfaces that hold a mapping of a region. -/
def State.mappers (s : State) (num : Nat) : List Nat :=
  (s.part.allocs.filter fun a => a.mapping && a.region == some num).map (·.vi)

/-- A region enters quarantine, or meets a later event in it (R334, R335, R440). -/
def State.quarantine (s : State) (num off : Nat) (mark : Mark := .natural) : State :=
  match s.part.regions.find? (·.num == num) with
  | none => s
  | some r =>
    if r.quarantined then
      -- folded into the record of this quarantine
      let fold := fun (x : RasRecord) =>
        if x.recordId = r.record then { x with omitted := min 0xFFFF (x.omitted + 1) } else x
      s.onRas fun x => { x with
        unstored := x.unstored.map fold,
        store := x.store.map fun p => (p.1, p.2.map fold) }
    else
      let (s1, id) := s.record { RasRecord.blank with
        kind := kindSharedPoison, detector := 0x18, partition := r.partition, vi := 0,
        flags := if mark.injected then flagInjected else 0,
        location := padBytes 8 [num] ++ toBytes 8 (off - r.base) }
      let s2 := s1.setRegion { r with quarantined := true, record := id }
      forEach (0 :: s2.mappers num).eraseDups s2 fun s v => s.viEvent F.VI_EVENT_QUARANTINE v

/-- An event at a device offset that quarantines the region holding it (R334). -/
def State.quarantineAt (s : State) (off : Nat) (mark : Mark := .natural) : State :=
  match s.regionAt off with
  | some r => s.quarantine r.num off mark
  | none => s

end Sys2Proof.Machine
end

