-- ==== Sys2Proof/Machine/Profile.lean ====
section
/-! DEFINITION. Stored profiles (R338, R339, R427, R428), and the maps that partitions get (R210, R212). -/

namespace Sys2Proof.Machine

/-! ## Profiles -/

/-- The fused alcove clock in MHz and the board limit in W of an order code (R1). -/
def OrderCode.mhz : OrderCode → Nat
  | .l => 2100 | .e => 1800
def OrderCode.watts : OrderCode → Nat
  | .l => 2000 | .e => 1500

/-- The core-rail power cap of a hall in W (R512). -/
def OrderCode.hallWatts : OrderCode → Nat
  | .l => 250 | .e => 190

/-- An entry of THRESHOLDS is legal (R427). -/
def thresholdOk (k : Nat) (e : List Nat) : Bool :=
  if 9 ≤ k then e.all (· == 0)
  else
    1 ≤ field e 0 2 && (field e 2 2 == 0 || field e 2 2 < field e 0 2) && byteAt e 7 < 2 && field e 8 4 ≤ 3600000 &&
      field e 0xC 4 == 0

/-- PORT_ROLE of port `p` in a profile. -/
def portRoleOf (b : List Nat) (p : Nat) : Nat := byteAt b (0x54 + p / 4) / 2 ^ (2 * p % 8) % 4

/-- LAYOUT of half-hall `j` in a profile. -/
def layoutOf (b : List Nat) (j : Nat) : Option Nat :=
  if 128 ≤ byteAt b (0x30 + j) then some (byteAt b (0x30 + j) % 16) else none

/-- Whether a stored profile is valid (R339). -/
def profileValid (b : List Nat) : Bool :=
  let zero := fun (off len : Nat) => (slice b off len).all (· == 0)
  b.length == 512 && field b 0x1FC 4 == crc32 (b.take 0x1FC) &&
    field b 0 2 == 1 && zero 2 2 &&
    ((List.range 8).all fun h => 1000 ≤ field b (0x14 + 2 * h) 2 && field b (0x14 + 2 * h) 2 ≤ 2100) &&
    300 ≤ field b 0x24 2 && field b 0x24 2 ≤ 2000 && 30 ≤ field b 0x26 2 && field b 0x26 2 ≤ 250 &&
    byteAt b 0x28 < 4 && byteAt b 0x2A < 4 &&
    ((List.range 16).any fun j => layoutOf b j == some (byteAt b 0x2B)) && zero 0x2C 4 &&
    ((List.range 16).all fun j => byteAt b (0x30 + j) / 16 % 8 == 0) && zero 0x41 3 &&
    ((List.range 16).all fun p => byteAt b (0x44 + p) ≤ 16) &&
    ((List.range 64).all fun p => portRoleOf b p < 3) && zero 0x64 28 &&
    ((List.range 16).all fun k => thresholdOk k (slice b (0x80 + 16 * k) 16)) && zero 0x180 124

/-- A valid stored profile, as it applies on an order code (R2, R339). -/
def Profile.ofBytes (o : OrderCode) (b : List Nat) : Profile :=
  { clockMhz := (List.range 8).map fun h => min o.mhz (field b (0x14 + 2 * h) 2),
    boardW := min o.watts (field b 0x24 2), hallW := min o.hallWatts (field b 0x26 2), timeRole := byteAt b 0x28,
    timePriority := byteAt b 0x29, timeFlags := byteAt b 0x2A, vi0Part := byteAt b 0x2B,
    layout := (List.range 16).map (layoutOf b), annealerHalf := byteAt b 0x40,
    locals := (List.range 16).map fun p => byteAt b (0x44 + p), portRole := (List.range 64).map (portRoleOf b),
    thresholds := slice b 0x80 256 }

/-- An entry of THRESHOLDS. -/
def thresholdEntry (limit warn ce tue pue leak : Nat) : List Nat :=
  toBytes 2 limit ++ toBytes 2 warn ++ [ce, tue, pue, 1] ++ toBytes 4 leak ++ [0, 0, 0, 0]

/-- The defaults of R428. -/
def defaultThresholds : List Nat :=
  thresholdEntry 1000 500 1 10 250 100 ++ thresholdEntry 1000 500 0 250 250 1000 ++
    thresholdEntry 1000 500 1 50 100 60000 ++ thresholdEntry 1000 250 0 0 250 60000 ++
    thresholdEntry 1000 500 1 100 250 1000 ++ thresholdEntry 1000 500 0 100 250 1000 ++
    thresholdEntry 1000 500 0 100 250 1000 ++ thresholdEntry 1000 500 1 20 250 100 ++
    thresholdEntry 1000 500 0 100 250 1000 ++ List.replicate 112 0

/-- The built-in profile (R339). Its clocks and power are at the order code's limits. -/
def Profile.builtin (o : OrderCode) : Profile :=
  { clockMhz := List.replicate 8 o.mhz, boardW := o.watts, hallW := o.hallWatts, timeRole := 0, timePriority := 0x80,
    timeFlags := 0, vi0Part := 0, layout := List.replicate 16 (some 0), annealerHalf := 0,
    locals := List.replicate 16 0, portRole := List.replicate 64 1, thresholds := defaultThresholds }

/-- The stored profile `n`, erased where none was placed. -/
def State.profileBytes (s : State) (n : Nat) : List Nat := tget (List.replicate 512 0xFF) s.host.profiles n

/-- The profile that a selection gives, with FALLBACK and BUILTIN (R339). -/
def State.chosenProfile (s : State) (n : Nat) : Profile × Bool × Bool :=
  if profileValid (s.profileBytes n) then (.ofBytes s.order (s.profileBytes n), false, false)
  else if profileValid (s.profileBytes 0) then (.ofBytes s.order (s.profileBytes 0), true, false)
  else (.builtin s.order, true, true)

/-- Loads the thresholds of the profile in effect into `RAS_THRESH` (R427). -/
def State.loadThresholds (s : State) : State :=
  forEach (List.range 9) s fun s k =>
    let e := slice s.part.profile.thresholds (16 * k) 16
    let put := fun (s : State) (f : Fld) (x : Nat) => s.setFld f x 0 k
    put (put (put (put (put (put (put s F.RAS_THRESH_A_LIMIT (field e 0 2)) F.RAS_THRESH_A_WARN (field e 2 2))
      F.RAS_THRESH_B_W_CE (byteAt e 4)) F.RAS_THRESH_B_W_TUE (byteAt e 5)) F.RAS_THRESH_B_W_PUE (byteAt e 6))
      F.RAS_THRESH_B_FLAGS (byteAt e 7)) F.RAS_THRESH_C_LEAK_MS (field e 8 4)

/-! ## Clocks and peaks (R320, R23) -/

/-- The applied alcove clock of hall `h` in MHz, a multiple of 25 (R504). -/
def State.hallMhz (s : State) (h : Nat) : Nat := s.part.profile.clockMhz.getD h 0 / 25 * 25

/-- A partition's applied clock. -/
def State.partMhz (s : State) (p : Nat) : Nat :=
  (((s.halfHalls p).map fun j => s.hallMhz (j / 2)).min?).getD 0

end Sys2Proof.Machine
end

