-- ==== Sys2Proof/Machine/Fp64.lean ====
section
/-! DEFINITION. IEEE 754 binary64 as the annealer uses it (R261, R267, R270), its FP32 roundings (R260) and the
threshold test (R267). -/

namespace Sys2Proof.Machine

/-- The value of an FP64 encoding. -/
def fp64Val (x : Nat) : Val :=
  let frac : Nat := x % 2 ^ 52
  let e : Nat := x / 2 ^ 52 % 2048
  let neg := x / 2 ^ 63 % 2 == 1
  if e = 2047 then (if frac = 0 then .inf neg else .nan)
  else if e = 0 then .num neg frac (-1074)
  else .num neg (2 ^ 52 + frac) ((e : Int) - 1075)

/-- The FP64 encoding nearest a value, ties to even. -/
def fp64Of : Val → Nat
  | .nan => 0x7FF8000000000000
  | .inf neg => (if neg then 2 ^ 63 else 0) + 0x7FF0000000000000
  | .num neg m e =>
    let sign := if neg then 2 ^ 63 else 0
    if m = 0 then sign
    else
      let u : Int := max ((Nat.log2 m : Int) + e - 52) (-1074)
      let q := (roundAt .nearest 0 m e u).1
      -- q is at most 2^53, so adding it to the exponent field carries a full significand upward
      let enc := if q < 2 ^ 52 then q else ((u + 1074).toNat + 1) * 2 ^ 52 + (q - 2 ^ 52)
      sign + min enc 0x7FF0000000000000

/-- A value rounded to FP64. -/
def rn64 (v : Val) : Val := fp64Val (fp64Of v)

/-- A value rounded to FP32 with the flushing of R143. -/
def rn32 (v : Val) : Val := (readOperand .fp32 (writeFloat .fp32 .nearest false 0 v).1).1

def Val.times (a b : Val) : Val := (a.mul b).1
def Val.plus (a b : Val) : Val := (a.add b).1

/-- The largest t with (2t − 1)^256 ≤ 2^256 × `n`, found bit by bit from bit `b` − 1: n's 256th root rounded to
the nearest integer. -/
def root256 (n : Nat) : (b t : Nat) → Nat
  | 0, t => t
  | b + 1, t =>
    let t1 := t + 2 ^ b
    root256 n b (if (2 * t1 - 1) ^ 256 ≤ 2 ^ 256 * n then t1 else t)

/-- T[m] of R267. -/
def thresholdT (m : Nat) : Nat := if m = 0 then 0xFFFFFFFF else root256 (2 ^ (8192 - m)) 33 0

/-- The threshold test of R267. -/
def acceptDraw (y : Val) (u : Nat) : Bool :=
  match y with
  | .nan => false
  | .inf neg => neg
  | .num neg m e =>
    if m = 0 || neg then true
    else
      let k := min 8192 (roundAt .nearest 0 m (e + 8) 0).1
      decide (k < 8192) && decide (u < thresholdT (k % 256) >>> (k / 256))

end Sys2Proof.Machine
end

