-- ==== Sys2Proof/Machine/Hbm.lean ====
section
/-! DEFINITION. Stacked memory (R207 to R234): the sector code, reads and writes at the point of coherence,
retry, refresh and temperature, bring-up, wipes and the traffic generators. -/

namespace Sys2Proof.Machine

/-! ## The sector code (R209) -/

/-- Multiplication by α in GF(2^8) with polynomial x^8 + x^4 + x^3 + x^2 + 1. -/
def gfDouble (a : Nat) : Nat := if 2 * a < 256 then 2 * a else (2 * a - 256) ^^^ 0x1D

/-- The sum of `a` times the bits of `b`, over `n` bits. -/
def gfMulAux : (n a b : Nat) → Nat
  | 0, _, _ => 0
  | n + 1, a, b => (if b % 2 = 1 then a else 0) ^^^ gfMulAux n (gfDouble a) (b / 2)

def gfMul (a b : Nat) : Nat := gfMulAux 8 a b

/-- α to a power. -/
def gfPow : Nat → Nat
  | 0 => 1
  | n + 1 => gfDouble (gfPow n)

/-- The power of x that symbol `i` multiplies: the check bytes come last (log 30). -/
def symbolPower (i : Nat) : Nat := 35 - i

/-- Syndrome `j` of an error pattern of symbols and values; symbol numbers above 35 lie outside the code. -/
def syndrome (j : Nat) (errs : List (Nat × Nat)) : Nat :=
  errs.foldl (fun a e => if e.1 < 36 then a ^^^ gfMul e.2 (gfPow (j * symbolPower e.1)) else a) 0

/-- How a sector decodes. -/
inductive Decoded
  | clean
  | corrected (symbol value : Nat)
  | bad (tag : Bool)
  deriving DecidableEq, Repr

/-- The net error value of a symbol. -/
def errAt (errs : List (Nat × Nat)) (i : Nat) : Nat :=
  errs.foldl (fun a e => if e.1 = i then a ^^^ e.2 else a) 0

/-- The number under which an upset holds a metadata byte that was stored whole with a wrong TAG. -/
def tagSymbol : Nat := 36

/-- Decodes an error pattern (R209): up to one symbol is corrected, and TAG must then match. -/
def decodeErrs (errs : List (Nat × Nat)) : Decoded :=
  let s0 := syndrome 0 errs
  let s1 := syndrome 1 errs
  let s2 := syndrome 2 errs
  let tagWrong := fun (fix : List (Nat × Nat)) =>
    (errAt (errs ++ fix) 32 ^^^ errAt errs tagSymbol) / 2 != 0
  if s0 = 0 && s1 = 0 && s2 = 0 then
    if tagWrong [] then .bad true else .clean
  else
    match (List.range 36).find? fun i =>
        s0 != 0 && gfMul s0 (gfPow (symbolPower i)) == s1 && gfMul s1 (gfPow (symbolPower i)) == s2 with
    | some i => if tagWrong [(i, s0)] then .bad true else .corrected i s0
    | none => .bad false

/-! ## Sectors (R208) -/

def channelSectors : Nat := 6291456 * 8

/-- The number of a sector: HBM channel, line, sector of the line. -/
def sectorKey (chan line i : Nat) : Nat := chan * channelSectors + line * 8 + i

def keyChan (k : Nat) : Nat := k / channelSectors
def keyLine (k : Nat) : Nat := k % channelSectors / 8
def keyPc (k : Nat) : Nat := k % 8 % 2
def keyPos (k : Nat) : Nat := k % 8 / 2

def Place.key (p : Place) : Nat := sectorKey p.chan p.line (p.byte / 32)

/-- TAG of a sector (R209). -/
def sectorTag (line pos : Nat) : Nat :=
  let a := 4 * line + pos
  (a ^^^ a / 2 ^ 7 ^^^ a / 2 ^ 14 ^^^ a / 2 ^ 21) % 128

def State.channel (s : State) (c : Nat) : Channel := tget .reset s.hbm.channels c

def State.setChannel (s : State) (c : Nat) (x : Channel) : State :=
  s.onHbm fun h => { h with channels := tset .reset h.channels c x }

/-- The stored bytes of a sector. -/
def State.sectorData (s : State) (k : Nat) : List Nat :=
  (List.range 32).map fun i => (tget 0 s.hbm.cells (32 * k + i)).toNat

def State.sectorPoison (s : State) (k : Nat) : Bool := tget false s.hbm.poison k

def State.upsetAt (s : State) (k : Nat) : Upset := tget .none s.hbm.upsets k

/-- Stores bytes of D-space from a physical address. -/
def storeBytes : (cells : List Host.Cell) → (a : Nat) → List Nat → List Host.Cell
  | cells, _, [] => cells
  | cells, a, b :: r => storeBytes (tset 0 cells a (BitVec.ofNat 8 b)) (a + 1) r

/-- Writes a whole sector with a valid code: no upset remains and no write-back waits (R213, R219). -/
def State.putSector (s : State) (k : Nat) (bytes : List Nat) (poison : Bool) : State :=
  s.onHbm fun h => { h with
    cells := storeBytes h.cells (32 * k) (padBytes 32 bytes),
    poison := tset false h.poison k poison,
    upsets := tdel h.upsets k,
    writebacks := h.writebacks.filter (· != k) }

/-- Whether accesses to a sector bypass the stack (R222). -/
def State.sectorRetired (s : State) (k : Nat) : Bool :=
  let c := s.channel (keyChan k)
  c.state == .retired || (if keyPc k = 0 then c.pc0Retired else c.pc1Retired)

/-- The device offset of a sector under the maps in effect. -/
def State.keyOffset (s : State) (k : Nat) : Option Nat :=
  (s.offsetOfLine (keyChan k) (keyLine k)).map (· + k % 8 * 32)

/-- Whether a sector lies in a retired page (R225). -/
def State.inRetiredPage (s : State) (k : Nat) : Bool :=
  match s.keyOffset k with
  | some o => s.hbm.pages.contains (o / 4096)
  | none => false

/-! ## Error events (R219, R220, R442) -/

/-- The kinds of `HBM_ERR_LOG`. -/
inductive HbmEvent
  | ce | tue | pue | tag
  deriving DecidableEq, Repr

def HbmEvent.code : HbmEvent → Nat
  | .ce => 0 | .tue => 1 | .pue => 2 | .tag => 3

/-- LOCATION of a sector (R442), and the partition that maps it. -/
def State.sectorLocation (s : State) (k : Nat) : List Nat × Nat :=
  match s.hbm.maps.find? fun m => m.2.chans.contains (keyChan k) with
  | some (p, m) =>
    (toBytes 4 (keyLine k) ++ [keyPc k, keyPos k] ++ toBytes 2 (slotIn m.chans (keyChan k)) ++
      toBytes 2 m.chans.length ++ [m.localN], p)
  | none => (toBytes 4 (keyLine k) ++ [keyPc k, keyPos k], 0xFF)

/-- SIGNATURE of wrong symbols: up to four of two bytes (R442). -/
def symbolSignature (errs : List (Nat × Nat)) : List Nat :=
  (errs.take 4).flatMap fun e => [e.1 % 256, e.2 % 256]

/-- Counts, logs and charges an error of a sector. The answer is the record's ID, 0 for none. -/
def State.hbmError (s : State) (ev : HbmEvent) (k : Nat) (errs : List (Nat × Nat)) (mark : Mark) : State × Nat :=
  let c := keyChan k
  let one := keyPc k = 1
  let f := match ev with
    | .ce => if one then F.HBM_ECC_CE_CE_PC1 else F.HBM_ECC_CE_CE_PC0
    | .tue => if one then F.HBM_ECC_UE_UE_TRANS_PC1 else F.HBM_ECC_UE_UE_TRANS_PC0
    | _ => if one then F.HBM_ECC_UE_UE_PERM_PC1 else F.HBM_ECC_UE_UE_PERM_PC0
  let s1 := (s.addFld f 1 c).raiseLog F.HBM_ERR_LOG_VALID F.HBM_ERR_LOG_OVERRUN
    (source (c / 32) (76 + c % 32 / 4)) c 0
    [(F.HBM_ERR_LOG_KIND, ev.code), (F.HBM_ERR_LOG_PC, keyPc k), (F.HBM_ERR_LOG_POSITION, keyPos k),
     (F.HBM_ERR_LOG_LINE, keyLine k)]
  let (loc, part) := s1.sectorLocation k
  let base := { RasRecord.blank with
    partition := part, location := loc, signature := symbolSignature errs }
  match ev with
  | .ce => s1.charge (channelId 2 (2 * c + keyPc k)) .ce { base with detector := 0x08 } mark
  | .tue => s1.charge (channelId 2 (2 * c + keyPc k)) .tue { base with detector := 0x09 } mark
  | .pue => s1.charge (channelId 2 (2 * c + keyPc k)) .pue { base with detector := 0x09 } mark
  | .tag => s1.charge (channelId 3 c) .pue { base with detector := 0x0A } mark

/-! ## Reads -/

/-- What a read returns: its bytes, the poison mark of each byte, and whether any is set. -/
structure DRead where
  st : State
  data : List Nat
  marks : List Bool := []
  poison : Bool
  /-- record of a permanent error met, 0 for none (R431) -/
  cause : Nat
  /-- shared region whose poison was read (R335) -/
  region : Option Nat

/-- Wrong symbols of data applied to data bytes. -/
def corruptData (data : List Nat) (errs : List (Nat × Nat)) : List Nat :=
  data.mapIdx fun i b => b ^^^ errAt errs i

/-- A shot of rows 0x08 and 0x09 with STORE 0 at a read of sector `k` (R468): the symbols it makes wrong. -/
def State.readShot (s : State) (k : Nat) : State × List (Nat × Nat) × Mark :=
  let target := channelId 2 (2 * keyChan k + keyPc k)
  let hits := fun p =>
    bit p 26 == 1 || (bits p 22 0 == keyLine k && bits p 24 23 == keyPos k)
  match s.shoot 0x08 target hits with
  | some (s1, _, _, m) => (s1, [(0, 0xFF)], m)
  | none =>
    match s.shoot 0x09 target hits with
    | some (s1, _, _, m) => (s1, [(0, 0xFF), (1, 0xFF)], m)
    | none => (s, [], .natural)

/-- Poison read from a sector quarantines the shared region that holds it (R334). -/
def State.poisonRead (s : State) (k : Nat) (mark : Mark) : State × Option Nat :=
  match s.keyOffset k with
  | some o =>
    match s.regionAt o with
    | some r => (s.quarantine r.num o mark, some r.num)
    | none => (s, none)
  | none => (s, none)

/-- The outcome of an exhausted retry (R220): the sector is stored poisoned over the data of the last read. -/
def State.poisonSector (s : State) (k : Nat) (data : List Nat) (tag : Bool) (errs : List (Nat × Nat))
    (mark : Mark) : DRead :=
  let s1 := s.putSector k data true
  let (s2, id) := s1.hbmError (if tag then .tag else .pue) k errs mark
  let (s3, region) := s2.poisonRead k mark
  { st := s3, data := data, poison := true, cause := id, region := region }

/-- A sector whose read decoded clean or corrected. `net` is what remains wrong of the stored symbols, empty
unless an error pattern aliases. -/
def State.goodSector (s : State) (k : Nat) (net : List (Nat × Nat)) (fixed : Option (Nat × Nat)) (mark : Mark) :
    DRead :=
  let data := corruptData (s.sectorData k) net
  let s1 := match fixed with
    | some e =>
      let (s1, _) := s.hbmError .ce k [e] mark
      s1.onHbm fun h => { h with
        writebacks := if h.writebacks.contains k then h.writebacks else h.writebacks ++ [k] }
    | none => s
  if s1.sectorPoison k != (errAt net 32 % 2 == 1) then
    let s2 := s1.addFld F.HBM_POISON_READS_COUNT 1 (keyChan k)
    let (s3, region) := s2.poisonRead k mark
    { st := s3, data := data, poison := true, cause := 0, region := region }
  else { st := s1, data := data, poison := false, cause := 0, region := none }

/-- An access that bypasses the stack (R222, R225): the state after, and whether it does. -/
def State.bypass (s : State) (k : Nat) : State × Bool :=
  if s.sectorRetired k then (s, true)
  else if s.inRetiredPage k then (s.addFld F.HBM_RETIRED_HIT_COUNT 1 (keyChan k), true)
  else (s, false)

/-- A read of a sector with its retry resolved in the same step (R219 to R222): the re-reads of R220 see the
stored symbols alone. -/
def State.readSector (s : State) (k : Nat) : DRead :=
  let (s0, skip) := s.bypass k
  if skip then
    let (s1, region) := s0.poisonRead k .natural
    { st := s1, data := zeros 32, poison := true, cause := 0, region := region }
  else
    let up := s0.upsetAt k
    let (s1, shot, m) := s0.readShot k
    let mark : Mark := if m.injected then m else up.mark
    let errs := up.errs ++ shot
    match decodeErrs errs with
    | .clean => s1.goodSector k errs none mark
    | .corrected i e => s1.goodSector k (errs ++ [(i, e)]) (some (i, e)) mark
    | .bad tag =>
      match decodeErrs up.errs with
      | .bad tag2 => s1.poisonSector k (corruptData (s1.sectorData k) up.errs) (tag && tag2) up.errs mark
      | .clean => (s1.hbmError .tue k errs mark).1.goodSector k up.errs none mark
      | .corrected i e =>
        (s1.hbmError .tue k errs mark).1.goodSector k (up.errs ++ [(i, e)]) (some (i, e)) mark

/-- Reads the sectors with the given device offsets, `n` of them from sector `sec`. -/
def State.readSectors (s : State) : (n sec : Nat) → DRead
  | 0, _ => { st := s, data := [], poison := false, cause := 0, region := none }
  | n + 1, sec =>
    let r := match s.placeOf (sec * 32) with
      | some p => s.readSector p.key
      | none => { st := s, data := zeros 32, poison := true, cause := 0, region := none }
    let t := r.st.readSectors n (sec + 1)
    { st := t.st, data := r.data ++ t.data, marks := List.replicate 32 r.poison ++ t.marks, poison := r.poison || t.poison,
      cause := if r.cause != 0 then r.cause else t.cause, region := r.region.or t.region }

/-- A read of D-space at the point of coherence; an absent offset reads as zeros carrying poison (R180). -/
def State.readD (s : State) (off len : Nat) : DRead :=
  let first := off / 32
  let r := s.readSectors ((off + len + 31) / 32 - first) first
  { r with data := slice r.data (off % 32) len, marks := slice r.marks (off % 32) len }

/-! ## Writes (R213, R221) -/

/-- The retry of a sector under way. -/
def State.retryOf (s : State) (k : Nat) : Option Retry := s.hbm.retries.find? (·.key == k)

/-- Applies a write to a sector that no retry holds. -/
def State.applySector (s : State) (k off : Nat) (bytes : List Nat) (poison : Bool) : State :=
  let (s0, skip) := s.bypass k
  if skip then s0
  else if off = 0 && bytes.length = 32 then s0.putSector k bytes poison
  else
    let r := s0.readSector k
    r.st.putSector k (r.data.take off ++ bytes ++ r.data.drop (off + bytes.length)) r.poison

/-- A write of part or all of a sector; a retry of the sector holds it (R220). -/
def State.writeSector (s : State) (k off : Nat) (bytes : List Nat) (poison : Bool) : State :=
  if (s.retryOf k).isSome then
    s.onHbm fun h => { h with retries := h.retries.map fun r =>
      if r.key = k then { r with held := r.held ++ [.write off bytes poison] } else r }
  else s.applySector k off bytes poison

/-- Writes bytes at a device offset, sector by sector; `fuel` bounds the sectors. A byte is poisoned when the
mark of its 32-byte part, counted from the first byte, is set. -/
def State.writeSectors (s : State) : (fuel off : Nat) → (data : List (Nat × Bool)) → State
  | 0, _, _ => s
  | n + 1, off, data =>
    if data.isEmpty then s
    else
      let m := min data.length (32 - off % 32)
      let part := data.take m
      let s1 := match s.placeOf off with
        | some p => s.writeSector p.key (off % 32) (part.map Prod.fst) (part.any Prod.snd)
        | none => s
      s1.writeSectors n (off + m) (data.drop m)

/-- Bytes with the poison marks of their 32-byte parts. -/
def markBytes (bytes : List Nat) (poison : Nat) : List (Nat × Bool) :=
  bytes.mapIdx fun i b => (b, bit poison (i / 32) == 1)

/-- A D-space write at the point of coherence; a write to an absent offset is dropped (R180). -/
def State.writeD (s : State) (off : Nat) (bytes : List Nat) (poison : Nat := 0) : State :=
  s.writeSectors (bytes.length / 32 + 2) off (markBytes bytes poison)

/-- The stack's step of R227. -/
def State.refreshStep (s : State) (h : Nat) : Nat := s.fld F.HBM_STACK_STATUS_REFRESH h

/-- Whether an access to a range must wait: a sector under retry (R220) for a read, or a stack that issues
only refresh (R227). -/
def State.dBlocked (s : State) (off len : Nat) (read : Bool) : Bool :=
  let first := off / 32
  (List.range ((off + len + 31) / 32 - first)).any fun i =>
    match s.placeOf ((first + i) * 32) with
    | some p => s.refreshStep (p.chan / 32) == 3 || (read && (s.retryOf p.key).isSome)
    | none => false

/-! ## Commands: accesses -/

/-- Takes an access that no retry holds, with symbols that its read finds wrong beside the stored ones. -/
def State.accessSector (s : State) (k : Nat) (op : HbmOp) (noise : List (Nat × Nat)) : State :=
  let finish := fun (r : DRead) =>
    match op with
    | .read => r.st.onHbm fun h => { h with lastRead := r.data, lastPoison := r.poison }
    | .write off bytes _ =>
      r.st.putSector k (r.data.take off ++ bytes ++ r.data.drop (off + bytes.length)) r.poison
  let (s0, skip) := s.bypass k
  match op, skip with
  | .read, true =>
    let (s1, _) := s0.poisonRead k .natural
    s1.onHbm fun h => { h with lastRead := zeros 32, lastPoison := true }
  | .write .., true => s0
  | op, false =>
    let whole := match op with
      | .write off bytes poison => if off = 0 && bytes.length = 32 then some (bytes, poison) else none
      | .read => none
    match whole with
    | some (bytes, poison) => s0.putSector k bytes poison
    | none =>
      let up := s0.upsetAt k
      let (s1, shot, m) := s0.readShot k
      let mark : Mark := if m.injected then m else up.mark
      let errs := up.errs ++ shot ++ noise
      match decodeErrs errs with
      | .clean => finish (s1.goodSector k errs none mark)
      | .corrected i e => finish (s1.goodSector k (errs ++ [(i, e)]) (some (i, e)) mark)
      | .bad tag =>
        s1.onHbm fun h => { h with
          retries := h.retries ++ [{ key := k, rereads := 0, data := corruptData (s1.sectorData k) errs,
                                     tag := tag, mark := mark, held := [op], since := s.time.tick }] }

/-- R213, R219 to R222: an access accepted at a pseudo-channel's controller. -/
def doHbmAccess (off : Nat) (op : HbmOp) (noise : List (Nat × Nat)) (s : State) : State :=
  match s.placeOf (off / 32 * 32) with
  | none =>
    match op with
    | .read => s.onHbm fun h => { h with lastRead := zeros 32, lastPoison := true }
    | .write .. => s
  | some p =>
    let k := p.key
    let fits := match op with
      | .read => true
      | .write o bytes _ => !bytes.isEmpty && o + bytes.length ≤ 32
    if !fits || s.refreshStep (p.chan / 32) = 3 then s
    else if (s.retryOf k).isSome then
      s.onHbm fun h => { h with retries := h.retries.map fun r =>
        if r.key = k then { r with held := r.held ++ [op] } else r }
    else s.accessSector k op noise

/-- Lets the held accesses of an ended retry take effect in order (R220). -/
def State.releaseHeld (s : State) (k : Nat) (held : List HbmOp) : State :=
  forEach held s fun s op =>
    match op with
    | .read =>
      let r := s.readSector k
      r.st.onHbm fun h => { h with lastRead := r.data, lastPoison := r.poison }
    | .write off bytes poison => s.applySector k off bytes poison

/-- R220: a re-read of the `i`-th sector under retry. -/
def doHbmReread (i : Nat) (noise : List (Nat × Nat)) (s : State) : State :=
  match s.hbm.retries[i]? with
  | none => s
  | some r =>
    let up := s.upsetAt r.key
    let errs := up.errs ++ noise
    let drop := fun (s : State) => s.onHbm fun h => { h with retries := h.retries.eraseIdx i }
    let good := fun (fixed : Option (Nat × Nat)) =>
      let (s1, _) := (drop s).hbmError .tue r.key errs r.mark
      let s2 := match fixed with
        | some e => (s1.goodSector r.key (errs ++ [e]) (some e) r.mark).st
        | none => s1
      s2.releaseHeld r.key r.held
    match decodeErrs errs with
    | .clean => good none
    | .corrected j e => good (some (j, e))
    | .bad tag =>
      let data := corruptData (s.sectorData r.key) errs
      if r.rereads + 1 < 4 then
        s.onHbm fun h => { h with retries := h.retries.map fun x =>
          if x.key = r.key then { x with rereads := r.rereads + 1, data := data, tag := tag } else x }
      else
        ((drop s).poisonSector r.key data tag errs r.mark).st.releaseHeld r.key r.held

/-- R219: the oldest scheduled write-back but `i`. -/
def doHbmCorrectedWriteback (i : Nat) (s : State) : State :=
  match s.hbm.writebacks[i]? with
  | some k =>
    if s.sectorRetired k then s.onHbm fun h => { h with writebacks := h.writebacks.eraseIdx i }
    else
      match decodeErrs (s.upsetAt k).errs with
      | .bad _ => s.onHbm fun h => { h with writebacks := h.writebacks.eraseIdx i }
      | .clean => s.putSector k (corruptData (s.sectorData k) (s.upsetAt k).errs) (s.sectorPoison k)
      | .corrected j e =>
        s.putSector k (corruptData (s.sectorData k) ((s.upsetAt k).errs ++ [(j, e)])) (s.sectorPoison k)
  | none => s

/-- R219: the patrol scrub reads a line of a channel. -/
def doPatrolScrub (c line : Nat) (s : State) : State :=
  let ch := s.channel c
  if ch.state = .ready && s.refreshStep (c / 32) != 3 then
    let s1 := forEach (List.range 8) s fun s i =>
      let k := sectorKey c line i
      if (s.retryOf k).isSome || s.sectorRetired k then s else (s.readSector k).st
    s1.setChannel c { s1.channel c with patrol := ch.patrol + 1 }
  else s

/-! ## Commands: refresh and temperature (R226 to R229) -/

/-- Banks are keyed by HBM channel, pseudo-channel and bank. -/
def bankKey (c pc bank : Nat) : Nat := (c * 2 + pc) * 256 + bank

/-- R226: a due per-bank refresh. -/
def doHbmRefresh (c pc bank : Nat) (s : State) : State :=
  s.onHbm fun h => { h with refreshed := tset 0 h.refreshed (bankKey c pc bank) s.time.tick }

/-- R229: refresh management of a bank. -/
def doHbmRefreshManagement (c pc bank : Nat) (s : State) : State :=
  s.onHbm fun h => { h with managed := tset 0 h.managed (bankKey c pc bank) s.time.tick }

/-- The step of R227 at a temperature, from the step in effect: each step leaves 3 °C below its entry. -/
def nextRefreshStep (old : Nat) (t : Int) : Nat :=
  let enter := if 105 ≤ t then 3 else if 95 ≤ t then 2 else if 85 ≤ t then 1 else 0
  let stay := if 3 ≤ old && 102 ≤ t then 3 else if 2 ≤ old && 92 ≤ t then 2
    else if 1 ≤ old && 82 ≤ t then 1 else 0
  max enter stay

/-- R227: the temperature of stack `h` is read. -/
def doHbmTemperatureRead (h : Nat) (t : Int) (s : State) : State :=
  let old := s.refreshStep h
  let new := nextRefreshStep old t
  let s1 := ((s.setFld F.HBM_STACK_STATUS_TEMP (ofInt 8 (max 0 (min 255 t))) h).setFld
    F.HBM_STACK_STATUS_REFRESH new h).onPwr fun p => { p with stackTemp := tset 0 p.stackTemp h t }
  if old < new && 2 ≤ new then s1.fire (source h 75) else s1

/-! ## Bring-up and wipes (R230 to R232) -/

/-- Whether a physical byte address lies in one of some HBM channels. -/
def inChannels (chans : List Nat) (a : Nat) : Bool := chans.contains (a / channelBytes)

/-- Whole HBM channels become zero data with POISON 0 and a valid code. -/
def State.wipeChannels (s : State) (chans : List Nat) : State :=
  if chans.isEmpty then s
  else s.onHbm fun h => { h with
    cells := h.cells.filter fun p => !inChannels chans p.1,
    poison := h.poison.filter fun p => !chans.contains (keyChan p.1),
    upsets := h.upsets.filter fun p => !chans.contains (keyChan p.1),
    writebacks := h.writebacks.filter fun k => !chans.contains (keyChan k) }

/-- A D-space range becomes zero, sector by sector. -/
def State.wipeD (s : State) (base len : Nat) : State :=
  let inRange := fun (k : Nat) =>
    match s.keyOffset k with
    | some o => base ≤ o && o < base + len
    | none => false
  s.onHbm fun h => { h with
    cells := h.cells.filter fun p => !inRange (p.1 / 32),
    poison := h.poison.filter fun p => !inRange p.1,
    upsets := h.upsets.filter fun p => !inRange p.1,
    writebacks := h.writebacks.filter fun k => !inRange k }

/-- A gallery range becomes zero. -/
def State.wipeG (s : State) (base len : Nat) : State :=
  s.onMem fun m => { m with
    g := m.g.filter fun p => !(base ≤ p.1 && p.1 < base + len),
    gPoison := m.gPoison.filter fun p => !(base ≤ p.1 * 64 && p.1 * 64 < base + len) }

/-- Starts a wipe; its number. -/
def State.startWipe (s : State) (chans : List Nat) (d g : List (Nat × Nat)) : State × Nat :=
  let n := s.hbm.nextWipe
  (s.onHbm fun h => { h with
    nextWipe := n + 1,
    wipes := h.wipes ++ [{ num := n, channels := chans, dRanges := d, gRanges := g, since := s.time.tick }] }, n)

/-- Whether wipe `n` is still under way. -/
def State.wiping (s : State) (n : Nat) : Bool := s.hbm.wipes.any (·.num == n)

/-- R230: the `i`-th wipe under way finishes. A channel that wiped in bring-up is READY. -/
def doHbmWipeDone (i : Nat) (s : State) : State :=
  match s.hbm.wipes[i]? with
  | none => s
  | some w =>
    let s1 := s.wipeChannels w.channels
    let s2 := forEach w.dRanges s1 fun s r => s.wipeD r.1 r.2
    let s3 := forEach w.gRanges s2 fun s r => s.wipeG r.1 r.2
    let s4 := forEach w.channels s3 fun s c =>
      let x := s.channel c
      if x.wiping then
        s.setChannel c { x with wiping := false, state := if x.state = .retired then .retired else .ready }
      else s
    s4.onHbm fun h => { h with wipes := h.wipes.eraseIdx i }

/-- R230, R231: a bring-up step of HBM channel `c` ends, in success or not; `lanes` were repaired. -/
def doHbmBringupStep (c : Nat) (ok : Bool) (lanes : Nat) (s : State) : State :=
  let x := s.channel c
  let fail := fun (s : State) (m : Mark) =>
    (s.setChannel c { x with excluded := true }).hardSignature (channelId 3 c) 0x0B 0 m
  match x.state with
  | .off => s.setChannel c { x with state := .training }
  | .training =>
    if ok then s.setChannel c { x with state := .test, lanesRepaired := min 15 lanes } else fail s .natural
  | .test =>
    if x.wiping then s
    else
      match s.shoot 0x0B (channelId 3 c) with
      | some (s1, _, _, m) =>
        if m.nocharge then
          let (s2, _) := s1.startWipe [c] [] []
          s2.setChannel c { x with wiping := true }
        else fail s1 m
      | none =>
        if ok then
          let (s2, _) := s.startWipe [c] [] []
          s2.setChannel c { x with wiping := true }
        else fail s .natural
  | .ready => s
  | .retired => s

/-! ## Traffic generators (R232, R233) -/

/-- Check bytes of 33 symbols: the remainder of R209's generator x^3 + 7x^2 + 14x + 8. -/
def checkBytes (syms : List Nat) : List Nat :=
  syms.foldl (fun r b =>
    let f := b ^^^ r.getD 0 0
    [r.getD 1 0 ^^^ gfMul f 7, r.getD 2 0 ^^^ gfMul f 14, gfMul f 8]) [0, 0, 0]

/-- The four bytes a sector keeps on its ECC lanes: metadata and check bytes. -/
def eccBytes (line pos : Nat) (data : List Nat) (poison : Bool) : List Nat :=
  let m := sectorTag line pos * 2 + (if poison then 1 else 0)
  m :: checkBytes (data ++ [m])

/-- Byte `i` of line `line` under a pattern (R233). -/
def patternByte (pattern seed constHi line i : Nat) : Nat :=
  match pattern with
  | 0 => Config.prbsByte (seed ^^^ line) i % 256
  | 1 => (line * 32 + i / 8) / 256 ^ (i % 8) % 256
  | 2 => 2 ^ (line % 32) / 256 ^ (i % 4) % 256
  | _ => (constHi * 2 ^ 32 + seed) / 256 ^ (i % 8) % 256

/-- The 32 bytes of sector `i` of a line. -/
def patternSector (pattern seed constHi line i : Nat) : List Nat :=
  (List.range 32).map fun b => patternByte pattern seed constHi line (32 * i + b)

/-- The four bytes a raw test puts on the ECC lanes. -/
def rawEccBytes (seed k : Nat) : List Nat := toBytes 4 (Config.rawEcc seed k)

/-- Lanes of 32 bits, or of 4, on which two lists of bytes differ over the beats. -/
def laneDiff (width : Nat) (a b : List Nat) : Nat :=
  let x := leNat a ^^^ leNat b
  (List.range (a.length * 8 / width)).foldl (fun m j => m ||| x / 2 ^ (j * width) % 2 ^ width) 0

/-- Writes a sector in a test. -/
def State.tgenWrite (s : State) (k : Nat) (data : List Nat) (raw : Bool) (seed : Nat) : State :=
  let s1 := s.putSector k data false
  if raw then
    let want := rawEccBytes seed k
    let have_ := eccBytes (keyLine k) (keyPos k) data false
    let errs := ((List.range 4).map fun j => (32 + j, want.getD j 0 ^^^ have_.getD j 0)).filter (·.2 != 0)
    s1.onHbm fun h => { h with upsets := tset .none h.upsets k { errs := errs, mark := .natural } }
  else s1

/-- A mismatch: pseudo-channel, position, line, data lanes and ECC lanes. -/
structure TgenMiss where
  key : Nat
  lanes : Nat
  ecc : Nat

/-- Reads and compares a sector in a test. -/
def State.tgenCheck (s : State) (k : Nat) (want : List Nat) (raw : Bool) (seed : Nat) :
    State × Option TgenMiss :=
  if raw then
    let errs := (s.upsetAt k).errs
    let data := corruptData (s.sectorData k) errs
    let ecc := (eccBytes (keyLine k) (keyPos k) (s.sectorData k) (s.sectorPoison k)).mapIdx
      fun j b => b ^^^ errAt errs (32 + j)
    let l := laneDiff 32 data want
    let e := laneDiff 4 ecc (rawEccBytes seed k)
    (s, if l = 0 && e = 0 then none else some { key := k, lanes := l, ecc := e })
  else
    let r := s.readSector k
    let l := laneDiff 32 r.data want
    (r.st, if l = 0 && !r.poison then none else some { key := k, lanes := l, ecc := 0 })

/-- The sectors of a line that a mask of pseudo-channels tests. -/
def maskedSectors (mask : Nat) : List Nat :=
  let m := if mask = 0 then 3 else mask
  (List.range 8).filter fun i => bit m (i % 2) == 1

/-- One line of a run. -/
def State.tgenLine (s : State) (c line : Nat) : State × List TgenMiss :=
  let op := s.fld F.TGEN_CTRL_OP c
  let pat := s.fld F.TGEN_CTRL_PATTERN c
  let raw := s.fld F.TGEN_CTRL_RAW c = 1
  let seed := s.reg .TGEN_SEED c
  let hi := s.reg .TGEN_CONST_HI c
  let secs := maskedSectors (s.fld F.TGEN_CTRL_PC_MASK c)
  let want := fun i => patternSector pat seed hi line i
  let s1 := if op = 0 || op = 2 then
      forEach secs s fun s i => s.tgenWrite (sectorKey c line i) (want i) raw seed
    else s
  if op = 1 || op = 2 then
    secs.foldl (fun acc i =>
      let (s, m) := acc.1.tgenCheck (sectorKey c line i) (want i) raw seed
      (s, acc.2 ++ m.toList)) (s1, [])
  else (s1, [])

/-- The first mismatch of a run: in linear order the first; in PRBS order one that the manual leaves open. -/
def firstMiss (prbs : Bool) (free : Nat) (l : List TgenMiss) : Option TgenMiss :=
  if prbs then l[free % l.length]? else l.head?

/-- Effects of a write of START (R232, R233). OP 3 is reserved and refused. -/
def State.tgenStart (s : State) (c : Nat) : State :=
  if (s.channel c).state != .test || (s.channel c).wiping || s.fld F.TGEN_CTRL_OP c = 3 then
    s.setFld F.TGEN_STATUS_REFUSED 1 c
  else
    let s1 := (((s.clearReg .TGEN_ERRORS c).clearReg .TGEN_FIRST_FAIL c).clearReg .TGEN_LANES0 c).clearReg
      .TGEN_LANES1 c
    (((s1.setFld F.TGEN_STATUS_STATE 1 c).setFld F.TGEN_STATUS_FAIL 0 c).setFld
      F.TGEN_STATUS_ECC_LANES_PC0 0 c).setFld F.TGEN_STATUS_ECC_LANES_PC1 0 c

/-- Effects of a write of ABORT: the run ends in state 3. -/
def State.tgenAbort (s : State) (c : Nat) : State :=
  let s1 := s.setFld F.TGEN_STATUS_STATE 3 c
  if s.fld F.TGEN_STATUS_STATE c = 1 then s1.fire (source (c / 32) 97) else s1

/-- Marks the lanes of a mismatch. -/
def State.tgenMark (s : State) (c : Nat) (m : TgenMiss) : State :=
  let s1 := s.addFld F.TGEN_ERRORS_COUNT 1 c
  let set := fun (s : State) (f : Fld) (x : Nat) => s.setFld f (s.fld f c ||| x) c
  if keyPc m.key = 0 then
    set (set s1 F.TGEN_LANES0_LANES m.lanes) F.TGEN_STATUS_ECC_LANES_PC0 m.ecc
  else set (set s1 F.TGEN_LANES1_LANES m.lanes) F.TGEN_STATUS_ECC_LANES_PC1 m.ecc

/-- R233: a run finishes its lines. -/
def doTgenRunComplete (c : Nat) (s : State) : State :=
  if s.fld F.TGEN_STATUS_STATE c = 1 && (s.channel c).state == .test then
    let start := s.fld F.TGEN_START_LINE_START_LINE c
    let asked := s.fld F.TGEN_COUNT_COUNT c
    let room := 6291456 - start
    let n := if asked = 0 then room else min asked room
    let (s1, misses) := (upTo start n).foldl (fun acc l =>
      let (s, m) := acc.1.tgenLine c l
      (s, acc.2 ++ m)) (s, [])
    let s2 := forEach misses s1 fun s m => s.tgenMark c m
    let prbs := s.fld F.TGEN_CTRL_ORDER c = 1
    let s3 := { s2 with drawn := s2.drawn + 1 }
    let s4 := match firstMiss prbs (Config.freeValue s2.drawn) misses with
      | some m =>
        (((s3.setFld F.TGEN_FIRST_FAIL_VALID 1 c).setFld F.TGEN_FIRST_FAIL_PC (keyPc m.key) c).setFld
          F.TGEN_FIRST_FAIL_POSITION (keyPos m.key) c).setFld F.TGEN_FIRST_FAIL_LINE (keyLine m.key) c
      | none => s3
    ((s4.setFld F.TGEN_STATUS_STATE 2 c).setFld F.TGEN_STATUS_FAIL (if misses.isEmpty then 0 else 1) c).fire
      (source (c / 32) 97)
  else s

end Sys2Proof.Machine
end

