-- ==== Sys2Proof/Machine/Ops.lean ====
section
/-! DEFINITION. Named operations over memory: galleries, alcove stores, mezzanines, reads and writes of a
global address of this device, and arrival counters (R178 to R200). -/

namespace Sys2Proof.Machine

/-! ## Byte memories with poisoned units -/

/-- Bytes of a byte memory. -/
def loadBytes (cells : List Host.Cell) (a len : Nat) : List Nat :=
  (List.range len).map fun i => (tget 0 cells (a + i)).toNat

/-- The poison mark of each byte, of a memory that marks units of `u` bytes. -/
def unitMarks (poison : Tbl Bool) (u a len : Nat) : List Bool :=
  (List.range len).map fun i => tget false poison ((a + i) / u)

/-- The marks after a write: a unit written whole takes the poison of its data; one written in part keeps its
mark and takes poison of its data (log 31). -/
def markUnits (poison : Tbl Bool) (u a : Nat) (marks : List Bool) : Tbl Bool :=
  let len := marks.length
  let first := a / u
  forEach (List.range ((a + len + u - 1) / u - first)) poison fun t i =>
    let k := first + i
    let lo := max a (k * u)
    let hi := min (a + len) ((k + 1) * u)
    let dirty := (slice marks (lo - a) (hi - lo)).any id
    if hi - lo = u then tset false t k dirty else tset false t k (tget false t k || dirty)

/-! ## Galleries -/

/-- A due shot of row 0x14 at a read of gallery words (R468): with STORE 0 only this read is poisoned. -/
def State.galleryShot (s : State) (a len : Nat) : State × List Nat :=
  let hall := a / 2 ^ 26
  let words := fun p => a / 64 ≤ (hall * 2 ^ 26 + p) / 64 && (hall * 2 ^ 26 + p) / 64 ≤ (a + len - 1) / 64
  match s.shoot 0x14 hall words with
  | some (s1, store, p, m) =>
    let w := (hall * 2 ^ 26 + p % 2 ^ 26) / 64
    let (s2, _) := s1.record { RasRecord.blank with
      kind := kindPermanent, detector := 0x14, location := [hall] ++ toBytes 4 (p % 2 ^ 26),
      flags := if m.injected then flagInjected else 0 }
    if store then (s2.onMem fun x => { x with gPoison := tset false x.gPoison w true }, [])
    else (s2, [w])
  | none => (s, [])

/-- A read of the galleries by gallery byte number. -/
def State.readG (s : State) (a len : Nat) : DRead :=
  let (s1, extra) := if len = 0 then (s, []) else s.galleryShot a len
  let marks := (unitMarks s1.mem.gPoison 64 a len).mapIdx fun i m => m || extra.contains ((a + i) / 64)
  { st := s1, data := loadBytes s1.mem.g a len, marks := marks, poison := marks.any id, cause := 0,
    region := none }

/-- A write of the galleries. -/
def State.writeG (s : State) (a : Nat) (bytes : List Nat) (marks : List Bool) : State :=
  s.onMem fun m => { m with
    g := storeBytes m.g a bytes, gPoison := markUnits m.gPoison 64 a marks }

/-! ## Alcove stores -/

/-- What an SRAM read of the store of alcove `n` meets: wrong stored bits and due shots of rows 0x0C and 0x0D
in the granules read (R425, R468). -/
def State.storeEvents (s : State) (n a len : Nat) : State × List Nat :=
  let gran := fun (x : Nat) => a / 32 ≤ x / 32 && x / 32 ≤ (a + len - 1) / 32
  let charge := fun (s : State) (cls : EventClass) (det at_ : Nat) (m : Mark) =>
    (s.charge (channelId 4 n) cls { RasRecord.blank with detector := det, location := toBytes 4 at_ } m).1
  let (s1, bad1) := match s.shoot 0x0D (channelId 4 n) gran with
    | some (s1, store, p, m) =>
      let s2 := charge s1 .tue 0x0D p m
      if store then
        (s2.onAlcove n fun x => { x with storePoison := tset false x.storePoison (p / 32) true }, [])
      else (s2, [p / 32])
    | none => (s, [])
  let s2 := match s1.shoot 0x0C (channelId 4 n) gran with
    | some (s2, store, p, m) =>
      if store then
        s2.onAlcove n fun x => { x with upsets := tset .none x.upsets (p / 8) { errs := [(0, 1)], mark := m } }
      else charge s2 .ce 0x0C p m
    | none => s1
  let wrong := (s2.alcove n).upsets.filter fun u => a / 8 ≤ u.1 && u.1 ≤ (a + len - 1) / 8
  (forEach wrong s2 fun s u => charge s .ce 0x0C (u.1 * 8) u.2.mark, bad1)

/-- A read of the store of alcove `n`. -/
def State.readS (s : State) (n a len : Nat) : DRead :=
  let (s1, extra) := if len = 0 then (s, []) else s.storeEvents n a len
  let x := s1.alcove n
  let marks := (unitMarks x.storePoison 32 a len).mapIdx fun i m => m || extra.contains ((a + i) / 32)
  { st := s1, data := loadBytes x.store a len, marks := marks, poison := marks.any id, cause := 0,
    region := none }

/-- The upsets of words that a write does not cover whole. -/
def clearWords (u : Tbl Upset) (a len : Nat) : Tbl Upset :=
  u.filter fun p => !(a ≤ p.1 * 8 && p.1 * 8 + 8 ≤ a + len)

/-- A write of the store of an alcove. -/
def Alcove.writeS (x : Alcove) (a : Nat) (bytes : List Nat) (marks : List Bool) : Alcove :=
  { x with store := storeBytes x.store a bytes, storePoison := markUnits x.storePoison 32 a marks,
           upsets := clearWords x.upsets a bytes.length }

def State.writeS (s : State) (n a : Nat) (bytes : List Nat) (marks : List Bool) : State :=
  s.onAlcove n fun x => x.writeS a bytes marks

/-! ## Instruction stores (R53 to R56, R525) -/

/-- The 128 bytes of a bundle. -/
def bundleBytes (b : BitVec 1024) : List Nat := toBytes 128 b.toNat

/-- A read of the instruction store of alcove `n` as a copy source. -/
def State.readI (s : State) (n a len : Nat) : DRead :=
  let x := s.alcove n
  let first := a / 128
  let k := (a + len + 127) / 128 - first
  let data := (upTo first k).flatMap fun b => bundleBytes (tget 0 x.istore b)
  let marks := (List.range len).map fun i => tget false x.istorePoison ((a + i) / 128)
  { st := s, data := slice data (a % 128) len, marks := marks, poison := marks.any id, cause := 0, region := none }

/-- Applies one held bundle. -/
def Alcove.applyHeld (x : Alcove) (w : HeldWrite) : Alcove :=
  { x with istore := tset 0 x.istore w.bundle w.bits,
           istorePoison := tset false x.istorePoison w.bundle w.poison }

/-- Whether a unit has an incomplete shift (R55, R115). -/
def XUnit.shifting (u : XUnit) : Bool := u.shift.isSome

def Alcove.unit (x : Alcove) (u : Nat) : XUnit := tget .reset x.units u

def Alcove.setUnit (x : Alcove) (u : Nat) (y : XUnit) : Alcove := { x with units := tset .reset x.units u y }

def Alcove.shifting (x : Alcove) : Bool := (List.range 4).any fun u => (x.unit u).shifting

/-- A unit whose incomplete shift a forced write discards: both planes become invalid (R56). -/
def XUnit.discardShift (u : XUnit) : XUnit :=
  if u.shifting then
    { u with
      shift := none, active := { u.active with state := .invalid }, shadow := { u.shadow with state := .invalid },
      viewActive := { u.viewActive with state := .invalid }, viewShadow := { u.viewShadow with state := .invalid } }
  else u

/-- The bundles of a packet for I-space. -/
def packetBundles (a : Nat) (bytes : List Nat) (marks : List Bool) (engine copy packet : Nat) : List HeldWrite :=
  let k := bytes.length / 128
  (List.range k).map fun i =>
    { bundle := a / 128 + i, bits := BitVec.ofNat 1024 (leNat (slice bytes (128 * i) 128)),
      poison := (slice marks (128 * i) 128).any id, engine := engine, copy := copy, packet := packet,
      last := i + 1 == k }

/-- A packet reaches the instruction store of alcove `n` (R55, R56): the state after, and whether it was applied
at once. -/
def State.writeI (s : State) (n a : Nat) (bytes : List Nat) (marks : List Bool) (engine copy packet : Nat) :
    State × Bool :=
  let x := s.alcove n
  let ws := packetBundles a bytes marks engine copy packet
  let busy := x.shifting
  let s := s.onVst fun v => { v with images := tdel v.images n }
  if s.fld F.ALC_CTRL_ISTORE_FORCE n = 1 then
    let y := (List.range 4).foldl (fun x u => x.setUnit u (x.unit u).discardShift) x
    let s1 := s.setAlcove n (ws.foldl Alcove.applyHeld y)
    (if busy then s1.addFld F.ALC_ISTORE_HOLD_FORCED 1 n else s1, true)
  else if busy || !x.held.isEmpty then
    let known := x.held.any fun w => w.engine == engine && w.copy == copy
    let s1 := s.setAlcove n { x with held := x.held ++ ws }
    (if known then s1 else s1.addFld F.ALC_ISTORE_HOLD_HELD 1 n, false)
  else (s.setAlcove n (ws.foldl Alcove.applyHeld x), true)

/-! ## Mezzanines (R192 to R197) -/

/-- The ways partition `p` holds in hall `h`'s mezzanine (R18, R192). -/
def State.mezWays (s : State) (p h : Nat) : Nat :=
  if s.holdsHall p h then 16 else if s.inHall p h then 8 else 0

/-- The set of a line (log 32). -/
def mezSet (line : Nat) : Nat := line % 4096

def State.mezLines (s : State) (h : Nat) : List MezLine := tget [] s.mem.mezz h

def State.setMez (s : State) (h : Nat) (l : List MezLine) : State :=
  s.onMem fun m => { m with mezz := tset [] m.mezz h l }

/-- Fills a line as most recently used and drops what no longer fits its partition's ways. -/
def fillLine (l : List MezLine) (x : MezLine) (ways : Nat) : List MezLine :=
  let rest := l.filter fun y => !(y.line == x.line && y.part == x.part)
  let mates := (rest.filter fun y => mezSet y.line == mezSet x.line && y.part == x.part).take (ways - 1)
  x :: rest.filter fun y => !(mezSet y.line == mezSet x.line && y.part == x.part) || mates.contains y

/-- Invalidates the lines of hall `h` that a test picks. -/
def State.dropLines (s : State) (h : Nat) (which : MezLine → Bool) : State :=
  let l := s.mezLines h
  let k := (l.filter which).length
  if k = 0 then s
  else (s.setMez h (l.filter fun x => !which x)).wrapFld F.MEZ_INVAL_LINES_COUNT k h

/-- Invalidates the lines that a range overlaps (R193). -/
def State.dropRange (s : State) (h off len : Nat) : State :=
  if len = 0 then s
  else s.dropLines h fun x => off / 256 ≤ x.line && x.line ≤ (off + len - 1) / 256

/-- The same in all eight mezzanines. -/
def State.dropRangeAll (s : State) (off len : Nat) : State :=
  forEach (List.range 8) s fun s h => s.dropRange h off len

/-- Poison marks of a line's bytes. -/
def MezLine.marks (x : MezLine) : List Bool := (List.range 256).map fun i => bit x.poison (i / 32) == 1

/-- A mask of the sectors of a line whose bytes are marked. -/
def sectorMask (marks : List Bool) : Nat :=
  (List.range 8).foldl (fun m i => if marks.getD (32 * i) false then setBit m i else m) 0

/-- Reads the part of a line that [off, off + len) covers, through hall `h`'s mezzanine for partition `p`. -/
def State.readLine (s : State) (h p off len : Nat) : DRead :=
  let line := off / 256
  let l := s.mezLines h
  let hit := l.find? fun x => x.line == line && x.part == p
  let (s0, hit) := match hit with
    | some x =>
      -- row 0x15: the hit line is found wrong, invalidated, and read from the point of coherence
      match s.shoot 0x15 h with
      | some (s1, _, _, m) =>
        let (s2, _) := s1.record { RasRecord.blank with
          kind := kindTransient, detector := 0x15, location := [h] ++ toBytes 4 line,
          flags := if m.injected then flagInjected else 0 }
        (s2.dropLines h (· == x), none)
      | none => (s, some x)
    | none => (s, none)
  match hit with
  | some x =>
    let s1 := (s0.setMez h (x :: (s0.mezLines h).filter (· != x))).wrapFld F.MEZ_HITS_COUNT 1 h
    let marks := slice x.marks (off % 256) len
    { st := s1, data := slice x.bytes (off % 256) len, marks := marks, poison := marks.any id, cause := 0,
      region := if marks.any id then (s1.regionAt off).map (·.num) else none }
  | none =>
    let r := s0.readD (line * 256) 256
    let x : MezLine := { line := line, bytes := r.data, poison := sectorMask r.marks, part := p }
    let s1 := (r.st.setMez h (fillLine (r.st.mezLines h) x (r.st.mezWays p h))).wrapFld F.MEZ_MISSES_COUNT 1 h
    let marks := slice r.marks (off % 256) len
    { r with st := s1, data := slice r.data (off % 256) len, marks := marks, poison := marks.any id }

/-- Reads line by line; `fuel` bounds the lines. -/
def State.readLines (s : State) (h p : Nat) : (fuel off len : Nat) → DRead
  | 0, _, _ => { st := s, data := [], poison := false, cause := 0, region := none }
  | n + 1, off, len =>
    if len = 0 then { st := s, data := [], poison := false, cause := 0, region := none }
    else
      let k := min len (256 - off % 256)
      let r := s.readLine h p off k
      let t := r.st.readLines h p n (off + k) (len - k)
      { st := t.st, data := r.data ++ t.data, marks := r.marks ++ t.marks, poison := r.poison || t.poison,
        cause := if r.cause != 0 then r.cause else t.cause, region := r.region.or t.region }

/-- A D-space read of a copy engine or narrow path in hall `h` for partition `p` (R192, R194). -/
def State.readCached (s : State) (h : Nat) (p : Option Nat) (vol : Bool) (off len : Nat) : DRead :=
  match p with
  | some p =>
    if !vol && s.fld F.MEZ_CTRL_ENABLE h == 1 && 0 < s.mezWays p h then
      s.readLines h p (len / 256 + 2) off len
    else s.readD off len
  | none => s.readD off len

/-! ## Arrival counters (R198, R199) -/

def counterKey (hall idx : Nat) : Nat := hall * 4096 + idx

def State.counter (s : State) (hall idx : Nat) : Counter := tget .reset s.mem.counters (counterKey hall idx)

def State.setCounter (s : State) (hall idx : Nat) (c : Counter) : State :=
  s.onMem fun m => { m with counters := tset .reset m.counters (counterKey hall idx) c }

/-- A counted packet of `len` bytes (R198). -/
def State.countPacket (s : State) (hall idx len : Nat) : State :=
  let c := s.counter hall idx
  s.setCounter hall idx { c with count := c.count + BitVec.ofNat 64 (if c.packets then 1 else len) }

/-! ## D-space written by the vestibule, a hall controller or the host (R193) -/

/-- Writes D-space and invalidates the lines in every mezzanine. -/
def State.writeDAll (s : State) (off : Nat) (bytes : List Nat) (poison : Nat := 0) : State :=
  (s.writeD off bytes poison).dropRangeAll off bytes.length

/-- Marks as a mask of 32-byte parts, counted from the first byte. -/
def partMask (marks : List Bool) : Nat :=
  (List.range ((marks.length + 31) / 32)).foldl (fun m i =>
    if (slice marks (32 * i) 32).any id then setBit m i else m) 0

/-- A read of any space of this device by a copy engine of hall `h` (R185, R187). -/
def State.readSpace (s : State) (h : Nat) (p : Option Nat) (vol : Bool) (ga len : Nat) : DRead :=
  let off := gaOffset ga
  match gaSpace ga with
  | 0 => s.readCached h p vol off len
  | 1 => s.readG (gByte off) len
  | 2 => s.readS (siAlcove off) (siByte off) len
  | 3 => s.readI (siAlcove off) (siByte off) len
  | _ => { st := s, data := zeros len, marks := List.replicate len true, poison := true, cause := 0,
           region := none }

/-! ## Targets under structural scan (R454, R456) -/

/-- The alcove store of zeros (R62). -/
def Alcove.wipeStore (x : Alcove) : Alcove := { x with store := [], storePoison := [], upsets := [] }

/-- An alcove whose storage is wiped (R454): stores, registers, planes and tiles. -/
def Alcove.wiped (x : Alcove) : Alcove :=
  { Alcove.reset with
    core := { Core.reset with state := x.core.state }, spare := x.spare, lastVi := none }

/-- The target of a scan is wiped (R454). -/
def State.wipeTarget (s : State) (ch : Nat) : State :=
  if chanKind ch = 4 && chanIndex ch < 256 then
    (s.onAlcove (chanIndex ch) Alcove.wiped).onVst fun v => { v with images := tdel v.images (chanIndex ch) }
  else s

/-- A target under scan is needed: its scan is aborted, and the target wiped (R456). -/
def State.abortScan (s : State) (ch : Nat) : State :=
  match s.sdc.scans.find? fun p => (p.2.map (·.target)) == some ch with
  | some (h, _) =>
    ((s.onSdc fun d => { d with scans := tset none d.scans h none }).addFld F.SDC_SCAN_ABORT_COUNT 1).wipeTarget ch
  | none => s

end Sys2Proof.Machine
end

