-- ==== Sys2Proof/Machine/Link.lean ====
section
/-! DEFINITION. Routing between devices and a port's queues (R373, R380 to R384, R389). -/

namespace Sys2Proof.Machine

/-! ## What a message says of itself -/

/-- The long header of a message. -/
def LinkMsg.hdr? : LinkMsg → Option LongHdr
  | .write h _ => some h
  | .atomic h _ => some h
  | .readReq h => some h
  | .readCpl h _ => some h
  | _ => none

def LinkMsg.setHdr (m : LinkMsg) (f : LongHdr → LongHdr) : LinkMsg :=
  match m with
  | .write h d => .write (f h) d
  | .atomic h d => .atomic (f h) d
  | .readReq h => .readReq (f h)
  | .readCpl h d => .readCpl (f h) d
  | m => m

/-- Destination device of a routed message. -/
def LinkMsg.dst? : LinkMsg → Option Nat
  | .ack _ _ _ _ dst _ => some dst
  | m => m.hdr?.map (·.dst)

def LinkMsg.flow : LinkMsg → Nat
  | .write h _ => h.flow
  | .atomic h _ => h.flow
  | _ => 0

def LinkMsg.hops : LinkMsg → Nat
  | .ack _ _ _ hops _ _ => hops
  | m => (m.hdr?.map (·.hops)).getD 0

/-- The lower VC of a message's class (R373). -/
def LinkMsg.baseVc : LinkMsg → Nat
  | .write .. => 0
  | .atomic .. => 0
  | .readReq .. => 2
  | .readCpl .. => 4
  | .ack .. => 4
  | .ascent .. => 6
  | .descent .. => 6
  | _ => 7

/-- A message on a VC, one link further. -/
def LinkMsg.stepHop (m : LinkMsg) (vc : Nat) : LinkMsg :=
  match m with
  | .ack _ st ag hops dst pseq => .ack vc st ag (hops + 1) dst pseq
  | m => m.setHdr fun h => { h with vc := vc, hops := h.hops + 1 }

/-- The number whose remainder picks the port of a mask (R381). An ACK's source is this device's own ID. -/
def State.spread (s : State) (m : LinkMsg) : Nat :=
  match m with
  | .ack _ _ ag _ dst pseq => s.deviceId ^^^ dst ^^^ ag * 512 ^^^ pseq % 2 ^ 20
  | m =>
    match m.hdr? with
    | some h => h.src ^^^ h.dst ^^^ h.agent * 512 ^^^ h.addr / 4096 % 2 ^ 20
    | none => 0

/-! ## Routes (R380, R381, R384) -/

/-- Coordinate of a device ID in dimension `d`. -/
def State.coord (s : State) (d dev : Nat) : Nat :=
  dev / 2 ^ s.fld F.CLZ_DIM_SHIFT 0 d % 2 ^ s.fld F.CLZ_DIM_WIDTH 0 d

/-- The port mask of direction `k`. -/
def State.dirMask (s : State) (k : Nat) : Nat := s.reg .CLZ_DIR_LO 0 k + 2 ^ 32 * s.reg .CLZ_DIR_HI 0 k

/-- The lowest dimension in which a destination differs, with the direction. -/
def State.dimStep (s : State) (dst : Nat) : Option (Nat × Nat) :=
  match (List.range 4).find? fun d =>
      s.fld F.CLZ_DIM_VALID 0 d == 1 && s.coord d s.deviceId != s.coord d dst with
  | some d =>
    let size := max 1 (s.fld F.CLZ_DIM_SIZE 0 d)
    let own := s.coord d s.deviceId
    let dest := s.coord d dst
    let e := if s.fld F.CLZ_DIM_RING 0 d = 1 then
        (if 2 * ((dest + size - own % size) % size) ≤ size then 0 else 1)
      else if own < dest then 0 else 1
    some (d, e)
  | none => none

/-- How a message leaves (R381): one port of a flow, or a mask with the dimension step that gave it. -/
inductive Route
  | flow (port : Nat)
  | mask (m : Nat) (dim : Option (Nat × Nat))
  deriving DecidableEq, Repr

def State.exception (s : State) (dst : Nat) : Option Nat :=
  match (List.range 256).find? fun i =>
      s.fld F.CLZ_EXC_MATCH_VALID 0 i == 1 &&
        dst &&& s.fld F.CLZ_EXC_MASK_MASK 0 i == s.fld F.CLZ_EXC_MATCH_MATCH 0 i with
  | some i => some (s.reg .CLZ_EXC_PORTS_LO 0 i + 2 ^ 32 * s.reg .CLZ_EXC_PORTS_HI 0 i)
  | none => none

/-- Index of `CLZ_FLOW`[f] among its registers, whose first is flow 1. -/
def flowIndex (f : Nat) : Nat := f - 1

def State.routeOf (s : State) (m : LinkMsg) : Route :=
  let dst := m.dst?.getD 0
  if m.flow != 0 && s.fld F.CLZ_FLOW_VALID 0 (flowIndex m.flow) = 1 then
    .flow (s.fld F.CLZ_FLOW_PORT 0 (flowIndex m.flow))
  else
    match s.exception dst with
    | some p => .mask p none
    | none =>
      match s.dimStep dst with
      | some (d, e) => .mask (s.dirMask (2 * d + e)) (some (d, e))
      | none => .mask 0 none

/-- Whether a port carries data: ACTIVE with role link. -/
def State.dataPort (s : State) (p : Nat) : Bool := (s.port p).state == .active && (s.port p).role == 1

/-- The port a message leaves by now; none when it must wait (R382). -/
def State.routePort (s : State) (m : LinkMsg) : Option Nat :=
  match s.routeOf m with
  | .flow p => if s.dataPort p then some p else none
  | .mask k _ =>
    let ports := (List.range 64).filter fun p => bit k p == 1 && s.dataPort p
    if ports.isEmpty then none else ports[s.spread m % ports.length]?

/-- The port that counts a drop of a message of this device: the lowest of its route (log 33). -/
def State.routeLowest (s : State) (m : LinkMsg) : Nat :=
  match s.routeOf m with
  | .flow p => p
  | .mask k _ => ((List.range 64).find? fun p => bit k p == 1).getD 0

/-- The VC of a message's next link (R384). `ingress` is the port it came in by and the VC it used there. -/
def State.nextVc (s : State) (m : LinkMsg) (ingress : Option (Nat × Nat)) : Nat :=
  let base := m.baseVc
  match s.routeOf m with
  | .mask _ (some (d, e)) =>
    let size := max 1 (s.fld F.CLZ_DIM_SIZE 0 d)
    let own := s.coord d s.deviceId
    let crosses := s.fld F.CLZ_DIM_RING 0 d = 1 && ((e = 0 && own + 1 = size) || (e = 1 && own = 0))
    let stays := match ingress with
      | some (p, vc) =>
        vc == base + 1 && (bit (s.dirMask (2 * d)) p == 1 || bit (s.dirMask (2 * d + 1)) p == 1)
      | none => false
    if crosses || stays then base + 1 else base
  | _ =>
    match ingress with
    | some (_, vc) => vc
    | none => base

/-! ## Sending and waiting -/

/-- Whether port `p` has an armed window for flow `f` (R387, R389). -/
def State.armedFlow (s : State) (p f : Nat) : Bool :=
  (List.range 16).any fun w =>
    (s.fld F.CLZ_WIN_CFG_STATE p w == 1 || s.fld F.CLZ_WIN_CFG_STATE p w == 2) &&
      s.fld F.CLZ_WIN_CFG_FLOW p w == f

/-- Puts a routed message on an egress port (R389). -/
def State.egress (s : State) (p vc : Nat) (m : LinkMsg) : State :=
  let m1 := m.stepHop vc
  if m.flow = 0 then s.sendLink p vc m1
  else if s.armedFlow p m.flow then s.onPort p fun x => { x with flows := x.flows ++ [m1] }
  else (s.sendLink p vc m1).addFld F.CLZ_WIN_MISS_COUNT 1 p

/-- Sets a bit of `CLZ_EVENT` of a port (source 84 + p mod 8 of its hall). -/
def State.clzEvent (s : State) (f : Fld) (p : Nat) : State := s.raise f (source (p / 8) (84 + p % 8)) p

/-- A message is dropped (R382). -/
def State.dropMsg (s : State) (p : Nat) : State :=
  (s.addFld F.CLZ_DROPPED_COUNT 1 p).clzEvent F.CLZ_EVENT_DROP p

/-- The pool of a received message's slots (R390). -/
def slotPool (vc : Nat) (win : Bool) : Nat := if win && vc < 6 then 8 else vc

/-- Sends a message for another device on its way, or lets it wait at its ingress (R381, R382). Messages of
this device wait at the port that would count their drop. -/
def State.forward (s : State) (m : LinkMsg) (ingress : Option (Nat × Nat)) (win : Bool := false) : State :=
  let at_ := match ingress with
    | some (p, _) => p
    | none => s.routeLowest m
  let freed := fun (s : State) =>
    match ingress with
    | some (p, vc) => s.creditSlots p (slotPool vc win) m.slots
    | none => s
  if 63 < m.hops + 1 then freed (s.dropMsg at_)
  else
    match s.routePort m with
    | some p => freed (s.egress p (s.nextVc m ingress) m)
    | none =>
      let vc := match ingress with
        | some (_, v) => v
        | none => m.baseVc
      s.onPort at_ fun x => { x with
        ingress := x.ingress ++ [{ msg := m, vc := vc, since := s.time.tick, own := ingress.isNone, win := win }] }

/-- What a waiting message's leaving frees. -/
def State.leaveIngress (s : State) (p : Nat) (w : Ingress) : State :=
  if w.own then s else s.creditSlots p (slotPool w.vc w.win) w.msg.slots

/-- Tries the waiting messages of every port again, as when a port state or a routing register changes
(R382). -/
def State.retryRoutes (s : State) : State :=
  forEach (List.range 64) s fun s p =>
    let waiting := (s.port p).ingress
    if waiting.isEmpty then s
    else
      let s1 := forEach waiting (s.onPort p fun x => { x with ingress := [] }) fun s w =>
        let ing := if w.own then none else some (p, w.vc)
        match s.routePort w.msg with
        | some q => (s.egress q (s.nextVc w.msg ing) w.msg).leaveIngress p w
        | none => s.onPort p fun x => { x with ingress := x.ingress ++ [w] }
      if (s1.port p).owed = (s.port p).owed then s1 else s1.sendIdle p

end Sys2Proof.Machine
end

