-- ==== Sys2Proof/Machine/Copy.lean ====
section
/-! DEFINITION. Copy requests and copy engines (R181 to R205, R379, R432, R433, R438): checks, packets,
destination points, acknowledgements, remote packets, the receipt filter and gallery bursts. -/

namespace Sys2Proof.Machine

/-! ## Operations of work queues -/

def State.queue (s : State) (q : Nat) : Option WorkQ := tget none s.vst.queues q

def State.setQueue (s : State) (q : Nat) (w : WorkQ) : State :=
  s.onVst fun v => { v with queues := tset none v.queues q (some w) }

/-- Changes queue `q` if it exists. -/
def State.onQueue (s : State) (q : Nat) (f : WorkQ → WorkQ) : State :=
  match s.queue q with
  | some w => s.setQueue q (f w)
  | none => s

/-- Operation `i` of the buffer that queue `q` runs. -/
def State.op? (s : State) (q i : Nat) : Option Operation :=
  match s.queue q with
  | some w =>
    match w.buffer with
    | some b => b.ops.find? (·.idx == i)
    | none => none
  | none => none

/-- Changes operation `i` of queue `q`. -/
def State.onOp (s : State) (q i : Nat) (f : Operation → Operation) : State :=
  s.onQueue q fun w => { w with
    buffer := w.buffer.map fun b => { b with ops := b.ops.map fun o => if o.idx = i then f o else o } }

/-! FLAGS of a completion record (R311). -/

def opLate : Nat := 0x001
def opUnaligned : Nat := 0x002
def opTokenOverflow : Nat := 0x004
def opDoubleArrival : Nat := 0x008
def opPoison : Nat := 0x010
def opChecksum : Nat := 0x020
def opLostOverflow : Nat := 0x040
def opRoot : Nat := 0x080
def opUnvalidated : Nat := 0x100
def opQuarantineHeld : Nat := 0x200

/-- Sets a flag of an operation's record. -/
def Operation.flag (o : Operation) (f : Nat) : Operation := { o with flags := o.flags ||| f }

/-- Flags an operation LATE with a deficit (R44, R246); the largest is kept (log 38). -/
def Operation.lateBy (o : Operation) (d : Nat) : Operation :=
  { o.flag opLate with deficit := max o.deficit (min 0xFFFFFFFF d) }

/-- What a read of an operation's data met (R335, R431, R439). -/
def Operation.met (o : Operation) (poison : Bool) (cause : Nat) (region : Option Nat) : Operation :=
  { o with
    flags := if poison then o.flags ||| opPoison else o.flags,
    cause := if o.cause = 0 then cause else o.cause,
    sharedPoison := o.sharedPoison.or (if poison then region else none) }

/-- Launches are in LAUNCH of the record (R311). -/
def State.launched (s : State) (q i now : Nat) : State :=
  s.onOp q i fun o => { o with
    state := .running, launched := true, launch := if o.launch = 0 then now else o.launch }

/-! ## Requests (R181 to R184) -/

def CopyReq.kind (r : CopyReq) : Nat := bits r.w2 63 60
def CopyReq.vol (r : CopyReq) : Bool := bit r.w2 59 == 1
def CopyReq.cls (r : CopyReq) : Nat := bits r.w2 58 57
def CopyReq.aop (r : CopyReq) : Nat := bits r.w2 56 53
def CopyReq.afmt (r : CopyReq) : Nat := bits r.w2 52 50
def CopyReq.counter (r : CopyReq) : Nat := bits r.w2 47 32
def CopyReq.window (r : CopyReq) : Nat := bits r.w2 31 24
def CopyReq.rowBytes (r : CopyReq) : Nat := bits r.w2 23 0
def CopyReq.rows (r : CopyReq) : Nat := bits r.w3 63 48
def CopyReq.dstStride (r : CopyReq) : Nat := bits r.w3 47 24
def CopyReq.srcStride (r : CopyReq) : Nat := bits r.w3 23 0

def kindCopy : Nat := 0
def kindFill : Nat := 1
def kindAtomic : Nat := 2
def kindCset : Nat := 3

/-- Element bytes of AFMT. -/
def atomicSize (afmt : Nat) : Nat := [4, 2, 2, 4, 4, 8, 8].getD afmt 1

/-- Whether AFMT is floating. -/
def atomicFloat (afmt : Nat) : Bool := afmt < 3

/-- The fields of an address that R179 requires to be zero are zero, and it names a space. -/
def addressFields (ga : Nat) : Bool :=
  let off := gaOffset ga
  match gaSpace ga with
  | 0 => true
  | 1 => off < 2 ^ 29
  | 2 => off < 2 ^ 29
  | 3 => off < 2 ^ 29 && bits off 20 19 == 0
  | 4 => off < 2 ^ 29 && bits off 5 0 == 0 && tKind off < 3
  | _ => false

/-- Every row of a copy at one address is acceptable for `v` (R184). -/
def State.rowsOk (s : State) (v ga stride rows len : Nat) (write : Bool) : Bool :=
  (List.range rows).all fun r =>
    let a := ga + r * stride
    gaDevice a == gaDevice ga && gaSpace a == gaSpace ga && s.namesMemory a len && s.viMay v a len write

/-- Alignment of an address, of the row length and of a stride to `n` bytes. -/
def alignedTo (n x : Nat) : Bool := x % n == 0

/-- The checks of R182 to R184 for a request of virtual interface `v`: the first failing word plus 1. -/
def State.copyFails (s : State) (v : Nat) (r : CopyReq) : Option Nat :=
  let dev := s.deviceId
  let localSrc := gaDevice r.w0 == dev
  let localDst := gaDevice r.w1 == dev
  let elem := if r.kind = kindAtomic then atomicSize r.afmt else 1
  let usesSrc := r.kind == kindCopy || r.kind == kindAtomic
  let srcOk :=
    !usesSrc ||
      (addressFields r.w0 && gaSpace r.w0 != spaceT && alignedTo elem (gaOffset r.w0) &&
        (gaSpace r.w0 != spaceI || (r.kind == kindCopy && localSrc)) &&
        (!localSrc || s.rowsOk v r.w0 r.srcStride r.rows r.rowBytes false))
  let dstOk :=
    if r.kind = kindCset then
      localDst && addressFields r.w1 && gaSpace r.w1 == spaceT && tKind (gaOffset r.w1) == 2 &&
        s.namesMemory r.w1 1 && s.viMay v r.w1 1 true
    else
      addressFields r.w1 && gaSpace r.w1 != spaceT && alignedTo elem (gaOffset r.w1) &&
        (gaSpace r.w1 != spaceI || (r.kind == kindCopy && localDst && alignedTo 128 (gaOffset r.w1))) &&
        (r.kind != kindAtomic || gaSpace r.w1 == spaceD || gaSpace r.w1 == spaceG) &&
        (!localDst || s.rowsOk v r.w1 r.dstStride r.rows r.rowBytes true)
  let counterOk :=
    if bit r.counter 15 = 1 then
      r.kind != kindCset && (!localDst || s.viObject v (bits r.counter 14 12) 2 (bits r.counter 11 0))
    else r.counter == 0
  let w2Ok :=
    bits r.w2 49 48 == 0 && 1 ≤ r.rowBytes && counterOk &&
      (if r.kind = kindAtomic then r.aop < 6 && r.afmt < 7 && (!atomicFloat r.afmt || r.aop == 0) &&
          alignedTo elem r.rowBytes
        else r.aop == 0 && r.afmt == 0) &&
      (r.kind != kindCset || r.rowBytes == 8) &&
      (r.kind != kindCopy || gaSpace r.w1 != spaceI || alignedTo 128 r.rowBytes)
  let w3Ok :=
    1 ≤ r.rows &&
      (r.kind != kindCset || (r.rows == 1 && r.dstStride == 0 && r.srcStride == 0)) &&
      (r.kind != kindAtomic || (alignedTo elem r.dstStride && alignedTo elem r.srcStride)) &&
      (r.kind != kindCopy || gaSpace r.w1 != spaceI || r.rows == 1 || alignedTo 128 r.dstStride)
  if 3 < r.kind then some 3
  else if !srcOk then some 1
  else if !dstOk then some 2
  else if !w2Ok then some 3
  else if !w3Ok then some 4
  else none

/-! ## Packets (R185) -/

/-- The packets of one destination row: lengths cut at 256-byte boundaries; `fuel` bounds them. -/
def rowPackets : (fuel src dst len : Nat) → List (Nat × Nat × Nat)
  | 0, _, _, _ => []
  | n + 1, src, dst, len =>
    if len = 0 then []
    else
      let k := min len (256 - dst % 256)
      (src, dst, k) :: rowPackets n (src + k) (dst + k) (len - k)

/-- Every packet of a request, in row order: source, destination and length. -/
def CopyReq.cut (r : CopyReq) : List (Nat × Nat × Nat) :=
  if r.kind = kindCset then [(r.w0, r.w1, 8)]
  else
    (List.range r.rows).flatMap fun i =>
      rowPackets (r.rowBytes / 256 + 2) (r.w0 + i * r.srcStride) (r.w1 + i * r.dstStride) r.rowBytes

/-- Fresh packets of a request. -/
def CopyReq.packets (r : CopyReq) : List Packet :=
  r.cut.mapIdx fun i p =>
    { idx := i, src := p.1, dst := p.2.1, len := p.2.2, data := none, poison := 0, sent := false,
      acked := false, pseq := none }

/-! ## Engines (R186, R438) -/

def State.engine (s : State) (e : Nat) : CopyEngine := tget .reset s.mem.engines e

def State.setEngine (s : State) (e : Nat) (x : CopyEngine) : State :=
  s.onMem fun m => { m with engines := tset .reset m.engines e x }

/-- Copies an engine holds. -/
def CopyEngine.depth (x : CopyEngine) : Nat := x.queue.length + (if x.running.isSome then 1 else 0)

/-- The engine with the fewest copies among some, the lower number winning. -/
def State.leastLoaded (s : State) (es : List Nat) : Option Nat :=
  match (es.map fun e => (s.engine e).depth * 64 + e).min? with
  | some k => some (k % 64)
  | none => none

/-- Working engines of half-hall `j`. -/
def State.halfEngines (s : State) (j : Nat) : List Nat := (upTo (4 * j) 4).filter fun e => !(s.engine e).retired

/-- The engine that takes copies of half-hall `j` (R186, R438). -/
def State.engineFor (s : State) (j : Nat) : Option Nat :=
  match s.leastLoaded (s.halfEngines j) with
  | some e => some e
  | none =>
    match s.halfPart j with
    | some p => ((s.halfHalls p).flatMap s.halfEngines).min?
    | none => none

/-- Queues a copy on engine `e`; its number. -/
def State.queueCopy (s : State) (e : Nat) (req : CopyReq) (origin : CopyOrigin) (vi : Nat) (launch : Option Nat)
    (before : List (Nat × Nat × Bool) := []) : State × Nat :=
  let id := s.mem.nextCopy
  let job : CopyJob :=
    { id := id, req := req, origin := origin, vi := vi, part := s.halfPart (engineHalf e), launch := launch,
      started := false, packets := [], error := 0, poison := false, cause := 0, sharedPoison := none, before := before }
  let s1 := (s.abortScan (channelId 6 e)).onMem fun m => { m with nextCopy := id + 1 }
  let x := s1.engine e
  (s1.setEngine e { x with queue := x.queue ++ [job] }, id)

/-- Whether engine state `x` holds copy `id`: running, or adopted under way and not yet its turn (R438). -/
def CopyEngine.holds (x : CopyEngine) (id : Nat) : Bool :=
  x.running.map (·.id) == some id || x.queue.any fun j => j.started && j.id == id

/-- Changes copy `id`, wherever it is under way. -/
def State.onJob (s : State) (id : Nat) (f : CopyJob → CopyJob) : State :=
  match s.mem.engines.find? fun p => p.2.holds id with
  | some (e, x) => s.setEngine e { x with
      running := x.running.map fun j => if j.id = id then f j else j,
      queue := x.queue.map fun j => if j.started && j.id = id then f j else j }
  | none => s

/-- Copy `id` under way and its engine. -/
def State.job? (s : State) (id : Nat) : Option (Nat × CopyJob) :=
  match s.mem.engines.find? fun p => p.2.holds id with
  | some (e, x) => ((x.running.toList ++ x.queue.filter (·.started)).find? (·.id == id)).map fun j => (e, j)
  | none => none

def CopyJob.onPacket (j : CopyJob) (i : Nat) (f : Packet → Packet) : CopyJob :=
  { j with packets := j.packets.map fun p => if p.idx = i then f p else p }

/-- Whether a copy moves between galleries of two halls, and so in bursts (R204). -/
def State.burstHalls (s : State) (r : CopyReq) : Option (Nat × Nat) :=
  if r.kind = kindCopy && gaDevice r.w0 == s.deviceId && gaDevice r.w1 == s.deviceId &&
      gaSpace r.w0 == spaceG && gaSpace r.w1 == spaceG && gByte (gaOffset r.w0) / 2 ^ 26 != gByte (gaOffset r.w1) / 2 ^ 26 then
    some (gByte (gaOffset r.w0) / 2 ^ 26, gByte (gaOffset r.w1) / 2 ^ 26)
  else none

/-- The bytes of FILL at a destination: the pattern at the destination offset mod 8 (R182). -/
def fillBytes (pattern dst len : Nat) : List Nat :=
  (List.range len).map fun i => pattern / 256 ^ ((gaOffset dst + i) % 8) % 256

/-- A source read of a copy as it was before the bundle of its `CPY` (R187). -/
def CopyJob.asBefore (j : CopyJob) (src : Nat) (r : DRead) : DRead :=
  match j.origin with
  | .alcove n _ =>
    if j.before.isEmpty || gaSpace src != spaceS || siAlcove (gaOffset src) != n then r
    else
      let at_ := fun (i : Nat) => j.before.find? fun b => b.1 == siByte (gaOffset src) + i
      let marks := r.marks.mapIdx fun i m => (at_ i).elim m (·.2.2)
      { r with
        data := r.data.mapIdx fun i x => (at_ i).elim x (·.2.1), marks := marks, poison := marks.any fun b => b }
  | .operation _ _ => r

/-- Reads the source of a packet that is not read yet, for engine `e`. -/
def State.readPacket (s : State) (e : Nat) (j : CopyJob) (p : Packet) : State :=
  let got := fun (s : State) (data : List Nat) (mask : Nat) (poison : Bool) (cause : Nat) (region : Option Nat) =>
    s.onJob j.id fun j => { (j.onPacket p.idx fun p => { p with data := some data, poison := mask }) with
      poison := j.poison || poison, cause := if j.cause = 0 then cause else j.cause,
      sharedPoison := j.sharedPoison.or (if poison then region else none) }
  if j.req.kind = kindFill then got s (fillBytes j.req.w0 p.dst p.len) 0 false 0 none
  else if j.req.kind = kindCset then got s (toBytes 8 j.req.w0) 0 false 0 none
  else
    let r := j.asBefore p.src (s.readSpace (e / 8) j.part j.req.vol p.src p.len)
    got r.st r.data (partMask r.marks) r.poison r.cause r.region

/-! ## Remote messages (R376, R432) -/

def State.nextPseq (s : State) (agent : Nat) : Nat := tget 0 s.mem.pseq agent

/-- Whether agent `a` may send a new message (R432). -/
def State.mayNumber (s : State) (a : Nat) : Bool :=
  match (s.mem.unanswered.filter (·.agent == a)).head? with
  | some u => (s.nextPseq a + 2 ^ 32 - u.pseq) % 2 ^ 32 < 4096
  | none => true

/-- Sends a numbered message of agent `a` for the first time. -/
def State.sendNumbered (s : State) (a : Nat) (copy : Option Nat) (packet : Nat) (m : LinkMsg) : State :=
  let n := s.nextPseq a
  let m1 := m.setHdr fun h => { h with pseq := n, agent := a, src := s.deviceId }
  let s1 := s.onMem fun x => { x with
    pseq := tset 0 x.pseq a ((n + 1) % 2 ^ 32),
    unanswered := x.unanswered ++ [{ agent := a, pseq := n, copy := copy, packet := packet, msg := m1,
                                     lastSend := s.time.tick, firstResend := none }] }
  let s2 := match copy with
    | some id => s1.onJob id fun j => j.onPacket packet fun p => { p with pseq := some n }
    | none => s1
  s2.forward m1 none

/-- JOB of a virtual interface. -/
def State.viJob (s : State) (v : Nat) : Nat := s.fld F.VI_CFG_JOB v

/-- The long header of a packet to or from another device. -/
def State.packetHdr (s : State) (j : CopyJob) (ga len poison : Nat) : LongHdr :=
  { vc := 0, bytes := len, flow := j.req.window, hops := 0, dst := gaDevice ga, src := s.deviceId,
    job := s.viJob j.vi, counter := j.req.counter, addr := ga % 2 ^ 47, poison := poison,
    afmt := j.req.afmt, aop := j.req.aop, agent := 0, cls := j.req.cls, status := 0, volatile := j.req.vol,
    resend := false, pseq := 0 }

/-- A shot of row 0x11 at the parity of a packet that engine `e` sends: the packet is rebuilt from its source and
sent again, so only the charge remains (R425). -/
def State.parityShot (s : State) (e : Nat) : State :=
  match s.shoot 0x11 (channelId 6 e) with
  | some (s1, _, _, m) => (s1.charge (channelId 6 e) .tue { RasRecord.blank with detector := 0x11 } m).1
  | none => s

/-- A shot of row 0x12 takes the first remote packet of a copy: from then on the copy's answers are discarded. -/
def State.answerShot (s : State) (e id : Nat) : State :=
  if tget 0 s.inj.answerDrop id != 0 || s.inj.answerDrop.any (fun p => s.dueShot 0x12 (channelId 6 e) == some (p.2 - 1)) then s
  else
    match s.dueShot 0x12 (channelId 6 e) with
    | some i => s.onInj fun x => { x with answerDrop := tset 0 x.answerDrop id (i + 1) }
    | none => s

/-- Sends what a packet needs next, if it may: its source read, its data, or nothing. -/
def State.pumpPacket (s : State) (e : Nat) (id i : Nat) : State :=
  match s.job? id with
  | none => s
  | some (_, j) =>
    match j.packets.find? (·.idx == i) with
    | none => s
    | some p =>
      let usesSrc := j.req.kind == kindCopy || j.req.kind == kindAtomic
      let remoteSrc := usesSrc && gaDevice p.src != s.deviceId
      if p.sent || (j.error != 0 && j.error != 0x02 && j.error != 0x03) then s
      else
        match p.data with
        | none =>
          if remoteSrc then
            if p.pseq.isSome || !s.mayNumber e then s
            else
              let h := s.packetHdr j p.src p.len 0
              (s.answerShot e id).sendNumbered e (some id) i (.readReq { h with flow := 0, counter := 0, afmt := 0, aop := 0 })
          else s
        | some data =>
          let sent := fun (s : State) =>
            (s.parityShot e).onJob id fun j => j.onPacket i fun p => { p with sent := true }
          if gaDevice p.dst = s.deviceId then
            let kind := if j.req.kind = kindAtomic then FlightKind.atomic j.req.afmt j.req.aop
              else if j.req.kind = kindCset then .cset (j.req.w0 % 2 ^ 63) (bit j.req.w0 63)
              else .write
            sent (s.onMem fun m => { m with
              inflight := m.inflight ++ [{ origin := .engine e id i, kind := kind, dst := p.dst, data := data,
                                           poison := p.poison, counter := j.req.counter, vi := j.vi,
                                           job := s.viJob j.vi, hdr := none, waiting := false }] })
          else if s.mayNumber e then
            let h := s.packetHdr j p.dst p.len p.poison
            let m := if j.req.kind = kindAtomic then LinkMsg.atomic h data
              else LinkMsg.write { h with afmt := 0, aop := 0, volatile := false } data
            sent ((s.answerShot e id).sendNumbered e (some id) i m)
          else s

/-- Sends every packet that may go. Packets of a burst copy go only under a grant (R204). -/
def State.pump (s : State) (e : Nat) : State :=
  match (s.engine e).running with
  | some j =>
    if (s.burstHalls j.req).isSome then s
    else j.packets.foldl (fun s p => s.pumpPacket e j.id p.idx) s
  | none => s

/-- Whether a read that a copy's start makes must wait (R220, R227). -/
def State.sourceBlocked (s : State) (j : CopyJob) : Bool :=
  (j.req.kind == kindCopy || j.req.kind == kindAtomic) && gaDevice j.req.w0 == s.deviceId &&
    gaSpace j.req.w0 == spaceD &&
    (List.range j.req.rows).any fun r =>
      s.dBlocked (gaOffset (j.req.w0 + r * j.req.srcStride)) j.req.rowBytes true

/-- R186: engine `e` starts its next copy and reads its local sources. A timed copy starts when launched. -/
def doCopyStart (e : Nat) (s : State) : State :=
  let x := s.engine e
  if x.running.isSome || x.retired then s
  else
    match x.queue with
    | [] => s
    | j :: rest =>
      if j.launch.isSome || s.sourceBlocked j then s
      else
        let j1 := { j with started := true, packets := if j.started then j.packets else j.req.packets }
        let s0 := s.setEngine e { x with queue := rest, running := some j1 }
        let s1 := match j.origin with
          | .operation q i =>
            match s.op? q i with
            | some o => if o.launched || j.started then s0 else s0.launched q i (s.now (8 + e / 8))
            | none => s0
          | .alcove _ _ => s0
        if (s1.burstHalls j.req).isSome then s1
        else
          let localSrc := j.req.kind == kindFill || j.req.kind == kindCset || gaDevice j.req.w0 == s.deviceId
          let s2 := if localSrc then (j1.packets.filter fun p => !p.sent).foldl (fun s p => s.readPacket e j1 p) s1 else s1
          s2.pump e

/-! ## Acceptance of remote packets (R326, R379) -/

/-- The virtual interface whose allocation holds a whole remote range with an attribute bit. -/
def State.remoteOwner (s : State) (sp : AllocSpace) (a len attrBit : Nat) : Option Nat :=
  (s.part.allocs.find? fun x =>
    x.space == sp && !x.mapping && x.region.isNone && bit x.attr attrBit == 1 && x.base ≤ a &&
      a + len ≤ x.base + x.size).map (·.vi)

/-- The owner of a remote destination or source, and the space of it. -/
def State.remoteTarget (s : State) (addr len attrBit : Nat) : Option Nat :=
  match gaSpace addr with
  | 0 => s.remoteOwner .d (gaOffset addr) len attrBit
  | 1 => s.remoteOwner .g (gByte (gaOffset addr)) len attrBit
  | _ => none

/-- Whether a JOB suits an owner (R326). -/
def State.jobOk (s : State) (owner job : Nat) : Bool := s.viJob owner == 0 || s.viJob owner == job

/-- Whether a remote packet is accepted (R326, R180, R198, R183). -/
def State.acceptRemote (s : State) (h : LongHdr) (atomic : Bool) : Bool :=
  let ga := gaMake s.deviceId 0 0 + h.addr
  let elem := if atomic then atomicSize h.afmt else 1
  addressFields ga && s.namesMemory ga h.bytes &&
    (!atomic || (h.afmt < 7 && h.aop < 6 && (!atomicFloat h.afmt || h.aop == 0) &&
      h.bytes % elem == 0 && h.addr % elem == 0)) &&
    (match s.remoteTarget ga h.bytes 1 with
     | some v => s.jobOk v h.job &&
        (h.counter / 2 ^ 15 == 0 ||
          s.part.allocs.any fun a =>
            a.vi == v && bit a.attr 1 == 1 && a.holdsObject (bits h.counter 14 12) 2 (bits h.counter 11 0))
     | none => false)

/-! ## The receipt filter (R433) -/

/-- The slice that checks a message: the home hall of its address, or that of its port when it has none. -/
def State.filterHall (s : State) (port : Nat) (h : LongHdr) : Nat :=
  let ga := gaMake s.deviceId 0 0 + h.addr
  match gaSpace ga with
  | 0 => (s.homeHall (gaOffset ga)).getD (port / 8)
  | 1 => gByte (gaOffset ga) / 2 ^ 26 % 8
  | _ => port / 8

def State.filter (s : State) (h : Nat) : List FilterEntry := tget [] s.ras.filters h

def State.setFilter (s : State) (h : Nat) (l : List FilterEntry) : State :=
  (s.onRas fun r => { r with filters := tset [] r.filters h l }).setFld F.RAS_RCPT_USED l.length 0 h

/-- What the filter says of a message. -/
inductive Receipt
  | applied | fresh | full
  deriving DecidableEq, Repr

/-- Checks a message against an entry (R433): whether it counts as applied, and the entry with its window moved.
Below BASE is the half of the circle of PSEQ behind it. -/
def FilterEntry.check (f : FilterEntry) (pseq : Nat) : Bool × FilterEntry :=
  let d := (pseq + 2 ^ 32 - f.base) % 2 ^ 32
  if 2 ^ 31 ≤ d then (true, f)
  else if d < 4096 then (bit f.map d == 1, f)
  else
    let move := d - 4095
    (false, { f with base := (f.base + move) % 2 ^ 32, map := f.map / 2 ^ move })

/-- Marks a PSEQ as applied. -/
def FilterEntry.mark (f : FilterEntry) (pseq : Nat) : FilterEntry :=
  { f with map := setBit f.map ((pseq + 2 ^ 32 - f.base) % 2 ^ 32) }

/-- Consults the filter for a message and makes an entry when it has none and there is room. -/
def State.receipt (s : State) (hall : Nat) (h : LongHdr) : State × Receipt :=
  let l := s.filter hall
  let mine := fun (f : FilterEntry) => f.srcDev == h.src && f.srcAgent == h.agent
  match l.find? mine with
  | some f =>
    let (applied, f1) := f.check h.pseq
    let f2 := { f1 with lastTick := s.time.tick }
    (s.setFilter hall (l.map fun x => if mine x then f2 else x), if applied then .applied else .fresh)
  | none =>
    if l.length < 4096 then
      (s.setFilter hall (l ++ [{ srcDev := h.src, srcAgent := h.agent, base := (h.pseq + 2 ^ 32 - 4095) % 2 ^ 32,
                                 map := 0, lastTick := s.time.tick }]), .fresh)
    else (s, .full)

/-- Sets the bit of an applied message. -/
def State.receiptMark (s : State) (hall : Nat) (h : LongHdr) : State :=
  s.setFilter hall ((s.filter hall).map fun f =>
    if f.srcDev = h.src && f.srcAgent = h.agent then f.mark h.pseq else f)

/-! ## Atomics (R201 to R203) -/

/-- The exact sum of two floating elements, rounded once to AFMT. -/
def atomicAddFloat (f : Fmt) (a b : Nat) : Nat :=
  let x := readOperand f a
  let y := readOperand f b
  (writeFloat f .nearest false 0 (x.1.add y.1).1).1

/-- Combines an element of the destination with one of the source. -/
def atomicCombine (afmt aop a b : Nat) : Nat :=
  let w := 8 * atomicSize afmt
  match afmt with
  | 0 => atomicAddFloat .fp32 a b
  | 1 => atomicAddFloat .bf16 a b
  | 2 => atomicAddFloat .fp16 a b
  | _ =>
    let signed := afmt == 3 || afmt == 5
    let less := if signed then decide (toInt w a < toInt w b) else decide (a < b)
    match aop with
    | 0 => (a + b) % 2 ^ w
    | 1 => if less then a else b
    | 2 => if less then b else a
    | 3 => a &&& b
    | 4 => a ||| b
    | _ => a ^^^ b

/-- Combines a packet's bytes into those of its destination. -/
def atomicBytes (afmt aop : Nat) (old new : List Nat) : List Nat :=
  let n := atomicSize afmt
  (List.range (new.length / n)).flatMap fun i =>
    toBytes n (atomicCombine afmt aop (field old (n * i) n) (field new (n * i) n))

/-! ## Destination points (R189 to R193, R198) -/

/-- The status of a packet's answer: 0 applied, 1 refused, 2 target retired. -/
def statusApplied : Nat := 0
def statusRefused : Nat := 1
def statusRetired : Nat := 2

/-- Whether an alcove named by an address is retired. -/
def State.targetRetired (s : State) (ga : Nat) : Bool :=
  (gaSpace ga == spaceS || gaSpace ga == spaceI) && s.retired (channelId 4 (siAlcove (gaOffset ga)))

/-- Poison marks of a packet's bytes. -/
def Flight.marks (f : Flight) : List Bool := f.data.mapIdx fun i _ => bit f.poison (i / 32) == 1

/-- Writes a packet at its destination point, for a writer in hall `hall`; whether it took effect at once. -/
def State.landPacket (s : State) (f : Flight) (hall : Option Nat) : State × Bool :=
  let off := gaOffset f.dst
  let (data, marks, s) := match f.kind with
    | .atomic afmt aop =>
      let r := match gaSpace f.dst with
        | 0 => s.readD off f.data.length
        | _ => s.readG (gByte off) f.data.length
      (atomicBytes afmt aop r.data f.data, List.zipWith or r.marks f.marks, r.st)
    | _ => (f.data, f.marks, s)
  match gaSpace f.dst with
  | 0 =>
    let s1 := s.writeSectors (data.length / 32 + 2) off (data.zip marks)
    match hall with
    | some h => (s1.dropRange h off data.length, true)
    | none => (s1, true)
  | 1 => (s.writeG (gByte off) data marks, true)
  | 2 => (s.writeS (siAlcove off) (siByte off) data marks, true)
  | 3 =>
    match f.origin with
    | .engine e id i => s.writeI (siAlcove off) (siByte off) data marks e id i
    | _ => (s.writeI (siAlcove off) (siByte off) data marks 64 0 0)
  | _ => (s, true)

/-- Adds a packet to its counter (R198). -/
def State.countFlight (s : State) (f : Flight) : State :=
  if bit f.counter 15 = 1 then s.countPacket (bits f.counter 14 12) (bits f.counter 11 0) f.data.length else s

/-- The hall whose mezzanine a writer in this package invalidates (R193). -/
def FlightFrom.hall : FlightFrom → Option Nat
  | .engine e _ _ => some (e / 8)
  | .narrow h _ => some h
  | .annealer h _ => some h
  | _ => none

/-- Answers a packet (R189, R379). -/
def State.answer (s : State) (f : Flight) (status : Nat) : State :=
  match f.origin, f.hdr with
  | .link port, some h =>
    let _ := port
    s.forward (.ack 4 status h.agent 0 h.src h.pseq) none
  | o, _ => s.onMem fun m => { m with acks := m.acks ++ [{ origin := o, status := status }] }

/-- Whether a write must wait for its stack (R227). -/
def State.writeBlocked (s : State) (f : Flight) : Bool :=
  gaSpace f.dst == spaceD && s.dBlocked (gaOffset f.dst) f.data.length false

/-- Writes, counts and answers an accepted packet. -/
def State.applyFlight (s : State) (f : Flight) : State :=
  let (s1, now) := s.landPacket f f.origin.hall
  if now then (s1.countFlight f).answer f statusApplied else s1

/-- R189, R379: the `i`-th packet on its way reaches its destination point. -/
def doPacketWrite (i : Nat) (s : State) : State :=
  match s.mem.inflight[i]? with
  | none => s
  | some f =>
    let drop := fun (s : State) => s.onMem fun m => { m with inflight := m.inflight.eraseIdx i }
    match f.kind with
    | .cset _ _ => s
    | _ =>
      if s.writeBlocked f then s
      else
        match f.origin, f.hdr with
        | .link port, some h =>
          if f.waiting then s
          else
            let hall := s.filterHall port h
            let (s1, r) := s.receipt hall h
            let isAtomic := match f.kind with
              | .atomic _ _ => true
              | _ => false
            match r with
            | .full =>
              (s.onMem fun m => { m with
                inflight := m.inflight.mapIdx fun k g => if k = i then { g with waiting := true } else g }
              ).addFld F.RAS_RCPT_WAITS 1 0 hall |>.rasEvent F.RAS_EVENT_FILTER_WAIT
            | .applied => (drop s1).answer f statusApplied
            | .fresh =>
              if s.targetRetired f.dst then (drop s1).answer f statusRetired
              else if !s.acceptRemote h isAtomic then (drop s1).answer f statusRefused
              else ((drop s1).applyFlight f).receiptMark hall h
        | _, _ =>
          if s.targetRetired f.dst then (drop s).answer f statusRetired
          else (drop s).applyFlight f

/-- R199: the `i`-th packet on its way, a `CSET`, reaches the counter queue. -/
def doCsetApply (i : Nat) (s : State) : State :=
  match s.mem.inflight[i]? with
  | none => s
  | some f =>
    match f.kind with
    | .cset value mode =>
      let off := gaOffset f.dst
      let s1 := s.onMem fun m => { m with inflight := m.inflight.eraseIdx i }
      (s1.setCounter (tHall off) (tIndex off) { count := BitVec.ofNat 64 value, packets := mode == 1 }).answer f
        statusApplied
    | _ => s

/-! ## Answers and completion (R188, R189, R432) -/

/-- Error code of R188 for an answer's status. -/
def statusError (status : Nat) : Nat := if status = statusRetired then 0x03 else 0x02

/-- A packet of a copy is answered by engine `e`'s agent. -/
def State.packetAnswered (s : State) (id i status : Nat) : State :=
  match s.job? id with
  | some (e, _) =>
    let s1 := s.onJob id fun j => { (j.onPacket i fun p => { p with sent := true, acked := true }) with
      error := if status != 0 && j.error = 0 then statusError status else j.error }
    (s1.wrapFld F.CE_PACKETS_COUNT 1 e).pump e
  | none => s

/-- An answered remote message; false when it was answered before. -/
def State.takeUnanswered (s : State) (agent pseq : Nat) : Option (Unanswered × State) :=
  match s.mem.unanswered.find? fun u => u.agent == agent && u.pseq == pseq with
  | some u => some (u, s.onMem fun m => { m with unanswered := m.unanswered.erase u })
  | none => none

/-- Whether row 0x12 discards the answers of a copy. -/
def State.answersDropped (s : State) (id : Nat) : Bool := tget 0 s.inj.answerDrop id != 0

/-! ## State sends of an annealer (R275, R280) -/

/-- Hands over the packets of a state send that may go; the arrival follows the last one. `desc` 0x050 is the
landing's handle, 0x058 the counter's, 0x08D the flow. -/
def State.annPump (s : State) (h : Nat) : (fuel : Nat) → State
  | 0 => s
  | fuel + 1 =>
    match s.annRun h with
    | none => s
    | some r =>
      match r.stage, r.sends with
      | .sending, [] =>
        let handle := field r.desc 0x50 8
        if handle = 0 then s.setAnn h (some { r with stage := .released })
        else
          let off := gaOffset handle
          let l := tIndex off / 2
          (s.setAnn h (some { r with stage := .arrived, phase := 1 - r.phase })).onSync fun y => { y with
            net := y.net ++ [.arrive (tHall off) l (4360 + h) r.phase,
                             .landWait (tHall off) l (4360 + h) r.phase (.annealer h)] }
      | .sending, p :: rest =>
        let c := gaOffset (field r.desc 0x58 8)
        let counter := setBit (tHall c * 4096 + tIndex c) 15
        let sent := fun (s : State) => s.setAnn h (some { r with sends := rest })
        if p.dev = s.deviceId then
          (sent (s.onMem fun m => { m with
            inflight := m.inflight ++ [{ origin := .annealer h p.spin, kind := .write, dst := p.dst, data := p.data,
                                         poison := p.poison, counter := counter, vi := r.vi, job := s.viJob r.vi,
                                         hdr := none, waiting := false }] })).annPump h fuel
        else if s.mayNumber (72 + h) then
          let hdr : LongHdr :=
            { vc := 0, bytes := p.data.length, flow := field r.desc 0x8D 1, hops := 0, dst := p.dev,
              src := s.deviceId, job := s.viJob r.vi, counter := counter, addr := p.dst % 2 ^ 47,
              poison := p.poison, afmt := 0, aop := 0, agent := 72 + h, cls := 0, status := 0,
              volatile := false, resend := false, pseq := 0 }
          ((sent s).sendNumbered (72 + h) none p.spin (.write hdr p.data)).annPump h fuel
        else s
      | _, _ => s

/-- A packet of annealer `h`'s state send is answered, or given up with `code` 3; `spin` is its first spin. The
next packets follow. -/
def State.annAnswered (s : State) (h code spin : Nat) : State :=
  match s.annRun h with
  | none => s
  | some r =>
    let s1 := if code != 0 && r.sendError = 0 then
        (s.setAnn h (some { r with sendError := if code = 3 then 0x04 else statusError code })).raiseLog
          F.ANN_ERROR_VALID F.ANN_ERROR_OVERRUN (source h 72) h 0
          [(F.ANN_ERROR_CODE, 3), (F.ANN_ERROR_SPIN, spin % 2 ^ 24)]
      else s
    s1.annPump h (r.sends.length + 1)

/-- Notes the outcome of an annealer's state send (R275, R280), or of a gather's packet. -/
def State.agentAnswered (s : State) (o : FlightFrom) (status : Nat) : State :=
  match o with
  | .narrow h _ =>
    s.onHbm fun x => { x with
      gathers := tset none x.gathers h
        ((tget none x.gathers h).map fun g => { g with outstanding := g.outstanding - 1 }) }
  | .annealer h spin => s.annAnswered h status spin
  | _ => s

/-- R189: the `i`-th acknowledgement arrives at its engine. -/
def doPacketAcknowledge (i : Nat) (s : State) : State :=
  match s.mem.acks[i]? with
  | none => s
  | some a =>
    let s1 := s.onMem fun m => { m with acks := m.acks.eraseIdx i }
    match a.origin with
    | .engine _ id p => s1.packetAnswered id p a.status
    | .remote agent pseq =>
      match s1.mem.unanswered.find? fun u => u.agent == agent && u.pseq == pseq with
      | some u =>
        match u.copy with
        | some id =>
          if s1.answersDropped id then s1
          else
            match s1.takeUnanswered agent pseq with
            | some (_, s2) => s2.packetAnswered id u.packet a.status
            | none => s1
        | none =>
          match s1.takeUnanswered agent pseq with
          | some (_, s2) => s2.annAnswered (agent - 72) a.status u.packet
          | none => s1
      | none => s1
    | o => s1.agentAnswered o a.status

/-- R379: the `i`-th READ_CPL returns data to its agent. -/
def doReadCplReceive (i : Nat) (s : State) : State :=
  match s.mem.readCpls[i]? with
  | none => s
  | some m =>
    let s1 := s.onMem fun x => { x with readCpls := x.readCpls.eraseIdx i }
    match m with
    | .readCpl h data =>
      match s1.mem.unanswered.find? fun u => u.agent == h.agent && u.pseq == h.pseq with
      | some u =>
        match u.copy with
        | some id =>
          if s1.answersDropped id then s1
          else
            match s1.takeUnanswered h.agent h.pseq with
            | some (_, s2) =>
              if h.status = 0 then
                let s3 := s2.onJob id fun j =>
                  { (j.onPacket u.packet fun p =>
                      { p with data := some data, poison := h.poison, pseq := none }) with
                    poison := j.poison || h.poison != 0 }
                match s3.job? id with
                | some (e, _) => s3.pump e
                | none => s3
              else s2.packetAnswered id u.packet h.status
            | none => s1
        | none => s1
      | none => s1
    | _ => s1

/-- R379: the `i`-th READ_REQ for this device is answered. -/
def doReadReqServe (i : Nat) (s : State) : State :=
  match s.mem.readReqs[i]? with
  | none => s
  | some m =>
    match m with
    | .readReq h =>
      let ga := gaMake s.deviceId 0 0 + h.addr
      if gaSpace ga == spaceD && s.dBlocked (gaOffset ga) h.bytes true then s
      else
        let s1 := s.onMem fun x => { x with readReqs := x.readReqs.eraseIdx i }
        let back := fun (s : State) (status poison : Nat) (data : List Nat) =>
          s.forward (.readCpl { h with
            vc := 4, flow := 0, hops := 0, dst := h.src, src := s.deviceId, counter := 0, poison := poison,
            bytes := data.length, status := status, volatile := false, resend := false } data) none
        if s.targetRetired ga then back s1 statusRetired 0 []
        else
          match s.remoteTarget ga h.bytes 0 with
          | some v =>
            if addressFields ga && s.namesMemory ga h.bytes && s.jobOk v h.job then
              let r := if gaSpace ga = spaceD then s1.readD (gaOffset ga) h.bytes
                else s1.readG (gByte (gaOffset ga)) h.bytes
              back r.st 0 (partMask r.marks) r.data
            else back s1 statusRefused 0 []
          | none => back s1 statusRefused 0 []
    | _ => s.onMem fun x => { x with readReqs := x.readReqs.eraseIdx i }

/-- Logs a failed copy (R188). -/
def State.copyError (s : State) (e code tag : Nat) : State :=
  s.raiseLog F.CE_ERROR_VALID F.CE_ERROR_OVERRUN (source (e / 8) (64 + e % 8)) e 0
    [(F.CE_ERROR_CODE, code), (F.CE_ERROR_TAG, tag % 2 ^ 16)]

/-- Tag of a copy in `CE_ERROR` (R206). -/
def CopyOrigin.tag : CopyOrigin → Nat
  | .alcove _ tag => tag
  | .operation _ op => op

/-- Reports a finished copy to who asked for it (R186, R188). -/
def State.copyReport (s : State) (j : CopyJob) : State :=
  match j.origin with
  | .alcove n tag =>
    let s1 := s.onAlcove n fun x => { x with
      copies := x.copies.filter fun c => c.copy != j.id, walker := x.walker.tagDone tag }
    match (s1.alcove n).grant with
    | some g =>
      s1.onOp g.queue g.op fun o => { (o.met j.poison j.cause j.sharedPoison) with
        copyFault := if j.error != 0 then o.copyFault.or (some (j.error, tag)) else o.copyFault }
    | none => s1
  | .operation q i =>
    s.onOp q i fun o => { (o.met j.poison j.cause j.sharedPoison) with
      engineDone := true, copyFault := if j.error != 0 then some (j.error, i) else o.copyFault }

/-- Ends the running copy of engine `e`. -/
def State.endCopy (s : State) (e : Nat) (j : CopyJob) : State :=
  let x := s.engine e
  let s1 := s.setEngine e { x with running := none, burst := none, refused := none }
  let s2 := if j.error != 0 then s1.copyError e j.error j.origin.tag else s1
  (s2.onInj fun x => { x with answerDrop := tdel x.answerDrop j.id }).copyReport j

/-- R186: a copy completes once every packet is acknowledged. -/
def doCopyComplete (e : Nat) (s : State) : State :=
  match (s.engine e).running with
  | some j => if j.packets.all (·.acked) then s.endCopy e j else s
  | none => s

/-! ## Resend and give-up (R432) -/

/-- R432: the `i`-th unanswered message is sent again. -/
def doRemoteResend (i : Nat) (s : State) : State :=
  match s.mem.unanswered[i]? with
  | none => s
  | some u =>
    if 25000 ≤ s.time.tick - u.lastSend &&
        (match u.firstResend with
         | some t => s.time.tick - t < 200000
         | none => true) then
      let u1 := { u with lastSend := s.time.tick, firstResend := u.firstResend.or (some s.time.tick) }
      let s1 := s.onMem fun m => { m with unanswered := m.unanswered.set i u1 }
      let s2 := if u.agent < 64 then s1.addFld F.CE_RETRY_COUNT_COUNT 1 u.agent else s1
      s2.forward (u.msg.setHdr fun h => { h with resend := true, hops := 0 }) none
    else s

/-- R432, R188: the `i`-th unanswered message is given up; its copy fails at once (R431, R442). -/
def doRemoteGiveUp (i : Nat) (s : State) : State :=
  match s.mem.unanswered[i]? with
  | none => s
  | some u =>
    let due := match u.firstResend with
      | some t => decide (200000 ≤ s.time.tick - t)
      | none => false
    if !due then s
    else
      match u.copy with
      | some id =>
        match s.job? id with
        | some (e, j) =>
          let mine := s.mem.unanswered.filter fun x => x.copy == some id
          let dsts := mine.map fun x => (x.msg.dst?).getD 0
          let remote := j.cause = 0 && dsts.all (· != s.deviceId)
          let shot := tget 0 s.inj.answerDrop id
          let (s0, mark) := if shot = 0 then (s, Mark.natural) else s.fireShot (shot - 1)
          let (s1, rid) := s0.record { RasRecord.blank with
            kind := kindRetryExhausted, detector := 0x12, channel := channelId 6 e, rootId := j.cause,
            partition := j.part.getD 0xFF, vi := j.vi,
            flags := (if remote then flagRemoteCause else 0) ||| (if mark.injected then flagInjected else 0),
            location := toBytes 2 j.origin.tag ++ toBytes 4 mine.length ++ toBytes 4 ((mine.head?.map (·.pseq)).getD 0),
            signature := (dsts.take 8).flatMap (toBytes 4) }
          let s2 := s1.onMem fun m => { m with unanswered := m.unanswered.filter fun x => x.copy != some id }
          s2.endCopy e { j with error := 0x04, cause := if j.cause = 0 then rid else j.cause }
        | none => s.onMem fun m => { m with unanswered := m.unanswered.eraseIdx i }
      | none =>
        (s.onMem fun m => { m with unanswered := m.unanswered.eraseIdx i }).annAnswered (u.agent - 72) 3 u.packet

/-- R433: an entry of slice `h`'s filter that received nothing for 512 µs is released, and waiting messages are
looked at again. -/
def doReceiptEntryRelease (h i : Nat) (s : State) : State :=
  match (s.filter h)[i]? with
  | some f =>
    if 512000 ≤ s.time.tick - f.lastTick then
      (s.setFilter h ((s.filter h).eraseIdx i)).onMem fun m => { m with
        inflight := m.inflight.map fun g => { g with waiting := false } }
    else s
  | none => s

/-! ## Gallery bursts (R204) -/

def State.galleryHolder (s : State) (h : Nat) : Option Nat := tget none s.mem.galleryPort h

/-- The packets of the next burst, at most 4 KiB. -/
def burstPackets : (room : Nat) → List Packet → List Packet
  | _, [] => []
  | room, p :: r => if p.sent then burstPackets room r else if p.len ≤ room then p :: burstPackets (room - p.len) r else []

/-- Grants both ports to engine `e` and moves its burst. -/
def State.grantBurst (s : State) (e : Nat) (j : CopyJob) (a b : Nat) : State :=
  let s1 := s.onMem fun m => { m with
    galleryPort := tset none (tset none m.galleryPort a (some e)) b (some e) }
  let s2 := s1.setEngine e { s1.engine e with burst := some (a, b), refused := none }
  let ps := burstPackets 4096 j.packets
  let s3 := ps.foldl (fun s p => s.readPacket e j p) s2
  ps.foldl (fun s p => s.pumpPacket e j.id p.idx) s3

/-- One engine asks for the ports of its next burst. -/
def State.askBurst (s : State) (e : Nat) : State :=
  match (s.engine e).running with
  | some j =>
    match s.burstHalls j.req with
    | some (a, b) =>
      if (s.engine e).burst.isSome || (burstPackets 4096 j.packets).isEmpty then s
      else
        -- a refused engine has priority over new requests for the same ports
        let ahead := (List.range 64).any fun x => x != e && (s.engine e).refused.isNone &&
          (match (s.engine x).refused with
           | some (c, d) => c == a || c == b || d == a || d == b
           | none => false)
        if (s.galleryHolder a).isNone && (s.galleryHolder b).isNone && !ahead then s.grantBurst e j a b
        else (s.setEngine e { s.engine e with refused := some (a, b) }).addFld F.CE_GRANT_RETRY_COUNT 1 e
    | none => s
  | none => s

/-- R204: engines ask for both ports of a burst in one cycle; the lower hall, then the lower engine, first. -/
def doGalleryBurstRequest (es : List (Fin 64)) (s : State) : State :=
  forEach ((List.range 64).filter fun e => es.any fun x => x.val == e) s fun s e => s.askBurst e

/-- R204: engine `e`'s burst ends; refused engines are tried again. -/
def doGalleryBurstRelease (e : Nat) (s : State) : State :=
  match (s.engine e).burst with
  | some (a, b) =>
    let s1 := s.onMem fun m => { m with galleryPort := tdel (tdel m.galleryPort a) b }
    let s2 := s1.setEngine e { s1.engine e with burst := none }
    forEach (List.range 64) s2 fun s x =>
      match (s.engine x).refused, (s.engine x).running with
      | some (c, d), some j =>
        if (s.galleryHolder c).isNone && (s.galleryHolder d).isNone then s.grantBurst x j c d else s
      | _, _ => s
  | none => s

/-! ## Mezzanine invalidations (R195 to R197, R206) -/

/-- The halls whose mezzanines partition `p` uses. -/
def State.mezHalls (s : State) (p : Nat) : List Nat := (List.range 8).filter fun h => s.inHall p h

/-- Starts an invalidation of ranges in the mezzanines of partition `p`; its number, none when there is nothing
to do. More than 16 MiB in all invalidates everything of the partition (R197). -/
def State.startInval (s : State) (p : Nat) (ranges : List DRange) : State × Option Nat :=
  if ranges.isEmpty then (s, none)
  else
    let n := s.mem.nextInval
    let total := ranges.foldl (fun a r => a + r.bytes) 0
    let x : Invalidation :=
      { num := n, halls := s.mezHalls p, part := some p, all := 2 ^ 24 < total, ranges := ranges }
    (s.onMem fun m => { m with nextInval := n + 1, invals := m.invals ++ [x] }, some n)

/-- Effects of a write of INVAL_ALL of hall `h`. -/
def State.mezInvalAll (s : State) (h : Nat) : State :=
  let n := s.mem.nextInval
  s.onMem fun m => { m with
    nextInval := n + 1,
    invals := m.invals ++ [{ num := n, halls := [h], part := none, all := true, ranges := [] }] }

/-- R197: the `i`-th invalidation in progress finishes. -/
def doRangeInvalidationDone (i : Nat) (s : State) : State :=
  match s.mem.invals[i]? with
  | none => s
  | some v =>
    let hit := fun (x : MezLine) =>
      (v.part.isNone || v.part == some x.part) &&
        (v.all || v.ranges.any fun r =>
          0 < r.bytes && r.base / 256 ≤ x.line && x.line ≤ (r.base + r.bytes - 1) / 256)
    forEach v.halls (s.onMem fun m => { m with invals := m.invals.eraseIdx i }) fun s h => s.dropLines h hit

end Sys2Proof.Machine
end

