-- ==== Sys2Proof/Machine/Sync.lean ====
section
/-! DEFINITION. Landing units and the stairwell (R235 to R258, R391, R526): token queues, landings, system
landings, and the configuration of objects. -/

namespace Sys2Proof.Machine

/-! ## Objects -/

def objectKey (hall i : Nat) : Nat := hall * 4096 + i

def State.tokenQ (s : State) (hall i : Nat) : TokenQ := tget .reset s.sync.queues (objectKey hall i)

def State.setTokenQ (s : State) (hall i : Nat) (q : TokenQ) : State :=
  s.onSync fun y => { y with queues := tset .reset y.queues (objectKey hall i) q }

def State.landing (s : State) (hall l : Nat) : Landing := tget .reset s.sync.landings (objectKey hall l)

def State.setLanding (s : State) (hall l : Nat) (x : Landing) : State :=
  s.onSync fun y => { y with landings := tset .reset y.landings (objectKey hall l) x }

def State.tree (s : State) (t : Nat) : Tree := tget .reset s.sync.trees t

def State.sln (s : State) (n : Nat) : SlnEntry := tget .reset s.sync.slns n

/-- The virtual interface in whose allocations an object lies, VI0 where in none (R358). -/
def State.objectOwner (s : State) (hall kind index : Nat) : Nat :=
  match s.part.allocs.find? fun a => a.holdsObject hall kind index with
  | some a => a.vi
  | none => 0

/-- Sets a bit of `SYNC_EVENT` of a hall (source 74). -/
def State.syncEvent (s : State) (f : Fld) (hall : Nat) : State := s.raise f (source hall 74) hall

/-- An event that concerns an object: its bit, and the notice to its owner (R358). -/
def State.syncNotice (s : State) (event notice : Fld) (hall kind index : Nat) : State :=
  (s.syncEvent event hall).viSync notice (s.objectOwner hall kind index)

/-- Logs the first token overflow or double arrival of a hall. -/
def State.syncLog (s : State) (hall kind agent object : Nat) : State :=
  if s.fld F.SYNC_LOG_VALID hall = 1 then s
  else
    (((s.setFld F.SYNC_LOG_VALID 1 hall).setFld F.SYNC_LOG_KIND kind hall).setFld F.SYNC_LOG_AGENT agent
      hall).setFld F.SYNC_LOG_OBJECT object hall

/-- An operation reached an unconfigured object (R526). -/
def State.unconfigured (s : State) (hall : Nat) : State := s.syncEvent F.SYNC_EVENT_UNCONFIGURED hall

/-! ## Parties -/

/-- Changes the core of an alcove or a hall controller. -/
def State.onCore (s : State) (p : Party) (f : Core → Core) : State :=
  match p with
  | .alcove n => s.onAlcove n fun x => { x with core := f x.core }
  | .hallController h => s.onHc h fun x => { x with core := f x.core }
  | _ => s

/-- Marks the first asked entry of a list of waits that a test picks as met. -/
def meetFirst (want : SyncEntry → Bool) : List SyncEntry → List WaitState → List WaitState
  | e :: es, w :: ws => if w = .asked && want e then .met :: ws else w :: meetFirst want es ws
  | _, ws => ws

/-- Whether a sync entry waits on an object: kind 0 a token queue, 2 a landing with its phase. -/
def SyncEntry.waitsOn (e : SyncEntry) (kind hall index : Nat) : Bool :=
  e.kind == kind && tHall (gaOffset e.handle) == hall && tIndex (gaOffset e.handle) == index

/-- Releases a waiter of an object (R109, R239, R241, R257). `late` is the release tread of a LATE generation. -/
def State.releaseParty (s : State) (p : Party) (kind hall index : Nat) (late : Option Nat) : State :=
  match p with
  | .operation q i =>
    let home := match s.queue q with
      | some w => w.hall
      | none => 0
    s.onOp q i fun o =>
      let o1 := { o with waits := meetFirst (·.waitsOn kind hall index) o.syncs o.waits }
      match late with
      | some t => o1.lateBy (s.now home - t)
      | none => o1
  | .annealer h => s.onAnn h fun r => if r.stage = .arrived then { r with stage := .released } else r
  | p => s.onCore p fun c => { c with granted := true }

/-- Answers a `TTRY` in predicate `dst` (R240); a write of p0 is discarded. -/
def State.answerTry (s : State) (p : Party) (dst : Nat) (ok : Bool) : State :=
  s.onCore p fun c => { c with
    p := if dst = 0 then c.p else tset .zero c.p dst { bits := if ok then BitVec.allOnes 512 else 0, poison := false },
    busy := c.busy.erase { file := .p, idx := dst } }

/-! ## Token queues (R238 to R240, R248, R292) -/

/-- Whether a waiter can never be served (R239). -/
def TokenQ.unsatisfiable (q : TokenQ) : Bool := q.waiters.any fun w => q.limit < w.count

/-- Work queues that a token queue notifies (R292). -/
def State.notifiedBy (s : State) (hall i : Nat) : List Nat :=
  s.vst.queues.filterMap fun p =>
    match p.2 with
    | some w => if w.hall = hall && w.notifyTq / 2 ^ 15 = 1 && w.notifyTq % 4096 = i then some p.1 else none
    | none => none

/-- The home slice takes the tokens of a queue that notifies work rings as doorbells (R292). -/
def State.takeNotices (s : State) (hall i : Nat) : State :=
  let qs := s.notifiedBy hall i
  let q := s.tokenQ hall i
  if qs.isEmpty || q.value = 0 then s
  else
    forEach qs (s.setTokenQ hall i { q with value := 0 }) fun s k =>
      s.onQueue k fun w => { w with notified := true }

/-- A signal of `c` tokens (R238), and whether it overflowed. -/
def State.signalTokens (s : State) (hall i agent c : Nat) : State × Bool :=
  let q := s.tokenQ hall i
  if !q.valid then (s.unconfigured hall, false)
  else if c = 0 then (s, false)
  else
    let past := q.limit < q.value + c
    let q1 := { q with
      value := min (q.value + c) q.limit,
      overflows := if past then min 0xFFFFFFFF (q.overflows + 1) else q.overflows }
    let s1 := s.setTokenQ hall i q1
    let s2 := if past then
        (s1.syncNotice F.SYNC_EVENT_TOKEN_OVERFLOW F.IC_VI_SYNC_TOKEN_OVERFLOW hall 0 i).syncLog hall 0 agent i
      else s1
    (s2.takeNotices hall i, past)

/-- A wait for `c` tokens (R239). -/
def State.waitTokens (s : State) (hall i agent c : Nat) (p : Party) : State :=
  let q := s.tokenQ hall i
  if !q.valid then s.unconfigured hall
  else if c = 0 then s.releaseParty p 0 hall i none
  else
    let s1 := s.setTokenQ hall i { q with waiters := q.waiters ++ [{ agent := agent, party := p, count := c }] }
    if q.limit < c then
      s1.syncNotice F.SYNC_EVENT_WAIT_UNSATISFIABLE F.IC_VI_SYNC_WAIT_UNSATISFIABLE hall 0 i
    else s1

/-- Serves the head waiter if VALUE covers it (R239). -/
def State.serveWaiter (s : State) (hall i : Nat) : State :=
  let q := s.tokenQ hall i
  match q.waiters with
  | [] => s
  | w :: rest =>
    if w.count ≤ q.value then
      (s.setTokenQ hall i { q with value := q.value - w.count, waiters := rest }).releaseParty w.party 0 hall i none
    else s

/-- A try of `c` tokens (R240). -/
def State.tryTokens (s : State) (hall i c : Nat) (p : Party) (dst : Nat) : State :=
  let q := s.tokenQ hall i
  if !q.valid then (s.unconfigured hall).answerTry p dst false
  else if q.waiters.isEmpty && c ≤ q.value then
    (s.setTokenQ hall i { q with value := q.value - c }).answerTry p dst true
  else s.answerTry p dst false

/-! ## Landings (R241 to R248) -/

/-- Child ports of a landing's tree. -/
def State.children (s : State) (x : Landing) : List Nat :=
  if x.system then (List.range 64).filter fun p => bit (s.tree x.tree).childMask p == 1 else []

/-- Agent of a child port (R236). -/
def childAgent (port : Nat) : Nat := 4368 + port

/-- Arrival-table entries a landing reserves (R245). -/
def State.reserved (s : State) (x : Landing) : Nat :=
  if x.valid then 2 * (x.count + (s.children x).length) else 0

/-- Whether the generation's arrivals are all in (R241, R252). A system landing whose tree is not written
completes nothing (R251). -/
def State.allIn (s : State) (x : Landing) : Bool :=
  let counted := x.arrivals.filter fun a => a.kind == .counted
  let locals := counted.filter fun a => a.agent < 4368
  x.count ≤ locals.length &&
    (!x.system || (s.tree x.tree).valid) &&
    (s.children x).all fun p => counted.any fun a => a.agent == childAgent p

/-- Whether a landing is timed now (R246). -/
def Landing.paced (x : Landing) : Bool := x.timed && !x.spent

/-- Signals the token queues anchored to a landing (R248). -/
def State.signalAnchors (s : State) (hall l : Nat) : State :=
  forEach (s.sync.queues.filter fun p => p.1 / 4096 == hall && p.2.anchored && p.2.anchor == l) s fun s p =>
    (s.signalTokens hall (p.1 % 4096) 8191 p.2.anchorTokens).1

/-- The landing after its release: phase, generation, held arrivals, RELEASE_NEXT (R241, R246). -/
def Landing.next (x : Landing) (now : Nat) : Landing :=
  let held := x.arrivals.filter fun a => a.kind == .held
  { x with
    phase := 1 - x.phase, generation := (x.generation + 1) % 2 ^ 64,
    arrivals := held.map fun a => { a with kind := .counted },
    waiters := x.waiters.filter fun w => w.phase != x.phase,
    localDone := false, completed := none, late := false, stalled := false,
    firstTread := if held.any fun a => a.agent < 4368 then some now else none, lastTread := now,
    releaseNext := if x.paced then (x.releaseNext + x.period) % 2 ^ 64 else x.releaseNext,
    spent := x.spent || (x.timed && x.period == 0) }

/-- Releases the generation of a landing (R241, R246, R248). -/
def State.releaseLanding (s : State) (hall l : Nat) : State :=
  let x := s.landing hall l
  let out := x.waiters.filter fun w => w.phase == x.phase
  let s1 := s.setLanding hall l (x.next (s.now hall))
  let late := if x.late then some x.releaseNext else none
  let s2 := forEach out s1 fun s w => s.releaseParty w.party 2 hall (2 * l + x.phase) late
  s2.signalAnchors hall l

/-- A signed value held to 32 bits. -/
def clamp32 (x : Int) : Int := max (-(2 ^ 31 - 1)) (min (2 ^ 31 - 1) x)

/-- A generation is complete at its unit, or its descent has arrived: it is released at once or waits for
RELEASE_NEXT (R241, R246, R247, R48). -/
def State.completeLanding (s : State) (hall l : Nat) : State :=
  let x := s.landing hall l
  let now := s.now hall
  if !x.paced then s.releaseLanding hall l
  else
    let slack : Int := (x.releaseNext : Int) - (now : Int)
    let late := decide (x.releaseNext < now)
    let x1 := { x with
      completed := some now, late := late, slack := clamp32 slack,
      minSlack := min x.minSlack (clamp32 slack),
      lateReleases := if late then min 0xFFFF (x.lateReleases + 1) else x.lateReleases }
    let s1 := s.setLanding hall l x1
    let s2 := if late then s1.addFld F.TIME_LATE_COUNT_LATE 1 else s1
    let s3 := if slack < x.slackWarn && x.slackIrq then
        s2.syncNotice F.SYNC_EVENT_LANDING_SLACK F.IC_VI_SYNC_LANDING_SLACK hall 1 (2 * l)
      else s2
    if x.releaseNext ≤ now then s3.releaseLanding hall l else s3

/-- Sends an ascent of a landing on a port (R252, R391). -/
def State.sendAscent (s : State) (x : Landing) (port : Nat) (resend : Bool) : State :=
  s.sendLink port 6 (.ascent x.phase resend x.tree x.sln)

/-- Sends a descent of a phase on ports. -/
def State.sendDescents (s : State) (x : Landing) (phase : Nat) (ports : List Nat) : State :=
  forEach ports s fun s p => s.sendLink p 6 (.descent phase false x.tree x.sln)

/-- Acts on a generation whose arrivals are all in (R241, R252); held arrivals may complete the next one. -/
def State.checkLanding (s : State) (hall l : Nat) : (fuel : Nat) → State
  | 0 => s
  | fuel + 1 =>
    let x := s.landing hall l
    if !x.valid || x.localDone || !s.allIn x then s
    else
      let x1 := { x with localDone := true }
      let s1 := s.setLanding hall l x1
      let t := s.tree x.tree
      if x.system && t.parentValid then s1.sendAscent x1 t.parentPort false
      else
        let s2 := if x.system then s1.sendDescents x1 x1.phase (s.children x) else s1
        (s2.completeLanding hall l).checkLanding hall l fuel

/-- A double arrival, or an arrival without an entry (R242, R243). -/
def State.doubleArrival (s : State) (hall l agent : Nat) : State :=
  let x := s.landing hall l
  ((s.setLanding hall l { x with doubles := min 0xFFFF (x.doubles + 1) }).syncNotice
    F.SYNC_EVENT_DOUBLE_ARRIVAL F.IC_VI_SYNC_DOUBLE_ARRIVAL hall 1 (2 * l)).syncLog hall 1 agent l

/-- Adds an arrival of the current phase that is counted, with the local records of R247. -/
def Landing.count1 (x : Landing) (agent now : Nat) : Landing :=
  let x1 := { x with arrivals := x.arrivals ++ [{ agent := agent, phase := x.phase, kind := .counted }] }
  if 4368 ≤ agent then x1
  else
    let first := x.firstTread.getD now
    let locals := (x1.arrivals.filter fun a => a.kind == .counted && a.agent < 4368).length
    let x2 := { x1 with firstTread := some first, lastTread := now }
    if locals = x.count && x.paced then
      { x2 with lastAgent := agent, spread := min 0xFFFFFFFF (now - first) }
    else x2

/-- An arrival at a landing (R241 to R243), and whether it was ignored as a double. -/
def State.arrive (s : State) (hall l agent phase : Nat) : State × Bool :=
  let x := s.landing hall l
  if !x.valid then (s.unconfigured hall, false)
  else if x.arrivals.any fun a => a.agent == agent && a.phase == phase then (s.doubleArrival hall l agent, true)
  else
    let room := decide (x.arrivals.length < s.reserved x)
    let add := fun (kind : ArrivalKind) =>
      if room then
        (s.setLanding hall l { x with arrivals := x.arrivals ++ [{ agent := agent, phase := phase, kind := kind }] }, false)
      else (s.doubleArrival hall l agent, true)
    if phase != x.phase then add .held
    else if x.localDone then add .excess
    else ((s.setLanding hall l (x.count1 agent (s.now hall))).checkLanding hall l 3, false)

/-- A landing wait (R244). -/
def State.waitLanding (s : State) (hall l agent phase : Nat) (p : Party) : State :=
  let x := s.landing hall l
  if !x.valid then s.unconfigured hall
  else if x.arrivals.any fun a => a.agent == agent && a.phase == phase then
    s.setLanding hall l { x with waiters := x.waiters ++ [{ agent := agent, party := p, phase := phase }] }
  else s.releaseParty p 2 hall (2 * l + phase) none

/-! ## Commands on operations that reach a landing unit -/

/-- The object an operation goes to: kind, hall and number. -/
def SyncOp.object : SyncOp → Nat × Nat × Nat
  | .signal h i _ _ => (0, h, i)
  | .wait h i _ _ _ => (0, h, i)
  | .try h i _ _ _ _ => (0, h, i)
  | .arrive h l _ _ => (1, h, l)
  | .landWait h l _ _ _ => (1, h, l)
  | .ascent _ _ _ _ n => (2, 0, n)
  | .descent _ _ _ _ n => (2, 0, n)

/-- The issuer of an operation. -/
def SyncOp.agent : SyncOp → Nat
  | .signal _ _ a _ => a
  | .wait _ _ a _ _ => a
  | .try _ _ a _ _ _ => a
  | .arrive _ _ a _ => a
  | .landWait _ _ a _ _ => a
  | .ascent p _ _ _ _ => childAgent p
  | .descent p _ _ _ _ => childAgent p

/-- The `i`-th operation on its way, unless an earlier one of the same agent goes to the same object. -/
def State.takeSync (s : State) (i : Nat) : Option (SyncOp × State) :=
  match s.sync.net[i]? with
  | some o =>
    if (s.sync.net.take i).any fun x => x.object == o.object && x.agent == o.agent then none
    else some (o, s.onSync fun y => { y with net := y.net.eraseIdx i })
  | none => none

/-- R238: a signal reaches its token queue. -/
def doTokenSignal (i : Nat) (s : State) : State :=
  match s.takeSync i with
  | some (.signal h k a c, s1) => (s1.signalTokens h k a c).1
  | _ => s

/-- R239: a wait reaches its token queue. -/
def doTokenWait (i : Nat) (s : State) : State :=
  match s.takeSync i with
  | some (.wait h k a c p, s1) => s1.waitTokens h k a c p
  | _ => s

/-- R239: a token queue serves its head waiter. -/
def doTokenWaiterRelease (hall i : Nat) (s : State) : State := s.serveWaiter hall i

/-- R240: a try reaches its token queue. -/
def doTokenTry (i : Nat) (s : State) : State :=
  match s.takeSync i with
  | some (.try h k _ c p d, s1) => s1.tryTokens h k c p d
  | _ => s

/-- R241: an arrival reaches its landing. -/
def doLandingArrival (i : Nat) (s : State) : State :=
  match s.takeSync i with
  | some (.arrive h l a ph, s1) => (s1.arrive h l a ph).1
  | _ => s

/-- R244: an `LWAIT` reaches its landing. -/
def doLandingWait (i : Nat) (s : State) : State :=
  match s.takeSync i with
  | some (.landWait h l a ph p, s1) => s1.waitLanding h l a ph p
  | _ => s

/-- R246: a completed timed generation is released at RELEASE_NEXT. -/
def doTimedLandingRelease (hall l : Nat) (s : State) : State :=
  let x := s.landing hall l
  if x.completed.isSome && (!x.paced || x.releaseNext ≤ s.now hall) then
    (s.releaseLanding hall l).checkLanding hall l 3
  else s

/-- R247: a generation has not completed STALL treads after its first local arrival. -/
def doLandingStallDetect (hall l : Nat) (s : State) : State :=
  let x := s.landing hall l
  match x.firstTread with
  | some t =>
    if x.valid && x.stall != 0 && !x.stalled && x.completed.isNone && t + x.stall ≤ s.now hall then
      (s.setLanding hall l { x with stalled := true }).syncNotice F.SYNC_EVENT_LANDING_STALLED
        F.IC_VI_SYNC_LANDING_STALLED hall 1 (2 * l)
    else s
  | none => s

/-! ## The stairwell (R251 to R255, R391) -/

/-- A stairwell message is dropped (R254); H0's window counts those that name no landing. -/
def State.dropStair (s : State) (hall : Nat) : State :=
  (s.addFld F.SYNC_MSG_DROPPED_COUNT 1 hall).syncEvent F.SYNC_EVENT_MSG_DROPPED hall

/-- The landing that a message's SLN names, when its tree matches. -/
def State.stairTarget (s : State) (tree sln : Nat) : Except Nat (Nat × Nat × Landing) :=
  let e := s.sln sln
  if !e.valid then .error 0
  else
    let x := s.landing e.hall e.landing
    if x.valid && (!x.system || x.tree != tree || x.sln != sln) then .error e.hall
    else .ok (e.hall, e.landing, x)

/-- R252, R255: an ascent arrives from a child port. -/
def doAscentReceive (i : Nat) (s : State) : State :=
  match s.takeSync i with
  | some (.ascent port phase resend tree sln, s1) =>
    match s1.stairTarget tree sln with
    | .error h => s1.dropStair h
    | .ok (h, l, x) =>
      if !x.valid then s1.unconfigured h
      else
        let t := s1.tree tree
        if t.valid && bit t.childMask port = 0 then s1.dropStair h
        else if resend && phase != x.phase && 0 < x.generation then
          s1.sendDescents x phase [port]
        else (s1.arrive h l (childAgent port) phase).1
  | _ => s

/-- R252: a descent arrives from the parent. -/
def doDescentReceive (i : Nat) (s : State) : State :=
  match s.takeSync i with
  | some (.descent port phase _ tree sln, s1) =>
    match s1.stairTarget tree sln with
    | .error h => s1.dropStair h
    | .ok (h, l, x) =>
      if !x.valid then (s1.dropStair h).unconfigured h
      else
        let t := s1.tree tree
        if !t.parentValid || t.parentPort != port || phase != x.phase then s1.dropStair h
        else
          let s2 := s1.sendDescents x x.phase (s1.children x)
          (s2.completeLanding h l).checkLanding h l 3
  | _ => s

/-! ## End of operations and wipes (R257) -/

/-- The party that made an operation which waits for an answer. -/
def SyncOp.party : SyncOp → Option Party
  | .wait _ _ _ _ p => some p
  | .try _ _ _ _ p _ => some p
  | .landWait _ _ _ _ p => some p
  | _ => none

/-- Cancels the waits of parties (R257). Their arrivals and signals stay. -/
def State.cancelParties (s : State) (which : Party → Bool) : State :=
  s.onSync fun y => { y with
    queues := y.queues.map fun p => (p.1, { p.2 with waiters := p.2.waiters.filter fun w => !which w.party }),
    landings := y.landings.map fun p => (p.1, { p.2 with waiters := p.2.waiters.filter fun w => !which w.party }),
    net := y.net.filter fun o => match o.party with
      | some p => !which p
      | none => true }

/-- Wipes objects of a kind in a hall, by number: `lo` to `hi` − 1 (R257). -/
def State.wipeObjects (s : State) (hall kind lo hi : Nat) : State :=
  let out := fun (k : Nat) => !(k / 4096 == hall && lo ≤ k % 4096 && k % 4096 < hi)
  match kind with
  | 0 => s.onSync fun y => { y with queues := y.queues.filter fun p => out p.1 }
  | 1 => s.onSync fun y => { y with landings := y.landings.filter fun p => out p.1 }
  | _ => s.onMem fun m => { m with counters := m.counters.filter fun p => out p.1 }

/-! ## Configuration (R245, R255, R256, R258, R290) -/

/-- Results of a configuration command. -/
def syncDone : Nat := 0
def syncBad : Nat := 1
def syncBusy : Nat := 2
def syncNoSpace : Nat := 3
def syncBadConfig : Nat := 4
def syncNotH0 : Nat := 5

/-- Number of objects of a kind that commands name. -/
def syncCount (kind : Nat) : Nat := [4096, 1024, 4096, 0, 64, 4096].getD kind 0

/-- Bytes of a record (R290). -/
def syncRecordBytes (kind : Nat) : Nat := [16, 64, 16, 0, 16, 4].getD kind 0

def TokenQ.toRecord (q : TokenQ) : List Nat :=
  toBytes 2 q.limit ++ toBytes 2 q.value ++
    [(if q.valid then 1 else 0) + (if q.anchored then 2 else 0) + (if q.unsatisfiable then 4 else 0), 0] ++
    toBytes 2 q.anchor ++ toBytes 2 q.anchorTokens ++ toBytes 2 (min 0xFFFF q.waiters.length) ++
    toBytes 4 q.overflows

def Landing.toRecord (x : Landing) : List Nat :=
  let n := fun (k : ArrivalKind) => (x.arrivals.filter fun a => a.kind == k).length
  [(if x.valid then 1 else 0) + (if x.system then 2 else 0) + (if x.timed then 4 else 0) +
      (if x.slackIrq then 8 else 0), x.tree] ++
    toBytes 2 x.count ++ toBytes 2 x.sln ++ [0, 0] ++ toBytes 8 x.releaseNext ++ toBytes 8 x.period ++
    toBytes 4 (ofInt 32 x.slackWarn) ++ toBytes 4 x.stall ++ toBytes 8 x.generation ++ [x.phase, 0] ++
    toBytes 2 (n .counted) ++ toBytes 2 (n .held) ++ toBytes 2 x.lastAgent ++ toBytes 4 (ofInt 32 x.slack) ++
    toBytes 4 (ofInt 32 x.minSlack) ++ toBytes 4 x.spread ++ toBytes 2 x.doubles ++ toBytes 2 x.lateReleases

def Tree.toRecord (t : Tree) : List Nat :=
  [(if t.valid then 128 else 0) + (if t.parentValid then 64 else 0) + t.parentPort, 0, 0, 0, 0, 0, 0, 0] ++
    toBytes 8 t.childMask

def SlnEntry.toRecord (e : SlnEntry) : List Nat :=
  toBytes 4 ((if e.valid then 2 ^ 31 else 0) + e.hall * 1024 + e.landing)

/-- The record of an object. -/
def State.syncRecord (s : State) (hall kind i : Nat) : List Nat :=
  match kind with
  | 0 => (s.tokenQ hall i).toRecord
  | 1 => (s.landing hall i).toRecord
  | 2 =>
    let c := s.counter hall i
    toBytes 8 c.count.toNat ++ [if c.packets then 1 else 0, 0, 0, 0, 0, 0, 0, 0]
  | 4 => (s.tree i).toRecord
  | _ => (s.sln i).toRecord

/-- The offset of the first check that fails. -/
def firstFail : List (Bool × Nat) → Option Nat
  | [] => none
  | (ok, off) :: r => if ok then firstFail r else some off

def tokenRecordFails (r : List Nat) : Option Nat :=
  let anchored := bit (byteAt r 4) 1 == 1
  firstFail [(1 ≤ field r 0 2, 0), (byteAt r 4 < 8, 4), (byteAt r 5 == 0, 5), (field r 6 2 < 1024, 6),
    (!anchored || 1 ≤ field r 8 2, 8)]

def landingRecordFails (r : List Nat) : Option Nat :=
  let system := bit (byteAt r 0) 1 == 1
  firstFail [(byteAt r 0 < 16, 0), (byteAt r 1 < (if system then 64 else 1), 1),
    (1 ≤ field r 2 2 && field r 2 2 < 4096, 2), (field r 4 2 < (if system then 4096 else 1), 4),
    (field r 6 2 == 0, 6), (field r 0x10 8 < 2 ^ 36, 0x10), (byteAt r 0x29 == 0, 0x29)]

def treeRecordFails (r : List Nat) : Option Nat := firstFail ((upTo 1 7).map fun i => (byteAt r i == 0, i))

def slnRecordFails (r : List Nat) : Option Nat :=
  let v := leNat r
  firstFail [(bits v 15 13 == 0, 1), (bits v 23 16 == 0, 2), (bits v 30 24 == 0, 3)]

def TokenQ.write (q : TokenQ) (r : List Nat) : TokenQ :=
  let limit := field r 0 2
  { q with valid := bit (byteAt r 4) 0 == 1, limit := limit, value := min q.value limit,
           anchored := bit (byteAt r 4) 1 == 1, anchor := field r 6 2, anchorTokens := field r 8 2 }

/-- A landing written from a record. One that was unconfigured has seen no slack (log 39). -/
def Landing.write (x : Landing) (r : List Nat) : Landing :=
  let next := field r 8 8
  { x with
    valid := bit (byteAt r 0) 0 == 1, system := bit (byteAt r 0) 1 == 1, timed := bit (byteAt r 0) 2 == 1,
    slackIrq := bit (byteAt r 0) 3 == 1, tree := byteAt r 1, count := field r 2 2, sln := field r 4 2,
    releaseNext := next, period := field r 0x10 8, slackWarn := toInt 32 (field r 0x18 4), stall := field r 0x1C 4,
    spent := x.spent && next == x.releaseNext,
    minSlack := if x.valid then x.minSlack else 2 ^ 31 - 1 }

/-- Whether reservations fit every hall's arrival table (R245). -/
def State.tablesFit (s : State) : Bool :=
  (List.range 8).all fun h =>
    ((s.sync.landings.filter fun p => p.1 / 4096 == h).foldl (fun a p => a + s.reserved p.2) 0) ≤ 8192

/-- Applies a rewritten tree entry to the landings that name it (R251, R255). -/
def State.treeChanged (s : State) (t : Nat) (old : Tree) : State :=
  let new := s.tree t
  let parent := fun (x : Tree) => if x.parentValid then some x.parentPort else none
  let mine := s.sync.landings.filter fun p => p.2.valid && p.2.system && p.2.tree == t
  forEach mine s fun s p =>
    let hall := p.1 / 4096
    let l := p.1 % 4096
    let x := s.landing hall l
    let x1 := { x with arrivals := x.arrivals.filter fun a =>
      a.kind != .counted || a.agent < 4368 || bit new.childMask (a.agent - 4368) == 1 }
    let s1 := s.setLanding hall l x1
    if x1.localDone && x1.completed.isNone then
      if parent new = parent old then s1
      else
        match parent new with
        | some p => s1.sendAscent x1 p true
        | none =>
          if new.valid then
            ((s1.sendDescents x1 x1.phase (s1.children x1)).completeLanding hall l).checkLanding hall l 3
          else s1
    else s1.checkLanding hall l 3

/-- Writes a record (R256): the state after, the result and the failing offset. -/
def State.syncWrite (s : State) (hall kind i : Nat) (r : List Nat) : State × Nat × Nat :=
  match kind with
  | 0 =>
    match tokenRecordFails r with
    | some off => (s, syncBadConfig, off)
    | none =>
      let q := s.tokenQ hall i
      let q1 := q.write r
      if !q.waiters.isEmpty && (q1.limit != q.limit || q1.anchored != q.anchored || q1.anchor != q.anchor) then
        (s, syncBusy, 0)
      else (s.setTokenQ hall i q1, syncDone, 0)
  | 1 =>
    match landingRecordFails r with
    | some off => (s, syncBadConfig, off)
    | none =>
      let x := s.landing hall i
      let x1 := x.write r
      let changed := x1.count != x.count || x1.system != x.system || x1.tree != x.tree || x1.sln != x.sln
      if (!x.waiters.isEmpty || !x.arrivals.isEmpty) && changed then (s, syncBusy, 0)
      else
        let s1 := s.setLanding hall i x1
        if s1.tablesFit then (s1, syncDone, 0) else (s, syncNoSpace, 0)
  | 4 =>
    match treeRecordFails r with
    | some off => (s, syncBadConfig, off)
    | none =>
      let t : Tree :=
        { valid := true, parentValid := bit (byteAt r 0) 6 == 1, parentPort := byteAt r 0 % 64,
          childMask := field r 8 8 }
      let s1 := s.onSync fun y => { y with trees := tset .reset y.trees i t }
      if s1.tablesFit then (s1.treeChanged i (s.tree i), syncDone, 0) else (s, syncNoSpace, 0)
  | _ =>
    match slnRecordFails r with
    | some off => (s, syncBadConfig, off)
    | none =>
      let v := leNat r
      let e : SlnEntry := { valid := bit v 31 == 1, hall := bits v 12 10, landing := bits v 9 0 }
      (s.onSync fun y => { y with slns := tset .reset y.slns i e }, syncDone, 0)

/-- A landing after INIT (R256). -/
def Landing.init (x : Landing) : Landing :=
  { x with generation := 0, phase := 0, lastAgent := 0, slack := 0, minSlack := 2 ^ 31 - 1, spread := 0,
           doubles := 0, lateReleases := 0, arrivals := [], waiters := [], localDone := false, completed := none,
           late := false, firstTread := none, lastTread := 0, stalled := false }

/-- Clears a tree entry (R256). -/
def State.clearTree (s : State) (i : Nat) : State :=
  let old := s.tree i
  (s.onSync fun y => { y with trees := tdel y.trees i }).treeChanged i old

/-- INIT of an object. -/
def State.syncInit (s : State) (hall kind i : Nat) : State × Nat :=
  match kind with
  | 0 =>
    let q := s.tokenQ hall i
    if q.waiters.isEmpty then (s.setTokenQ hall i { q with value := 0, overflows := 0 }, syncDone)
    else (s, syncBusy)
  | 1 =>
    let x := s.landing hall i
    if x.waiters.isEmpty then (s.setLanding hall i x.init, syncDone) else (s, syncBusy)
  | 2 => (s.setCounter hall i .reset, syncDone)
  | 4 => (s.clearTree i, syncDone)
  | _ => (s.onSync fun y => { y with slns := tdel y.slns i }, syncDone)

/-- DISABLE of an object. -/
def State.syncDisable (s : State) (hall kind i : Nat) : State × Nat :=
  match kind with
  | 0 =>
    if (s.tokenQ hall i).waiters.isEmpty then (s.setTokenQ hall i .reset, syncDone) else (s, syncBusy)
  | 1 =>
    let x := s.landing hall i
    if x.waiters.isEmpty && x.arrivals.isEmpty then (s.setLanding hall i .reset, syncDone) else (s, syncBusy)
  | 4 => (s.clearTree i, syncDone)
  | _ => (s.onSync fun y => { y with slns := tdel y.slns i }, syncDone)

/-- Whether a command names no object or no operation of its kind (R256). -/
def syncRefuses (op kind i : Nat) : Bool :=
  3 < op || syncCount kind ≤ i || (kind == 2 && (op == 1 || op == 3))

/-- The record that `SYNC_DATA` of a hall holds. -/
def State.syncData (s : State) (h n : Nat) : List Nat :=
  ((List.range 16).flatMap fun w => toBytes 4 (s.reg .SYNC_DATA h w)).take n

/-- A write of `SYNC_CMD` in the window of hall `h` (R256, R258). -/
def State.syncCommand (s : State) (h op kind i : Nat) : State :=
  let done := fun (r : State × Nat × Nat) =>
    (r.1.setFld F.SYNC_CMD_STATUS_RESULT r.2.1 h).setFld F.SYNC_CMD_STATUS_OFFSET r.2.2 h
  if syncRefuses op kind i then done (s, syncBad, 0)
  else if (kind = 4 || kind = 5) && h != 0 then done (s, syncNotH0, 0)
  else
    match op with
    | 0 =>
      let r := s.syncRecord h kind i
      done (forEach (List.range (r.length / 4)) s fun s w => s.setReg .SYNC_DATA h w (field r (4 * w) 4), syncDone, 0)
    | 1 => done (s.syncWrite h kind i (s.syncData h (syncRecordBytes kind)))
    | 2 =>
      let r := s.syncInit h kind i
      done (r.1, r.2, 0)
    | _ =>
      let r := s.syncDisable h kind i
      done (r.1, r.2, 0)

end Sys2Proof.Machine
end

