-- ==== Sys2Proof/Machine/Anneal.lean ====
section
/-! DEFINITION. The annealers (R259 to R282): descriptor checks, sweeps, exchange, sweep points and endings. -/

namespace Sys2Proof.Machine

/-! ## The descriptor (R262) -/

structure AnnDesc where
  bytes : List Nat

namespace AnnDesc

def rows (d : AnnDesc) : Nat := field d.bytes 0x00 8
def entries (d : AnnDesc) : Nat := field d.bytes 0x08 8
def scale (d : AnnDesc) : Nat := field d.bytes 0x10 8
def bias (d : AnnDesc) : Nat := field d.bytes 0x18 8
def state (d : AnnDesc) : Nat := field d.bytes 0x20 8
def clampAt (d : AnnDesc) : Nat := field d.bytes 0x28 8
def trace (d : AnnDesc) : Nat := field d.bytes 0x30 8
def best (d : AnnDesc) : Nat := field d.bytes 0x38 8
def seed (d : AnnDesc) : Nat := field d.bytes 0x40 8
def target (d : AnnDesc) : Nat := field d.bytes 0x48 8
def landing (d : AnnDesc) : Nat := field d.bytes 0x50 8
def counter (d : AnnDesc) : Nat := field d.bytes 0x58 8
def counterStep (d : AnnDesc) : Nat := field d.bytes 0x60 8
def peers (d : AnnDesc) : Nat := field d.bytes 0x68 8
def n (d : AnnDesc) : Nat := field d.bytes 0x70 4
def blockSpins (d : AnnDesc) : Nat := field d.bytes 0x74 2
def ctrl (d : AnnDesc) : Nat := byteAt d.bytes 0x76
def dense (d : AnnDesc) : Bool := bit d.ctrl 0 == 1
def binary (d : AnnDesc) : Bool := bit d.ctrl 1 == 1
def bestEn (d : AnnDesc) : Bool := bit d.ctrl 2 == 1
def targetEn (d : AnnDesc) : Bool := bit d.ctrl 3 == 1
def resume (d : AnnDesc) : Bool := bit d.ctrl 4 == 1
def replicas (d : AnnDesc) : Nat := byteAt d.bytes 0x77
def sweeps (d : AnnDesc) : Nat := field d.bytes 0x78 4
def exchEvery (d : AnnDesc) : Nat := field d.bytes 0x7C 2
def traceEvery (d : AnnDesc) : Nat := field d.bytes 0x7E 2
def epochs (d : AnnDesc) : Nat := field d.bytes 0x80 4
def traceMax (d : AnnDesc) : Nat := field d.bytes 0x84 4
def gslot (d : AnnDesc) : Nat := field d.bytes 0x88 2
def gsize (d : AnnDesc) : Nat := field d.bytes 0x8A 2
def peerCount (d : AnnDesc) : Nat := byteAt d.bytes 0x8C
def counterInit (d : AnnDesc) : Nat := field d.bytes 0x90 8
def beta (d : AnnDesc) (r : Nat) : Nat := field d.bytes (0xC0 + 4 * r) 4

/-- B: the number of blocks. -/
def blocks (d : AnnDesc) : Nat := (d.n + d.blockSpins - 1) / d.blockSpins

/-- The block of an epoch (R273). -/
def blockOf (d : AnnDesc) (epoch : Nat) : Nat := (epoch * d.gsize + d.gslot) % d.blocks

/-- Spins of a block. -/
def blockLen (d : AnnDesc) (b : Nat) : Nat := min ((b + 1) * d.blockSpins) d.n - b * d.blockSpins

end AnnDesc

def AnnRun.d (r : AnnRun) : AnnDesc := { bytes := r.desc }

/-- The resident block. -/
def AnnRun.block (r : AnnRun) : Nat := r.d.blockOf r.epoch

/-- Global index of the resident block's first spin. -/
def AnnRun.first (r : AnnRun) : Nat := r.block * r.d.blockSpins

/-- An array of `len` bytes lies in the allocations of `v` and names existing memory of the own device (R263). -/
def State.annArray (s : State) (v ga len : Nat) (write : Bool) (spaces : List Nat) : Bool :=
  spaces.contains (gaSpace ga) && gaDevice ga == s.deviceId && addressFields ga && s.namesMemory ga len &&
    s.viMay v ga len write

/-- A nonnegative finite FP32 inverse temperature. -/
def betaOk (x : Nat) : Bool :=
  match readFloat .fp32 x with
  | .num neg m _ => !neg || m == 0
  | _ => false

/-- The checks of R263 for the annealer of hall `h` and interface `v`: the offset of the first failing field. -/
def State.annealFails (s : State) (h v : Nat) (desc : List Nat) : Option Nat :=
  let d : AnnDesc := { bytes := desc }
  let b := d.blocks
  let gd := [spaceG, spaceD]
  let r := fun ga len => s.annArray v ga len false gd
  let w := fun ga len => s.annArray v ga len true gd
  let single := b ≤ 1
  firstFail ([
    (if d.dense then d.rows == 0 else r d.rows (8 * d.n), 0x00),
    (r d.entries (if d.dense then d.n * d.n else 4), 0x08),
    (r d.scale (2 * d.n), 0x10),
    (r d.bias (4 * d.n), 0x18),
    (s.annArray v d.state (4 * b * d.blockSpins) true [spaceD], 0x20),
    (if single then d.clampAt == 0 else
      s.annArray v d.clampAt (128 * d.blockSpins) true [spaceG] && gByte (gaOffset d.clampAt) / 2 ^ 26 == h, 0x28),
    (w d.trace (256 + 160 * d.traceMax), 0x30),
    (if d.bestEn then w d.best ((d.n + 7) / 8) else d.best == 0, 0x38),
    ((d.landing == 0 && d.gsize ≤ 1) || (d.landing != 0 && s.handleOk v d.landing 1), 0x50),
    (if d.peerCount = 0 then d.counter == 0 else s.handleOk v d.counter 2, 0x58),
    (if d.peerCount = 0 then d.peers == 0 else s.annArray v d.peers (4 * d.peerCount) false [spaceD], 0x68),
    (1 ≤ d.n && d.n ≤ 16777216 && b ≤ 1024 && (d.peerCount != 0 || b ≤ 64), 0x70),
    (1 ≤ d.blockSpins && d.blockSpins ≤ 16384, 0x74),
    (d.ctrl < 32 && (single || (!d.dense && !d.bestEn && !d.targetEn)), 0x76),
    (1 ≤ d.replicas && d.replicas ≤ 32, 0x77),
    (1 ≤ d.sweeps, 0x78),
    (1 ≤ d.epochs && (!single || d.epochs == 1), 0x80),
    (d.gslot < d.gsize, 0x88),
    (1 ≤ d.gsize && d.gsize ≤ 1024 && d.gsize ≤ b, 0x8A),
    (d.peerCount ≤ 127, 0x8C),
    (field desc 0x8E 2 == 0, 0x8E),
    (d.counterInit == 0 || (!d.resume && !single && d.peerCount != 0), 0x90)] ++
    (upTo 0x98 40).map (fun i => (byteAt desc i == 0, i)) ++
    (List.range (min d.replicas 32)).map fun i => (betaOk (d.beta i), 0xC0 + 4 * i))

/-! ## Reading and writing the arrays -/

/-- Notes a poisoned read that concerns a spin (R280). -/
def State.annPoison (s : State) (h spin code : Nat) (r : DRead) : State :=
  let s1 := s.onAnn h fun x => { x with
    poison := true, dirty := spin :: x.dirty, cause := if x.cause = 0 then r.cause else x.cause,
    sharedPoison := x.sharedPoison.or r.region }
  s1.raiseLog F.ANN_ERROR_VALID F.ANN_ERROR_OVERRUN (source h 72) h 0
    [(F.ANN_ERROR_CODE, code), (F.ANN_ERROR_SPIN, spin % 2 ^ 24)]

/-- Reads an array for the row of spin `spin`, volatile; bytes outside the operation's allocations read as
zeros with poison (log 40). -/
def State.annRead (s : State) (h spin ga len : Nat) : State × List Nat :=
  match s.annRun h with
  | none => (s, zeros len)
  | some x =>
    let r := if s.annArray x.vi ga len false [spaceG, spaceD] then s.readSpace h (s.annealerPart h) true ga len
      else { st := s, data := zeros len, marks := List.replicate len true, poison := true, cause := 0, region := none }
    (if r.poison then r.st.annPoison h spin 2 r else r.st, r.data)

/-- Writes bytes with their poison marks to D-space or G-space for the annealer of hall `h`. -/
def State.annWrite (s : State) (h ga : Nat) (data : List Nat) (marks : List Bool) : State :=
  let off := gaOffset ga
  if gaSpace ga = spaceD then
    (s.writeSectors (data.length / 32 + 2) off (data.zip marks)).dropRange h off data.length
  else s.writeG (gByte off) data marks

def cleanMarks (l : List Nat) : List Bool := l.map fun _ => false

/-! ## Rows (R264, R265) -/

/-- A row: scale and bias as values, in-block couplings by local index, cross couplings by global index. -/
structure AnnRow where
  scale : Val
  bias : Val
  inside : List (Nat × Int)
  cross : List (Nat × Int)
  ok : Bool
  deriving DecidableEq, Repr

def Val.finite : Val → Bool
  | .num .. => true
  | _ => false

/-- Reads the row of global spin `i`. -/
def State.annRowOf (s : State) (h : Nat) (x : AnnRun) (i : Nat) : State × AnnRow :=
  let d := x.d
  let (s1, sc) := s.annRead h i (d.scale + 2 * i) 2
  let (s2, bi) := s1.annRead h i (d.bias + 4 * i) 4
  let scale := (readOperand .fp16 (leNat sc)).1
  let bias := (readOperand .fp32 (leNat bi)).1
  let good := scale.finite && bias.finite
  if d.dense then
    let (s3, l) := s2.annRead h i (d.entries + i * d.n) d.n
    (s3, { scale := scale, bias := bias,
           inside := (l.mapIdx fun j q => (j, toInt 8 q)).filter fun p => p.1 != i, cross := [], ok := good })
  else
    let (s3, hd) := s2.annRead h i (d.rows + 8 * i) 8
    let w := leNat hd
    let inCount := bits w 40 32
    let total := bits w 49 41
    if 256 < total || total < inCount then
      (s3, { scale := scale, bias := bias, inside := [], cross := [], ok := false })
    else
      let (s4, l) := if total = 0 then (s3, []) else s3.annRead h i (d.entries + 4 * bits w 31 0) (4 * total)
      let es := (List.range total).map fun k => (field l (4 * k) 3, toInt 8 (byteAt l (4 * k + 3)))
      let mine := fun (j : Nat) => x.first ≤ j && j < x.first + x.spins.length
      let fits := fun (p : Nat × Int) => p.1 < d.n
      (s4, { scale := scale, bias := bias,
             inside := ((es.take inCount).filter fun p => p.1 != i && mine p.1).map fun p => (p.1 - x.first, p.2),
             cross := (es.drop inCount).filter fun p => fits p && p.1 != i,
             ok := good && es.all fits && (es.take inCount).all (fun p => mine p.1) &&
               (es.drop inCount).all fun p => !mine p.1 })

/-! ## Values and energies (R260, R261, R274) -/

/-- The value of a spin word in slot `r`. -/
def spinVal (binary : Bool) (word r : Nat) : Int :=
  if bit word r = 1 then 1 else if binary then 0 else -1

/-- Σ q v over in-block entries for slot `r`. -/
def AnnRun.fieldOf (x : AnnRun) (row : AnnRow) (r : Nat) : Int :=
  row.inside.foldl (fun a p => a + p.2 * spinVal x.d.binary (x.spins.getD p.1 0) r) 0

/-- The clamp field of the resident spin with local index `k` in slot `r`, read from CLAMP. -/
def clampOf (clamps : List Nat) (r : Nat) : Int := toInt 32 (field clamps (4 * r) 4)

/-- Reads the clamp fields of a spin; none in a single-block run. -/
def State.annClamps (s : State) (h : Nat) (x : AnnRun) (k : Nat) : State × List Nat :=
  if x.d.blocks ≤ 1 then (s, zeros 128) else s.annRead h (x.first + k) (x.d.clampAt + 128 * k) 128

/-- h_i of R260. -/
def AnnRun.local (x : AnnRun) (row : AnnRow) (clamps : List Nat) (r : Nat) : Val :=
  let f := rn32 (row.scale.times (.ofInt (x.fieldOf row r + clampOf clamps r)))
  rn32 (f.plus row.bias)

/-- The flip cost of R260. -/
def AnnRun.flipCost (x : AnnRun) (row : AnnRow) (clamps : List Nat) (k r : Nat) : Val :=
  let hi := x.local row clamps r
  let on := bit (x.spins.getD k 0) r == 1
  if x.d.binary then (if on then hi else hi.neg)
  else rn32 ((if on then hi else hi.neg).scale 1)

/-- Adds a spin's terms to a slot's energy, one rounding each (R261, R269, R274; log 41). -/
def AnnRun.addEnergy (x : AnnRun) (row : AnnRow) (clamps : List Nat) (k r : Nat) (e : Val) : Val :=
  let v := Val.ofInt (spinVal x.d.binary (x.spins.getD k 0) r)
  let f := rn32 (row.scale.times (.ofInt (x.fieldOf row r)))
  let b := if x.d.blocks ≤ 1 then row.bias
    else rn64 (row.bias.plus (rn32 (row.scale.times (.ofInt (clampOf clamps r)))))
  let e1 := rn64 (e.plus ((v.times f).scale (-1)).neg)
  rn64 (e1.plus (v.times b).neg)

/-! ## Writing state -/

/-- The bytes and marks of the resident block's region of STATE: words beyond N are zero. -/
def AnnRun.region (x : AnnRun) : List Nat × List Bool :=
  let words := x.spins ++ List.replicate (x.d.blockSpins - x.spins.length) 0
  (words.flatMap (toBytes 4),
   (List.range words.length).flatMap fun k => List.replicate 4 (x.dirty.contains (x.first + k)))

/-- Writes the resident block to STATE. -/
def State.annStore (s : State) (h : Nat) (x : AnnRun) : State :=
  if x.spins.isEmpty then s
  else
    let (data, marks) := x.region
    s.annWrite h (x.d.state + 4 * x.first) data marks

/-- The packets that send a region of STATE to every peer (R275). -/
def AnnRun.sendsOf (x : AnnRun) (peers : List Nat) (block : Nat) (data : List Nat) (marks : List Bool) : List AnnSend :=
  let base := gaOffset x.d.state + 4 * block * x.d.blockSpins
  peers.flatMap fun dev =>
    (rowPackets (data.length / 256 + 2) 0 base data.length).map fun p =>
      { dev := dev, spin := block * x.d.blockSpins + p.1 / 4, dst := gaMake dev spaceD p.2.1,
        data := slice data p.1 p.2.2, poison := partMask (slice marks p.1 p.2.2) }

/-- The devices of PEERS. -/
def State.annPeers (s : State) (h : Nat) (x : AnnRun) : State × List Nat :=
  if x.d.peerCount = 0 then (s, [])
  else
    let (s1, l) := s.annRead h x.first x.d.peers (4 * x.d.peerCount)
    (s1, (List.range x.d.peerCount).map fun i => bits (field l (4 * i) 4) 16 0)

/-! ## Launch (R276) -/

/-- Initial words of a block: spin i takes bit 31 of its draw in each slot (R271). -/
def AnnRun.initWords (x : AnnRun) (b : Nat) : List Nat :=
  let d := x.d
  (List.range (d.blockLen b)).map fun k =>
    (List.range d.replicas).foldl (fun w r =>
      w + bit (draw ((d.seed + 2) % 2 ^ 64) ((b * d.blockSpins + k) * 32 + r)) 31 * 2 ^ r) 0

/-- The annealer of hall `h` launches its operation at its island's replica count. -/
def State.annLaunch (s : State) (h : Nat) : State :=
  s.onAnn h fun x =>
    let y := { x with startTread := s.now (8 + h) }
    if x.d.resume then { y with stage := .load }
    else if x.d.blocks ≤ 1 then { y with stage := .eval, spins := x.initWords 0 }
    else { y with stage := .initial }

/-- An operation handed to the annealer of hall `h` (R263), not launched. -/
def AnnRun.fresh (queue op vi : Nat) (desc : List Nat) : AnnRun :=
  { queue := queue, op := op, vi := vi, desc := desc, stage := .ready, epoch := 0, done := 0, inEpoch := 0,
    spins := [], energy := [], flipsEntry := 0, exchEntry := 0, entries := 0, overflow := false, best := none,
    target := false, points := 0, startTread := 0, flips := 0, exchAccept := zeros 31, rounds := 0,
    phase := tIndex (gaOffset (field desc 0x50 8)) % 2, initPoint := false, problem := none, poison := false,
    dirty := [], sharedPoison := none, cause := 0, sends := [], sendError := 0 }

/-! ## Epochs -/

/-- R276: the annealer initialises its blocks, writes and sends them, and passes the initial sweep point. -/
def doAnnealInitialSweepPoint (h : Nat) (s : State) : State :=
  match s.annRun h with
  | some x =>
    if x.stage = .initial then
      let mine := (List.range x.d.blocks).filter fun b => b % x.d.gsize == x.d.gslot
      let (s0, peers) := s.annPeers h x
      let s1 := forEach mine s0 fun s b =>
        let words := x.initWords b
        let data := (words ++ List.replicate (x.d.blockSpins - words.length) 0).flatMap (toBytes 4)
        (s.annWrite h (x.d.state + 4 * b * x.d.blockSpins) data (cleanMarks data)).onAnn h fun y =>
          { y with sends := y.sends ++ x.sendsOf peers b data (cleanMarks data) }
      let s2 := s1.onAnn h fun y => { y with stage := .sending, initPoint := true }
      s2.annPump h (((s2.annRun h).map fun y => y.sends.length).getD 0 + 1)
    else s
  | none => s

/-- R274: the annealer loads its block's spins from STATE with volatile reads. -/
def doAnnealEpochLoad (h : Nat) (s : State) : State :=
  match s.annRun h with
  | some x =>
    if x.stage = .load then
      let n := x.d.blockLen x.block
      let (s1, words) := forEach (List.range n) (s, []) fun acc k =>
        let (s1, w) := acc.1.annRead h (x.first + k) (x.d.state + 4 * (x.first + k)) 4
        (s1, acc.2 ++ [leNat w])
      s1.onAnn h fun y => { y with
        spins := words, inEpoch := 0, stage := if 1 < x.d.blocks then .clamp else .eval }
    else s
  | none => s

/-- R274: the clamp pass forms and stores the clamp fields of the block. -/
def doAnnealClampPass (h : Nat) (s : State) : State :=
  match s.annRun h with
  | some x =>
    if x.stage = .clamp then
      let s1 := forEach (List.range x.spins.length) s fun s k =>
        let (s1, row) := s.annRowOf h x (x.first + k)
        let (s2, terms) := forEach row.cross (s1, ([] : List (Int × Nat))) fun acc p =>
          let a := x.d.state + 4 * p.1
          let (s2, w) := acc.1.annRead h (x.first + k) (a - gaOffset a % 8) 8
          (s2, (p.2, field w (gaOffset a % 8) 4) :: acc.2)
        let data := (List.range 32).flatMap fun r =>
          toBytes 4 (ofInt 32 (if r < x.d.replicas then
            terms.foldl (fun a t => a + t.1 * spinVal x.d.binary t.2 r) 0 else 0))
        s2.annWrite h (x.d.clampAt + 128 * k) data (cleanMarks data)
      s1.onAnn h fun y => { y with stage := .eval }
    else s
  | none => s

/-- R269, R265: the evaluation pass checks the rows and sets each slot's running energy. -/
def doAnnealEvaluationPass (h : Nat) (s : State) : State :=
  match s.annRun h with
  | some x =>
    if x.stage = .eval then
      let zero := List.replicate x.d.replicas Val.zero
      let (s1, es, bad) := forEach (List.range x.spins.length) (s, zero, (none : Option Nat)) fun acc k =>
        match acc with
        | (s, es, some b) => (s, es, some b)
        | (s, es, none) =>
          let (s1, row) := s.annRowOf h x (x.first + k)
          if row.ok then
            let (s2, c) := s1.annClamps h x k
            (s2, es.mapIdx fun r e => x.addEnergy row c k r e, none)
          else (s1, es, some (x.first + k))
      match bad with
      | some i =>
        (s1.onAnn h fun y => { y with problem := some i, stage := .ended }).raiseLog F.ANN_ERROR_VALID F.ANN_ERROR_OVERRUN
          (source h 72) h 0 [(F.ANN_ERROR_CODE, 1), (F.ANN_ERROR_SPIN, i % 2 ^ 24)]
      | none => s1.onAnn h fun y => { y with energy := es.map fp64Of, stage := .sweep }
    else s
  | none => s

/-! ## Sweeps (R266 to R269) -/

/-- L32 of R268. -/
def log2e32 : Val := (readOperand .fp32 0x3FB8AA3B).1

/-- Whether a flip of cost `de` in slot `r` is accepted with draw `u` (R268). -/
def AnnRun.accepts (x : AnnRun) (r : Nat) (de : Val) (u : Nat) : Bool :=
  match de with
  | .inf neg => neg
  | _ => acceptDraw (rn32 ((rn32 ((readOperand .fp32 (x.d.beta r)).1.times de)).times log2e32)) u

/-- Updates the resident spin with local index `k` in every active slot (R266), and counts the flips. -/
def AnnRun.updateSpin (x : AnnRun) (row : AnnRow) (clamps : List Nat) (k : Nat) : AnnRun × Nat :=
  let i := x.first + k
  (List.range x.d.replicas).foldl (fun (acc : AnnRun × Nat) r =>
    let y := acc.1
    let de := y.flipCost row clamps k r
    if y.accepts r de (draw y.d.seed (y.done * 2 ^ 29 + r * 2 ^ 24 + i)) then
      ({ y with
          spins := y.spins.set k (putBits (y.spins.getD k 0) r r (1 - bit (y.spins.getD k 0) r)),
          energy := y.energy.set r (fp64Of ((fp64Val (y.energy.getD r 0)).plus de)) }, acc.2 + 1)
    else (y, acc.2)) (x, 0)

/-- The lowest slot of least energy (R279). -/
def AnnRun.least (x : AnnRun) : Option (Nat × Nat) :=
  (List.range x.d.replicas).foldl (fun (acc : Option (Nat × Nat)) r =>
    let e := x.energy.getD r 0
    match acc with
    | none => if (fp64Val e).isNan then none else some (e, r)
    | some (b, _) => if (fp64Val e).lt (fp64Val b) then some (e, r) else acc) none

/-- The bytes of BEST for a slot. -/
def AnnRun.bestBytes (x : AnnRun) (r : Nat) : List Nat :=
  (List.range ((x.d.n + 7) / 8)).map fun j =>
    (List.range 8).foldl (fun a i => a + bit (x.spins.getD (8 * j + i) 0) r * 2 ^ i) 0

/-- Best energy, best state and target after a sweep of a single-block run (R279). -/
def State.annBest (s : State) (h : Nat) (x : AnnRun) : State × AnnRun :=
  if 1 < x.d.blocks then (s, x)
  else
    match x.least with
    | none => (s, x)
    | some (e, r) =>
      let lower := match x.best with
        | some (b, _, _) => (fp64Val e).lt (fp64Val b)
        | none => true
      let s1 := if lower && x.d.bestEn then s.annWrite h x.d.best (x.bestBytes r) (cleanMarks (x.bestBytes r)) else s
      let x1 := if lower then { x with best := some (e, x.done, r) } else x
      (s1, { x1 with target := x.d.targetEn && !(fp64Val x.d.target).isNan &&
                       !(fp64Val x.d.target).lt (fp64Val e) })

/-- The 160 bytes of a trace entry (R278). -/
def AnnRun.entry (x : AnnRun) (tread : Nat) : List Nat :=
  toBytes 8 x.done ++ toBytes 8 tread ++ toBytes 4 (min 0xFFFFFFFF x.flipsEntry) ++ toBytes 4 x.exchEntry ++
    toBytes 4 x.block ++ zeros 4 ++
    (List.range 32).flatMap fun r =>
      toBytes 4 (if r < x.d.replicas then
        (writeFloat .fp32 .nearest false 0 (fp64Val (x.energy.getD r 0))).1 else 0)

/-- The trace entry due after a sweep (R278). -/
def State.annTrace (s : State) (h : Nat) (x : AnnRun) : State × AnnRun :=
  if x.d.traceEvery = 0 || x.done % x.d.traceEvery != 0 then (s, x)
  else if x.entries < x.d.traceMax then
    let b := x.entry (s.now (8 + h))
    (s.annWrite h (x.d.trace + 256 + 160 * x.entries) b (cleanMarks b),
     { x with entries := x.entries + 1, flipsEntry := 0, exchEntry := 0 })
  else (s, { x with overflow := true })

/-- What follows a sweep and its exchange round. -/
def AnnRun.afterSweep (x : AnnRun) : AnnStage :=
  if x.inEpoch < x.d.sweeps then .sweep else if 1 < x.d.blocks then .point else .ended

/-- A due shot of row 0x13 spoils the parity of one spin word (R468); which one the manual leaves open. -/
def State.annParity (s : State) (h : Nat) (x : AnnRun) : State :=
  match s.shoot 0x13 (channelId 8 h) with
  | some (s1, _, _, m) =>
    let spin := x.first + Config.freeValue s1.drawn % max 1 x.spins.length
    let s2 := { s1 with drawn := s1.drawn + 1 }
    let (s3, id) := s2.charge (channelId 8 h) .tue { RasRecord.blank with
      detector := 0x13, vi := x.vi, partition := (s.annealerPart h).getD 0xFF, queue := x.queue, opIndex := x.op,
      location := toBytes 4 spin } m
    s3.annPoison h spin 4 { st := s3, data := [], poison := true, cause := id, region := none }
  | none => s

/-- R266: one sweep of the resident block. -/
def doAnnealSweep (h : Nat) (s : State) : State :=
  match s.annRun h with
  | some x =>
    if x.stage = .sweep then
      let s0 := s.annParity h x
      let (s1, y, flips) := forEach (List.range x.spins.length) (s0, x, 0) fun acc k =>
        let (s, y, n) := acc
        let (s1, row) := s.annRowOf h y (y.first + k)
        let (s2, c) := s1.annClamps h y k
        let (y1, m) := y.updateSpin row c k
        (s2, y1, n + m)
      -- what the reads of the sweep noted of poison stands in the annealer's state
      let now := (s1.annRun h).getD x
      let y1 := { now with
        spins := y.spins, energy := y.energy, done := x.done + 1, inEpoch := x.inEpoch + 1,
        flips := (x.flips + flips) % 2 ^ 64, flipsEntry := x.flipsEntry + flips }
      let s2 := (s1.wrapFld F.ANN_UPDATES_COUNT (x.spins.length * x.d.replicas) h).wrapFld F.ANN_FLIPS_COUNT flips h
      let (s3, y2) := s2.annBest h y1
      let (s4, y3) := s3.annTrace h y2
      let stage := if y3.target || (y3.poison && y3.d.blocks ≤ 1) then AnnStage.ended
        else if y3.d.exchEvery != 0 && y3.done % y3.d.exchEvery = 0 then .exchange
        else y3.afterSweep
      s4.setAnn h (some { y3 with stage := stage })
    else s
  | none => s

/-! ## Exchange (R270) -/

/-- L64 of R270. -/
def log2e64 : Val := fp64Val 0x3FF71547652B82FE

/-- Swaps slots `r` and `r + 1` of a spin word. -/
def swapSlots (r w : Nat) : Nat := putBits (putBits w r r (bit w (r + 1))) (r + 1) (r + 1) (bit w r)

/-- Tries pair (r, r + 1) in round `k`. -/
def AnnRun.tryPair (x : AnnRun) (k r : Nat) : AnnRun × Bool :=
  let b := fun i => (readFloat .fp32 (x.d.beta i))
  let e := fun i => fp64Val (x.energy.getD i 0)
  let db := rn64 ((b r).plus (b (r + 1)).neg)
  let y := rn64 ((rn64 (db.times (rn64 ((e (r + 1)).plus (e r).neg)))).times log2e64)
  if acceptDraw y (draw ((x.d.seed + 1) % 2 ^ 64) ((k * 1024 + x.block) * 32 + r)) then
    ({ x with
        spins := x.spins.map (swapSlots r),
        energy := (x.energy.set r (x.energy.getD (r + 1) 0)).set (r + 1) (x.energy.getD r 0),
        exchEntry := setBit x.exchEntry r,
        exchAccept := x.exchAccept.set r ((x.exchAccept.getD r 0 + 1) % 2 ^ 32) }, true)
  else (x, false)

/-- R270: an exchange round. -/
def doAnnealExchangeRound (h : Nat) (s : State) : State :=
  match s.annRun h with
  | some x =>
    if x.stage = .exchange then
      let k := x.done / x.d.exchEvery - 1
      let pairs := (List.range (x.d.replicas - 1)).filter fun r => r % 2 == k % 2
      let (y, n) := pairs.foldl (fun (acc : AnnRun × Nat) r =>
        let (y, ok) := acc.1.tryPair k r
        (y, if ok then acc.2 + 1 else acc.2)) (x, 0)
      (s.setAnn h (some { y with rounds := (y.rounds + 1) % 2 ^ 32, stage := y.afterSweep })).wrapFld F.ANN_EXCH_COUNT n h
    else s
  | none => s

/-! ## Sweep points and endings (R275, R280) -/

/-- R275: at an epoch's end the block is written to STATE and sent, and the annealer arrives at the landing. -/
def doAnnealSweepPoint (h : Nat) (s : State) : State :=
  match s.annRun h with
  | some x =>
    if x.stage = .point then
      let s1 := s.annStore h x
      let (s2, peers) := s1.annPeers h x
      let (data, marks) := x.region
      let sends := x.sendsOf peers x.block data marks
      (s2.onAnn h fun y => { y with stage := .sending, initPoint := false, sends := sends }).annPump h (sends.length + 1)
    else s
  | none => s

/-- The counter value a sweep point waits for (R275, R276). -/
def AnnRun.awaited (x : AnnRun) : Nat :=
  if x.initPoint then x.d.counterInit else x.d.counterInit + (x.epoch + 1) * x.d.counterStep

/-- R275: after the release and the counter wait the annealer goes on. -/
def doAnnealSweepPointRelease (h : Nat) (s : State) : State :=
  match s.annRun h with
  | some x =>
    let off := gaOffset x.d.counter
    let met := x.d.counter == 0 || x.awaited ≤ (s.counter (tHall off) (tIndex off)).count.toNat
    if x.stage = .released && met then
      let y := { x with points := x.points + 1 }
      s.setAnn h (some (
        if x.sendError != 0 || (x.poison && !x.initPoint) then { y with stage := .ended }
        else if x.initPoint then { y with stage := .load, initPoint := false }
        else if x.epoch + 1 < x.d.epochs then { y with stage := .load, epoch := x.epoch + 1, spins := [] }
        else { y with stage := .ended }))
    else s
  | none => s

/-- The 256-byte summary (R278). -/
def AnnRun.summary (x : AnnRun) (endTread : Nat) : List Nat :=
  let stopped := x.target || x.done < x.d.epochs * x.d.sweeps
  let flags := (if x.overflow then 1 else 0) + (if x.best.isSome then 2 else 0) + (if x.target then 4 else 0) +
    (if x.poison then 8 else 0) + (if stopped then 16 else 0)
  let (be, bs, br) := x.best.getD (0, 0, 0)
  padBytes 256 (toBytes 2 1 ++ toBytes 2 flags ++ toBytes 4 x.entries ++ toBytes 8 x.done ++ toBytes 8 be ++
    toBytes 8 bs ++ [br, 0, 0, 0] ++ toBytes 4 x.points ++ toBytes 8 x.startTread ++ toBytes 8 endTread ++
    toBytes 8 x.flips ++ x.exchAccept.flatMap (toBytes 4) ++ toBytes 4 x.rounds)

/-- Writes STATE for the resident block, then the summary, and frees the annealer (R280). -/
def State.annFinish (s : State) (h : Nat) (x : AnnRun) : State :=
  let sum := x.summary (s.now (8 + h))
  ((s.annStore h x).annWrite h x.d.trace sum (cleanMarks sum)).setAnn h none

/-- The status and detail of an ending (R280, R312): the table's order decides among several causes. -/
def AnnRun.ending (x : AnnRun) : Nat × Nat :=
  match x.problem, x.sharedPoison with
  | some i, _ => (0x15, i)
  | none, some r => (0x18, r)
  | none, none => if x.poison then (0x16, 0) else if x.sendError != 0 then (0x03, 0) else (0, 0)

/-- R280: an annealer operation ends. -/
def doAnnealEnd (h : Nat) (s : State) : State :=
  match s.annRun h with
  | some x =>
    if x.stage = .ended then
      let (st, detail) := x.ending
      (s.annFinish h x).onOp x.queue x.op fun o => { (o.met x.poison x.cause x.sharedPoison) with
        engineDone := true, status := st, detail := detail, sweepPoints := x.points,
        copyFault := if x.sendError != 0 then some (x.sendError, 0) else none }
    else s
  | none => s

end Sys2Proof.Machine
end

