-- ==== Sys2Proof/Machine/Work.lean ====
section
/-! DEFINITION. Work queues of the vestibule (R283 to R284, R288 to R312): statuses, completion records, the
rings they go to, stopping a queue, and how an operation ends. -/

namespace Sys2Proof.Machine

/-! ## Statuses (R312) -/

def stSuccess : Nat := 0x00
def stPartial : Nat := 0x01
def stKernelFault : Nat := 0x02
def stCopyFault : Nat := 0x03
def stTimeout : Nat := 0x04
def stAbandoned : Nat := 0x05
def stTooFar : Nat := 0x06
def stUntested : Nat := 0x07
def stBufferInvalid : Nat := 0x08
def stOpInvalid : Nat := 0x09
def stResource : Nat := 0x0A
def stTileDescriptor : Nat := 0x10
def stCopyDescriptor : Nat := 0x11
def stGatherDescriptor : Nat := 0x12
def stGatherRange : Nat := 0x13
def stAnnealDescriptor : Nat := 0x14
def stPoisonShared : Nat := 0x18
def stPoolEmpty : Nat := 0x20
def stDoubleFree : Nat := 0x21
def stNotOwner : Nat := 0x22
def stPoolAddress : Nat := 0x23

/-- Whether a status stops its queue. -/
def stopsQueue (st : Nat) : Bool :=
  !(st == stSuccess || st == stAbandoned || st == stGatherRange || st == stDoubleFree || st == stNotOwner)

/-- The types of R297. -/
def typNop : Nat := 0
def typKernel : Nat := 1
def typCopy : Nat := 2
def typGather : Nat := 3
def typAnneal : Nat := 4
def typAlloc : Nat := 5
def typFree : Nat := 6

/-- A field of an operation's body, by its offset in the operation (R297). -/
def Operation.word (o : Operation) (off len : Nat) : Nat := field o.body (off - 0x20) len

/-- Ranges of a kind (R300) as device offsets. -/
def Operation.rangesOf (o : Operation) (kind : Nat) : List DRange :=
  (o.ranges.filter (·.kind == kind)).map fun r => { base := gaOffset r.base, bytes := r.bytes }

/-- The partition a queue works for. -/
def State.queuePart (s : State) (w : WorkQ) : Option Nat := s.viPart w.vi

/-! ## Host memory (R408, R410) -/

/-- The PASID that a function's accesses carry. -/
def State.pasidOf (s : State) (v : Nat) : Option Nat :=
  if s.fld F.PCI_PASID_EN 0 v = 1 && (s.host.func 0).pasidEnable then some (s.fld F.PCI_PASID_PASID 0 v) else none

/-- With ATS an access keeps the translation of its page, the oldest making room (R409; log 53). -/
def State.translate (s : State) (v addr : Nat) : State :=
  if (s.host.func v).atsEnable then
    let t : Translation := { func := v, pasid := s.pasidOf v, page := addr / 4096 }
    s.onHost fun h => { h with
      translations := if h.translations.contains t then h.translations
        else h.translations.drop (h.translations.length - 2047) ++ [t] }
  else s

/-- A host-memory write that goes through (R408). -/
def State.hostWrite (s : State) (v addr : Nat) (bytes : List Nat) : State :=
  s.emit (.hostWrite v addr (s.pasidOf v) bytes)

/-- Draws a value that the manual leaves open. -/
def State.draw (s : State) : State × Nat := ({ s with drawn := s.drawn + 1 }, Config.freeValue s.drawn)

/-- Logs a failed access (R410). -/
def State.hostErr (s : State) (kind access ring v : Nat) : State :=
  (s.logFirst F.PCI_HOST_ERR_VALID F.PCI_HOST_ERR_OVERRUN 0 0
    [(F.PCI_HOST_ERR_KIND, kind), (F.PCI_HOST_ERR_ACCESS, access), (F.PCI_HOST_ERR_RING, ring),
     (F.PCI_HOST_ERR_VI, v)]).raise F.PCI_EVENT_HOST_ERR 107

/-- The KIND of an access that fails because the link is down: the manual names none. -/
def State.linkDownKind (s : State) : State × Nat :=
  let (s1, n) := s.draw
  (s1, n % 5)

/-- An access of host memory by `v` at an address: the state after, and its KIND and mark when it fails, since the link
is down (R397) or by a shot of row 0x17 (R468). -/
def State.hostAccess (s : State) (v addr : Nat) : State × Option (Nat × Mark) :=
  if !s.host.linkUp then
    let (s1, k) := s.linkDownKind
    (s1, some (k, .natural))
  else
    match s.shoot 0x17 v with
    | some (s1, _, _, m) => (s1, some (0, m))
    | none => (s.translate v addr, none)

/-! ## Records (R309 to R311) -/

/-- Ranges listed in a record. -/
def Operation.lostListed (o : Operation) : List (Nat × Nat × Nat) := o.lost.take 32

/-- FLAGS of an operation's record; `override` is the override flag (R485). -/
def Operation.allFlags (o : Operation) (override : Bool) : Nat :=
  o.flags ||| (if o.wasHeld then opQuarantineHeld else 0) ||| (if 32 < o.lost.length then opLostOverflow else 0) |||
    (if o.status != stSuccess && override then opUnvalidated else 0)

/-- The slots of an operation's record, with PHASE 0. -/
def Operation.record (o : Operation) (tag : Nat) (override : Bool) : List (List Nat) :=
  let lost := o.lostListed
  let ext := (lost.length + 4) / 5
  let count := if o.typ = typAnneal then (if o.status = stPartial then o.sweepPoints else 0) else lost.length
  let main := [8 * ext, o.status] ++ toBytes 2 o.idx ++ toBytes 4 o.detail ++ toBytes 8 tag ++
    toBytes 4 (o.allFlags override) ++ toBytes 4 o.deficit ++ toBytes 8 o.launch ++ toBytes 8 o.stop ++ [o.fstat % 256, 0] ++
    toBytes 2 (min 0xFFFF o.chk) ++ toBytes 4 o.ras ++ toBytes 4 o.fault ++ toBytes 4 count ++ toBytes 4 o.pauses ++ zeros 4
  main :: (List.range ext).map fun i =>
    padBytes 64 ([4, 0, 0, 0] ++ (slice lost (5 * i) 5).flatMap fun r => toBytes 4 r.1 ++ toBytes 4 r.2.1 ++ toBytes 4 r.2.2)

/-- Whether an operation writes its record (R309). -/
def Operation.reports (o : Operation) (all override : Bool) : Bool :=
  o.status != stSuccess || o.allFlags override != 0 || o.report || all

/-- A buffer's record with PHASE 0 (R311). -/
def bufferRecord (status detail tag stop abandoned completed : Nat) (override : Bool) : List Nat :=
  [2, status] ++ toBytes 2 0xFFFF ++ toBytes 4 detail ++ toBytes 8 tag ++
    toBytes 4 (if status != stSuccess && override then opUnvalidated else 0) ++ zeros 12 ++ toBytes 8 stop ++ zeros 12 ++
    toBytes 4 abandoned ++ toBytes 4 completed ++ zeros 4

/-- Puts slots at the end of those that wait for room (R310). -/
def State.queueSlots (s : State) (q : Nat) (slots : List (List Nat)) (message : Bool) : State :=
  s.onQueue q fun w =>
    if w.mute then w
    else
      let n := slots.length
      { w with waiting := w.waiting ++ slots.mapIdx fun i b => (b, message && i + 1 == n) }

/-- Whether a queue's completion ring has no free slot, by the head record last read (R310). -/
def WorkQ.ringFull (w : WorkQ) : Bool := decide (2 ^ w.cqLog2 ≤ (w.cqWritten + 2 ^ 32 - w.cqHead) % 2 ^ 32)

/-- A slot with its PHASE, 1 on the first pass through the ring. -/
def phaseSlot (written size : Nat) : List Nat → List Nat
  | c :: r => (c + (1 - written / size % 2)) :: r
  | [] => []

/-! ## Ends of operations -/

/-- Notes that a queue's operations end their waits (R257). -/
def State.cancelOp (s : State) (q i : Nat) : State := s.cancelParties (· == .operation q i)

/-- Frees the save slots of an operation (R304, R306). -/
def State.freeSlots (s : State) (q i : Nat) : State :=
  s.onQueue q fun w => { w with slots := w.slots.filter fun x => x.1 != i }

/-- The alcoves of an operation are free again. -/
def State.freeAlcoves (s : State) (q i : Nat) : State :=
  match s.op? q i with
  | some o =>
    o.ranks.foldl (fun s r =>
      match (s.alcove r.alcove).grant with
      | some g =>
        if g.queue = q && g.op = i then
          s.onAlcove r.alcove fun x => { x with grant := none, pausePending := false, saving := false }
        else s
      | none => s) s
  | none => s

/-- Whether a pause of an operation has got so far that a rank stands at its save point. -/
def State.pauseBegun (s : State) (o : Operation) : Bool :=
  o.ranks.any fun r => r.saved.isSome || (s.alcove r.alcove).saving

/-- Withdraws the pause requests that an operation has made (R303). A pause with a rank at its save point goes
on (log 42). -/
def State.withdrawClaims (s : State) (q i : Nat) : State :=
  let mine := s.vst.claims.filter fun c => c.queue == q && c.op == i
  let s1 := s.onVst fun v => { v with claims := v.claims.filter fun c => !(c.queue == q && c.op == i) }
  (mine.flatMap (·.victims)).foldl (fun s v =>
    match s.op? v.1 v.2 with
    | some o =>
      if o.state = .running && !s.pauseBegun o then
        let s2 := (s.onOp v.1 v.2 fun o => { o with pauseWanted := false }).freeSlots v.1 v.2
        o.ranks.foldl (fun s r => s.onAlcove r.alcove fun x => { x with pausePending := false }) s2
      else s
    | none => s) s1

/-- An operation is no victim of a claim any more. -/
def State.dropVictim (s : State) (q i : Nat) : State :=
  s.onVst fun v => { v with claims := v.claims.map fun c => { c with victims := c.victims.filter (· != (q, i)) } }

/-- Takes an operation's copy out of its engine. What it has sent stays on its way. -/
def State.dropCopy (s : State) (q i : Nat) : State :=
  let mine := fun (j : CopyJob) => j.origin == .operation q i
  s.mem.engines.foldl (fun s p =>
    let x := s.engine p.1
    let gone := match x.running with
      | some j => mine j
      | none => false
    let s1 := if gone then
        match x.running with
        | some j => s.onMem fun m => { m with unanswered := m.unanswered.filter fun u => u.copy != some j.id }
        | none => s
      else s
    let s2 := match gone, x.burst with
      | true, some (a, b) => s1.onMem fun m => { m with galleryPort := tdel (tdel m.galleryPort a) b }
      | _, _ => s1
    s2.setEngine p.1 { x with
      queue := x.queue.filter fun j => !mine j,
      running := if gone then none else x.running,
      burst := if gone then none else x.burst, refused := if gone then none else x.refused }) s

/-- Takes an operation out of its hall's narrow path and annealer. -/
def State.dropUnits (s : State) (q i : Nat) : State :=
  let s1 := s.onHbm fun h => { h with
    gathers := h.gathers.filter fun p => match p.2 with
      | some g => !(g.queue == q && g.op == i)
      | none => true }
  { s1 with ann := s1.ann.filter fun p => match p.2 with
      | some a => !(a.queue == q && a.op == i)
      | none => true }

/-- Everything an operation holds is free. -/
def State.releaseOp (s : State) (q i : Nat) : State :=
  ((((((s.cancelOp q i).dropCopy q i).dropUnits q i).freeAlcoves q i).freeSlots q i).withdrawClaims q i).dropVictim q i

/-- Writes an operation's record if it is due (R309). -/
def State.recordOp (s : State) (q i : Nat) : State :=
  match s.queue q, s.op? q i with
  | some w, some o =>
    match w.buffer with
    | some b =>
      if o.reports b.reportAll s.boot.override then s.queueSlots q (o.record b.tag s.boot.override) false else s
    | none => s
  | _, _ => s

/-- Tread of the home slice of a queue. -/
def State.homeNow (s : State) (q : Nat) : Nat :=
  match s.queue q with
  | some w => s.now (8 + w.hall)
  | none => 0

/-- Operation `i` ends as `ABANDONED` (R284, R289). -/
def State.abandonOp (s : State) (q i cause : Nat) : State :=
  (((s.releaseOp q i).onOp q i fun o =>
    { o with state := .complete, status := stAbandoned, detail := cause, stop := s.homeNow q })).recordOp q i

/-- Whether a stop abandons an operation: it is not launched, or is paused (R284, R306). -/
def Operation.abandonable (o : Operation) : Bool :=
  o.state != .complete && (!o.launched || o.state == .paused)

/-- Stops a queue (R284): what is not launched is abandoned. -/
def State.stopQueue (s : State) (q : Nat) (st : QueueState) (cause : Nat) : State :=
  match s.queue q with
  | some w =>
    let s1 := s.setQueue q { w with state := st }
    match w.buffer with
    | some b => (b.ops.filter (·.abandonable)).foldl (fun s o => s.abandonOp q o.idx cause) s1
    | none => s1
  | none => s

/-- Closes the buffer of a queue once all its operations have ended (R309, R311). -/
def State.endBuffer (s : State) (q : Nat) : State :=
  match s.queue q with
  | some w =>
    match w.buffer with
    | some b =>
      if b.ops.all (·.state == .complete) then
        let lost := (b.ops.filter (·.status == stAbandoned)).length
        let r := bufferRecord b.stopStatus b.stopDetail b.tag (s.now (8 + w.hall)) lost (b.ops.length - lost) s.boot.override
        (s.setQueue q { w with buffer := none }).queueSlots q [r] true
      else s
    | none => s
  | none => s

/-- A host access of a queue's ring failed (R410): the queue stops, and later records are not written. -/
def State.failQueue (s : State) (q kind : Nat) (mark : Mark := .natural) : State :=
  match s.queue q with
  | some w =>
    let s1 := s.hostErr kind 2 w.ring w.vi
    let (s2, _) := s1.record { RasRecord.blank with
      flags := if mark.injected then flagInjected else 0,
      kind := kindRetryExhausted, detector := 0x17, partition := (s.queuePart w).getD 0xFF, vi := w.vi, queue := q }
    let s3 := s2.onQueue q fun w => { w with mute := true, waiting := [] }
    (s3.stopQueue q .stoppedFault 0).endBuffer q
  | none => s

/-- Writes a slot of a completion ring (R310, R193). -/
def State.writeSlot (s : State) (q : Nat) (w : WorkQ) (b : List Nat) : State :=
  let size := 2 ^ w.cqLog2
  let at_ := w.cqBase + 64 * (w.cqWritten % size)
  let bytes := phaseSlot w.cqWritten size b
  let s1 := s.setQueue q { w with cqWritten := (w.cqWritten + 1) % 2 ^ 32 }
  if w.cqHost then s1.hostWrite w.vi at_ bytes else s1.writeDAll (gaOffset at_) bytes

/-- Writes records that wait, as far as there is room; a message follows a buffer record (R310, R357). -/
def State.flushSlots (s : State) (q : Nat) : (l : List (List Nat × Bool)) → State
  | [] => s
  | (b, m) :: r =>
    match s.queue q with
    | some w =>
      if w.ringFull then s
      else
        match if w.cqHost then s.hostAccess w.vi (w.cqBase + 64 * (w.cqWritten % 2 ^ w.cqLog2)) else (s, none) with
        | (s1, some (k, mark)) => s1.failQueue q k mark
        | (s1, none) =>
          let s2 := s1.writeSlot q { w with waiting := r } b
          let s3 := if m && w.msix != 0xFFFF then s2.completionMessage w.vi w.msix else s2
          s3.flushSlots q r
    | none => s

/-- Writes what waits for a queue's completion ring. -/
def State.flush (s : State) (q : Nat) : State :=
  match s.queue q with
  | some w => s.flushSlots q w.waiting
  | none => s

/-! ## Dependencies inside a buffer (R301) -/

/-- Whether an invalidation is still in progress (R197). -/
def State.invalPending (s : State) (n : Nat) : Bool := s.mem.invals.any (·.num == n)

/-- Whether an operation is COMPLETE with its written ranges invalidated (R195, R301). -/
def State.opDone (s : State) (q i : Nat) : Bool :=
  match s.op? q i with
  | some o => o.state == .complete && o.invals.all fun n => !s.invalPending n
  | none => false

/-- The waits an operation sends as it enters WAIT_SYNC (R257, R299). -/
def Operation.waitOps (o : Operation) (q : Nat) : List SyncOp :=
  o.syncs.filterMap fun e =>
    let off := gaOffset e.handle
    match e.kind with
    | 0 => some (.wait (tHall off) (tIndex off) (256 + q) e.value (.operation q o.idx))
    | 2 => some (.landWait (tHall off) (tIndex off / 2) (256 + q) (tIndex off % 2) (.operation q o.idx))
    | _ => none

/-- Operation `i` enters WAIT_SYNC. -/
def State.enterSync (s : State) (q i : Nat) : State :=
  match s.op? q i with
  | some o =>
    (s.onOp q i fun o => { o with
      state := .waitSync,
      waits := o.syncs.map fun e => if e.kind = 0 || e.kind = 2 then .asked else .idle }).onSync fun y =>
      { y with net := y.net ++ o.waitOps q }
  | none => s

/-- Moves every operation of a queue whose predecessors are done on to WAIT_SYNC. -/
def State.advance (s : State) (q : Nat) : State :=
  match s.queue q with
  | some w =>
    match w.buffer with
    | some b =>
      (b.ops.filter (·.state == .waitPred)).foldl (fun s o =>
        if o.preds.all fun p => s.opDone q p then s.enterSync q o.idx else s) s
    | none => s
  | none => s

/-- Every queue's operations that an ended invalidation lets go on. -/
def State.advanceAll (s : State) : State := s.vst.queues.foldl (fun s p => s.advance p.1) s

/-! ## Completion (R309) -/

/-- Makes the signals and arrivals of an operation (R257, R299). -/
def State.actions (s : State) (q i : Nat) : State :=
  match s.op? q i with
  | some o =>
    o.syncs.foldl (fun s e =>
      let off := gaOffset e.handle
      match e.kind with
      | 1 =>
        let (s1, past) := s.signalTokens (tHall off) (tIndex off) (256 + q) e.value
        if past then s1.onOp q i fun o => o.flag opTokenOverflow else s1
      | 3 =>
        let (s1, twice) := s.arrive (tHall off) (tIndex off / 2) (256 + q) (tIndex off % 2)
        if twice then s1.onOp q i fun o => o.flag opDoubleArrival else s1
      | 6 => s.onQueue q fun w => { w with fence := max w.fence e.value }
      | _ => s) s
  | none => s

/-- Ends operation `i` with a status (R309, R312): invalidates what it wrote, makes its signals unless it stops
the queue, and writes its record. -/
def State.completeOp (s : State) (q i status detail : Nat) : State :=
  match s.queue q, s.op? q i with
  | some w, some o =>
    let (s1, n) := match s.queuePart w with
      | some p => s.startInval p (o.rangesOf 0)
      | none => (s, none)
    let s2 := if stopsQueue status then s1 else s1.actions q i
    let s3 := (s2.releaseOp q i).onOp q i fun o => { o with
      state := .complete, status := status, detail := detail, stop := s.now (8 + w.hall), invals := n.toList,
      ras := if o.ras = 0 then o.cause else o.ras }
    let s4 := s3.recordOp q i
    let s5 := if stopsQueue status then
        (s4.onQueue q fun w => { w with
          buffer := w.buffer.map fun b =>
            if b.stopStatus = 0 then { b with stopStatus := status, stopDetail := detail } else b }).stopQueue q
          .stoppedFault 0
      else s4
    ((s5.advance q).endBuffer q).flush q
  | _, _ => s

end Sys2Proof.Machine
end

