-- ==== Sys2Proof/Machine/Buffer.lean ====
section
/-! DEFINITION. Command buffers (R293 to R301): ring entries, the checks of R298, the operations they give, and how
an operation becomes READY. -/

namespace Sys2Proof.Machine

/-! ## Checks (R298) -/

/-- Whether bytes from `off` for `len` bytes are zero. -/
def zeroAt (l : List Nat) (off len : Nat) : Bool := (slice l off len).all (· == 0)

/-- The failing offset of a ring entry of a queue of virtual interface `v` (R293). -/
def State.ringEntryFails (s : State) (v : Nat) (e : List Nat) : Option Nat :=
  let ga := field e 0 8
  let n := field e 8 4
  firstFail [
    (gaSpace ga == spaceD && gaDevice ga == s.deviceId && ga % 64 == 0, 0x00),
    (64 ≤ n && n ≤ 67108864, 0x08),
    (zeroAt e 12 4, 0x0C),
    (s.namesMemory ga n && s.viMay v ga n false, 0x00)]

/-- The failing offset of a buffer header (R295). -/
def headerFails (d : List Nat) (bytes : Nat) : Option Nat :=
  let n := field d 4 2
  firstFail [
    (field d 0 2 == 1, 0x00), (field d 2 2 < 2, 0x02), (1 ≤ n && 0x40 + 128 * n ≤ bytes, 0x04),
    (field d 6 2 == 0, 0x06), (field d 0x10 4 == bytes, 0x10), (zeroAt d 0x14 44, 0x14)]

/-- The failing offset of a body (R297); `o` is the operation's 128 bytes, `bytes` the length of the buffer. -/
def State.bodyFails (s : State) (o : List Nat) (bytes : Nat) : Option Nat :=
  let own := fun ga => gaDevice ga == s.deviceId
  match byteAt o 0 with
  | 0 => firstFail [(zeroAt o 0x20 96, 0x20)]
  | 1 =>
    let img := field o 0x20 8
    let len := field o 0x30 4
    let res := field o 0x40 4
    let resLen := field o 0x44 4
    firstFail [
      (len == 0 || (own img && (gaSpace img == spaceD || gaSpace img == spaceG)), 0x20),
      (len % 128 == 0 && len ≤ 524288, 0x30),
      (field o 0x34 2 * 128 + len ≤ 524288, 0x34),
      (field o 0x36 2 < 4096, 0x36),
      (1 ≤ field o 0x38 2 && field o 0x38 2 ≤ 256, 0x38),
      (byteAt o 0x3B < 2, 0x3B),
      (field o 0x3C 4 % 8 == 0 && field o 0x3C 4 + 120 ≤ bytes, 0x3C),
      (res % 4096 == 0, 0x40),
      (resLen % 4096 == 0 && res + resLen ≤ 0x180000, 0x44),
      (zeroAt o 0x48 8, 0x48),
      (byteAt o 0x3B == 1 || zeroAt o 0x50 32, 0x50),
      (zeroAt o 0x70 16, 0x70)]
  | 2 => firstFail [(byteAt o 0x40 < 64, 0x40), (zeroAt o 0x41 63, 0x41)]
  | 3 => firstFail [(byteAt o 0x40 < 8, 0x40), (zeroAt o 0x41 63, 0x41)]
  | 4 =>
    firstFail [
      (field o 0x20 4 % 64 == 0 && field o 0x20 4 + 320 ≤ bytes, 0x20), (byteAt o 0x24 < 8, 0x24),
      (zeroAt o 0x25 91, 0x25)]
  | _ =>
    firstFail [
      (byteAt o 0x20 < 64, 0x20), (zeroAt o 0x21 3, 0x21),
      (1 ≤ field o 0x24 4 && field o 0x24 4 ≤ 65536, 0x24), (own (field o 0x28 8), 0x28),
      (zeroAt o 0x30 80, 0x30)]

/-- A list of `n` entries of `size` bytes lies in the buffer; the offset of an empty one is not looked at. -/
def listOk (off n size align bytes : Nat) : Bool := n == 0 || (off % align == 0 && off + n * size ≤ bytes)

/-- The failing offset of an operation's common header (R296). -/
def opHeaderFails (o : List Nat) (bytes : Nat) : Option Nat :=
  let typ := byteAt o 0
  let flags := byteAt o 1
  firstFail [
    (typ < 7, 0x00),
    (flags < 8 && (flags < 4 || typ == typKernel) && (flags % 2 == 0 || typ < typAlloc), 0x01),
    (byteAt o 2 ≤ 64, 0x02), (byteAt o 3 ≤ 32, 0x03), (field o 4 2 ≤ 1024, 0x04), (field o 6 2 == 0, 0x06),
    (listOk (field o 8 4) (byteAt o 2) 2 2 bytes, 0x08),
    (listOk (field o 0x0C 4) (byteAt o 3) 32 8 bytes, 0x0C),
    (listOk (field o 0x10 4) (field o 4 2) 16 8 bytes, 0x10),
    (field o 0x14 4 == 0, 0x14),
    (flags % 2 == 1 || field o 0x18 8 == 0, 0x18)]

/-- Whether virtual interface `v` has a queue with a ring index. -/
def State.ringQueue (s : State) (v ring : Nat) : Option Nat :=
  (s.vst.queues.find? fun p => match p.2 with
    | some w => w.vi == v && w.ring == ring
    | none => false).map (·.1)

/-- The failing offset of a sync list entry (R299). -/
def State.syncFails (s : State) (v : Nat) (e : List Nat) : Option Nat :=
  let kind := byteAt e 0
  let h := field e 8 8
  let handleOk := match kind with
    | 0 => s.handleOk v h 0
    | 1 => s.handleOk v h 0
    | 2 => s.handleOk v h 1
    | 3 => s.handleOk v h 1
    | 4 => s.handleOk v h 2
    | 5 => h < 16 && (s.ringQueue v h).isSome
    | _ => h == 0
  firstFail [
    (kind < 7, 0x00), (zeroAt e 1 7, 0x01), (handleOk, 0x08),
    ((kind != 2 && kind != 3) || field e 0x10 8 == 0, 0x10), (zeroAt e 0x18 8, 0x18)]

/-- The failing offset of a range list entry (R300). -/
def State.rangeFails (s : State) (e : List Nat) : Option Nat :=
  let ga := field e 0 8
  firstFail [
    (gaSpace ga == spaceD && gaDevice ga == s.deviceId, 0x00), (1 ≤ field e 8 6, 0x08), (byteAt e 0x0E < 3, 0x0E),
    (byteAt e 0x0F == 0, 0x0F)]

/-- The first failure among some checks. -/
def firstSome {α : Type} : List α → (α → Option Nat) → Option Nat
  | [], _ => none
  | x :: r, f => (f x).or (firstSome r f)

/-- `n` pieces of `size` bytes from `off`. -/
def pieces (d : List Nat) (off n size : Nat) : List (List Nat) := (List.range n).map fun i => slice d (off + size * i) size

/-- The 128 bytes of operation `i`. -/
def opBytes (d : List Nat) (i : Nat) : List Nat := slice d (0x40 + 128 * i) 128

/-- Predecessors of an operation. -/
def predList (d o : List Nat) : List Nat := (pieces d (field o 8 4) (byteAt o 2) 2).map leNat

/-- The failing offset of operation `i` of a buffer of virtual interface `v` (R298). -/
def State.opFails (s : State) (v : Nat) (d : List Nat) (i : Nat) : Option Nat :=
  let o := opBytes d i
  (opHeaderFails o d.length).or ((s.bodyFails o d.length).or
    ((firstSome (predList d o) fun p => if p < i then none else some 0).or
      ((firstSome (pieces d (field o 0x0C 4) (byteAt o 3) 32) (s.syncFails v)).or
        (firstSome (pieces d (field o 0x10 4) (field o 4 2) 16) s.rangeFails))))

/-- The DETAIL of the first failing operation: its index and the offset. -/
def State.opsFail (s : State) (v : Nat) (d : List Nat) (n : Nat) : Option Nat :=
  firstSome (List.range n) fun i => (s.opFails v d i).map fun off => i * 2 ^ 16 + off

/-! ## Operations -/

/-- Operation `i` of a checked buffer. -/
def parseOp (d : List Nat) (i : Nat) : Operation :=
  let o := opBytes d i
  let syncs := (pieces d (field o 0x0C 4) (byteAt o 3) 32).map fun e =>
    { kind := byteAt e 0, handle := field e 8 8, value := field e 0x10 8 : SyncEntry }
  let extra :=
    if byteAt o 0 = typKernel then slice d (field o 0x3C 4) 120
    else if byteAt o 0 = typAnneal then slice d (field o 0x20 4) 320
    else []
  { idx := i, typ := byteAt o 0, timed := bit (byteAt o 1) 0 == 1, report := bit (byteAt o 1) 1 == 1,
    pausable := bit (byteAt o 1) 2 == 1, preds := predList d o, syncs := syncs,
    ranges := (pieces d (field o 0x10 4) (field o 4 2) 16).map fun e =>
      { base := field e 0 8, bytes := field e 8 6, kind := byteAt e 0x0E },
    launchTread := field o 0x18 8, body := slice o 0x20 96, extra := extra, state := .waitPred, waits := [],
    invals := [], received := false, held := false, wasHeld := false, ranks := [], armed := false, launched := false,
    engineDone := false, pauseWanted := false, status := 0, detail := 0, flags := 0, deficit := 0, launch := 0,
    stop := 0, fstat := 0, chk := 0, ras := 0, fault := 0, lost := [], retiredCount := 0, pauses := 0, cause := 0,
    sharedPoison := none, sweepPoints := 0, copyFault := none, waitClock := 0, runClock := 0 }

/-- A buffer that runs nothing: it ends at once with a stopping status (R298, R312). -/
def State.failBuffer (s : State) (q tag status detail : Nat) : State :=
  let b : Buffer :=
    { base := 0, bytes := 0, tag := tag, reportAll := false, ops := [], stopStatus := status, stopDetail := detail }
  (((s.onQueue q fun w => { w with buffer := some b }).stopQueue q .stoppedFault 0).endBuffer q).flush q

/-- A tail record overran its ring (R293). A buffer in progress carries the status in its record (log 43). -/
def State.overrun (s : State) (q : Nat) : State :=
  match (s.queue q).bind (·.buffer) with
  | none => s.failBuffer q 0 stBufferInvalid 0xFFFFFFFF
  | some _ =>
    let s1 := s.onQueue q fun w => { w with
      buffer := w.buffer.map fun b =>
        if b.stopStatus = 0 then { b with stopStatus := stBufferInvalid, stopDetail := 0xFFFFFFFF } else b }
    ((s1.stopQueue q .stoppedFault 0).endBuffer q).flush q

/-- R293: the tail record of a work ring is read. -/
def doWorkTailRead (q : Nat) (s : State) : State :=
  match s.queue q with
  | some w =>
    if w.state = .active && w.notified && !s.dBlocked (gaOffset w.tailRecord) 8 true then
      let r := s.readD (gaOffset w.tailRecord) 8
      let tail := field r.data 0 4
      let s1 := r.st.onQueue q fun w => { w with tail := tail, notified := false }
      if 2 ^ w.log2 < (tail + 2 ^ 32 - w.consumed) % 2 ^ 32 then
        (s1.raise F.VST_EVENT_RING_BAD 98).overrun q
      else s1
    else s
  | none => s

/-- R298: the next buffer of a queue is read and checked, after the previous one's record. -/
def doCommandBufferBegin (q : Nat) (s : State) : State :=
  match s.queue q with
  | some w =>
    let at_ := gaOffset w.ringBase + 16 * (w.consumed % 2 ^ w.log2)
    if w.state = .active && w.buffer.isNone && w.waiting.isEmpty && w.consumed != w.tail &&
        !s.dBlocked at_ 16 true then
      let e := s.readD at_ 16
      let taken := fun (s : State) => s.onQueue q fun w => { w with consumed := (w.consumed + 1) % 2 ^ 32 }
      if s.boot.restricted then (taken e.st).failBuffer q 0 stUntested 0
      else
        match e.st.ringEntryFails w.vi e.data with
        | some off => (taken e.st).failBuffer q 0 stBufferInvalid off
        | none =>
          let ga := field e.data 0 8
          let n := field e.data 8 4
          if s.dBlocked (gaOffset ga) n true then s
          else
            let b := e.st.readD (gaOffset ga) n
            let s1 := taken b.st
            let d := b.data
            match headerFails d n with
            | some off => s1.failBuffer q (field d 8 8) stBufferInvalid off
            | none =>
              let count := field d 4 2
              match s1.opsFail w.vi d count with
              | some detail => s1.failBuffer q (field d 8 8) stOpInvalid detail
              | none =>
                let x : Buffer :=
                  { base := ga, bytes := n, tag := field d 8 8, reportAll := bit (field d 2 2) 0 == 1,
                    ops := (List.range count).map (parseOp d), stopStatus := 0, stopDetail := 0 }
                (s1.onQueue q fun w => { w with buffer := some x }).advance q
    else s
  | none => s

/-! ## READY (R300, R301) -/

/-- Whether an input range of an operation overlaps a quarantined region (R335). -/
def State.quarantineHolds (s : State) (o : Operation) : Bool :=
  (o.rangesOf 1).any fun r =>
    s.part.regions.any fun g => g.quarantined && r.base < g.base + g.size && g.base < r.base + r.bytes

/-- Whether one wait of an operation is satisfied (R299). -/
def State.waitMet (s : State) (v : Nat) (e : SyncEntry) (st : WaitState) : Bool :=
  let off := gaOffset e.handle
  match e.kind with
  | 0 => st == .met
  | 2 => st == .met
  | 4 => e.value ≤ (s.counter (tHall off) (tIndex off)).count.toNat
  | 5 =>
    match s.ringQueue v e.handle with
    | some k =>
      match s.queue k with
      | some w => e.value ≤ w.fence
      | none => false
    | none => false
  | _ => true

/-- Whether every wait of an operation is satisfied. -/
def State.waitsMet (s : State) (v : Nat) (o : Operation) : Bool :=
  (List.zipWith (s.waitMet v) o.syncs o.waits).all id

/-- R301: an operation leaves WAIT_SYNC; its receive ranges are invalidated first, and a quarantine holds it. -/
def doOperationReady (q i : Nat) (s : State) : State :=
  match s.queue q, s.op? q i with
  | some w, some o =>
    if o.state = .waitSync && s.waitsMet w.vi o then
      if s.quarantineHolds o then s.onOp q i fun o => { o with held := true, wasHeld := true }
      else if !o.received then
        let (s1, n) := match s.queuePart w with
          | some p => s.startInval p (o.rangesOf 2)
          | none => (s, none)
        s1.onOp q i fun o => { o with
          held := false, received := true, invals := n.toList, state := if n.isNone then .ready else .waitSync }
      else if o.invals.all fun n => !s.invalPending n then
        s.onOp q i fun o => { o with held := false, invals := [], state := .ready }
      else s
    else s
  | _, _ => s

/-! ## Dispatch order (R302) -/

/-- What an operation needs (R301). -/
inductive Need
  | alcoves (p : Nat)
  | engine (e : Nat)
  | narrow (h : Nat)
  | annealer (h : Nat)
  | nothing
  deriving DecidableEq, Repr

/-- What an operation of a partition needs. -/
def Operation.need (o : Operation) (p : Nat) : Need :=
  match o.typ with
  | 1 => .alcoves p
  | 2 => .engine (o.word 0x40 1)
  | 3 => .narrow (o.word 0x40 1)
  | 4 => .annealer (o.word 0x24 1)
  | _ => .nothing

/-- Whether an operation waits for a grant: READY, or PAUSED and ready to resume (R306). -/
def Operation.wantsGrant (o : Operation) : Bool := o.state == .ready || o.state == .paused

/-- The key of an operation in the order of R302, lower first. -/
def grantKey (w : WorkQ) (q i : Nat) : Nat := ((7 - w.prio) * 4096 + q) * 65536 + i

/-- Whether an operation that needs the same resources comes before operation `i` of queue `q`. -/
def State.outranked (s : State) (q i : Nat) (need : Need) : Bool :=
  match s.queue q with
  | some w =>
    s.vst.queues.any fun p =>
      match p.2 with
      | some x =>
        x.state == .active && !x.ringFull &&
          (match x.buffer with
           | some b => b.ops.any fun o =>
              o.wantsGrant && grantKey x p.1 o.idx < grantKey w q i &&
                (match s.queuePart x with
                 | some pt => o.need pt == need
                 | none => false)
           | none => false)
      | none => false
  | none => false

/-- Whether an invalidation of a partition's mezzanines is in progress: a dispatch waits for it (R195). -/
def State.partInvals (s : State) (p : Nat) : Bool := s.mem.invals.any fun v => v.part == some p

/-- Operation `i` of queue `q` if its queue may dispatch it now: the queue is ACTIVE with room for records, no
invalidation is owed, and nothing before it waits for the same (R195, R302, R310). -/
def State.dispatchable (s : State) (q i typ : Nat) : Option (WorkQ × Operation × Nat) :=
  match s.queue q, s.op? q i with
  | some w, some o =>
    match s.queuePart w with
    | some p =>
      if w.state = .active && !w.ringFull && o.state = .ready && o.typ = typ && !s.partInvals p &&
          (typ = typNop || typAlloc ≤ typ || !s.outranked q i (o.need p)) then
        some (w, o, p)
      else none
    | none => none
  | _, _ => none

/-- How far a launch tread lies beyond the limit of R45. -/
def State.excess (s : State) (w : WorkQ) (o : Operation) : Option Nat :=
  let now := s.now (8 + w.hall)
  if o.timed && now + 2 ^ 36 < o.launchTread then some (o.launchTread - now - 2 ^ 36) else none

/-- Completes a dispatched operation as `LAUNCH_TOO_FAR` when its tread lies too far ahead (R45), else goes on. -/
def State.unlessTooFar (s : State) (w : WorkQ) (o : Operation) (q i : Nat) (go : State → State) : State :=
  match s.excess w o with
  | some x => s.completeOp q i stTooFar (x % 2 ^ 32)
  | none => go s

end Sys2Proof.Machine
end

