-- ==== Sys2Proof/Machine/Scan.lean ====
section
/-! DEFINITION. Working and idle alcoves and engines of a partition (R61, R302), and the stored pattern packs (R459). -/

namespace Sys2Proof.Machine

/-- Whether an alcove works: it is not retired and its hall is powered (R302, R481). -/
def State.alcoveWorks (s : State) (n : Nat) : Bool :=
  !s.retired (channelId 4 n) && !s.boot.unpowered.contains (n / 32) && (s.alcove n).core.state != .retired

/-- The working alcoves of partition `p` in a mask of halls, 0 for any (R302). -/
def State.partAlcoves (s : State) (p halls : Nat) : List Nat :=
  ((s.halfHalls p).flatMap fun j => upTo (16 * j) 16).filter fun n =>
    s.alcoveWorks n && (halls == 0 || bit halls (n / 32) == 1)

/-- Whether an alcove can be granted. One that faulted can, once its operation has ended (log 44). -/
def State.alcoveIdle (s : State) (n : Nat) : Bool :=
  let x := s.alcove n
  x.grant.isNone && (x.core.state == .idle || x.core.state == .faulted) && x.held.isEmpty

/-- The working copy engines of partition `p`. -/
def State.partEngines (s : State) (p : Nat) : List Nat := (s.halfHalls p).flatMap s.halfEngines

/-! ## Pattern packs (R458, R459) -/

def ScanSet.fld (x : ScanSet) (off size : Nat) : Nat := field x.header off size
def ScanSet.focus (x : ScanSet) : Bool := x.fld 0x02 1 == 1
def ScanSet.withdraw (x : ScanSet) : Bool := x.fld 0x03 1 % 2 == 1
def ScanSet.packId (x : ScanSet) : Nat := x.fld 0x04 4
def ScanSet.sequence (x : ScanSet) : Nat := x.fld 0x08 4
def ScanSet.target (x : ScanSet) : Nat := x.fld 0x14 1

def State.pack (s : State) (slot : Nat) : Option Pack := tget none s.sdc.packs slot

/-- A PACK record and its event (R459, R462). -/
def State.packRecord (s : State) (x : ScanSet) (slot action : Nat) : State :=
  (s.record { RasRecord.blank with
    kind := kindPack, location := [slot, action],
    signature := toBytes 4 x.packId ++ toBytes 4 x.sequence ++ zeros 8 ++ (x.header.drop 0x0C).take 8 }).1

/-- At a cold reset a slot whose signature fails is emptied (R459). -/
def State.packsVerified (s : State) : State :=
  forEach (List.range 16) s fun s k =>
    match s.pack k with
    | some p =>
      if p.set.signed then s
      else (s.onSdc fun d => { d with packs := tset none d.packs k none }).packRecord p.set k 5
    | none => s

/-! ## Rounds and the flash (R455) -/

/-- Chunks of a set. -/
def ScanSet.chunks (x : ScanSet) : Nat := (x.bytes + 65535) / 65536

/-- The round that has not ended (R455): one with chunks to come or a target under scan. -/
def State.openRound (s : State) : Option Round :=
  match s.sdc.round with
  | some r =>
    if r.chunks < r.set.chunks || s.sdc.scans.any (·.2.isSome) then some r else none
  | none => none

/-- Whether the flash may take a firmware-update write now: no retired-page write, record write or chunk waits
(R455). -/
def State.updateMayWrite (s : State) : Bool :=
  s.ras.unstored.isEmpty && !(s.host.flashQueue.any fun f => match f with
      | .retiredPage .. => true
      | .component .. => false) &&
    match s.openRound with
    | some r => r.set.chunks ≤ r.chunks
    | none => true

end Sys2Proof.Machine
end

