-- ==== Sys2Proof/Machine/Gather.lean ====
section
/-! DEFINITION. The narrow paths (R216 to R218, R234): gather descriptors, element reads and results. -/

namespace Sys2Proof.Machine

/-- Fields of a narrow-gather descriptor (R216). -/
def gatherCount (d : List Nat) : Nat := field d 0x18 4
def gatherESize (d : List Nat) : Nat := if bit (byteAt d 0x1C) 0 = 1 then 16 else 8
def gatherISize (d : List Nat) : Nat := if bit (byteAt d 0x1C) 1 = 1 then 8 else 4
def gatherVol (d : List Nat) : Bool := bit (byteAt d 0x1C) 2 == 1

/-- Whether a descriptor of virtual interface `v` is refused (R216). -/
def State.gatherRefused (s : State) (v : Nat) (d : List Nat) : Bool :=
  let n := gatherCount d
  let idx := field d 0 8
  let base := field d 8 8
  let dst := field d 0x10 8
  let own := fun ga => gaDevice ga == s.deviceId && addressFields ga && gaSpace ga < 3
  let reach := fun ga len write => own ga && s.namesMemory ga len && s.viMay v ga len write
  let il := n * gatherISize d
  let dl := n * gatherESize d
  !(reach idx il false && gaDevice base == s.deviceId && gaSpace base == spaceD && reach dst dl true &&
    1 ≤ n && n ≤ 16777216 && byteAt d 0x1C < 32 && byteAt d 0x1D ≤ 40 && field d 0x1E 2 == 0 &&
    (dst + dl ≤ idx || idx + il ≤ dst))

/-- What a gather has read so far: its bytes with their poison marks, newest last. -/
structure GatherRead where
  st : State
  bytes : List (Nat × Bool)
  g : Gather

/-- Reads element `e` for hall `h` and partition `p` (R217). A poisoned index poisons its element. -/
def GatherRead.element (x : GatherRead) (h p e : Nat) : GatherRead :=
  let d := x.g.desc
  let sz := gatherESize d
  let vol := gatherVol d
  let i := x.st.readSpace h (some p) vol (field d 0 8 + e * gatherISize d) (gatherISize d)
  let ga := (field d 8 8 + leNat i.data * 2 ^ byteAt d 0x1D) % 2 ^ 64
  let s := i.st.wrapFld F.NAR_REQS_COUNT 1 h
  if ga % sz == 0 && gaDevice ga == s.deviceId && gaSpace ga == spaceD && s.namesMemory ga sz && s.viMay x.g.vi ga sz false then
    let off := gaOffset ga
    let hit := !vol && s.fld F.MEZ_CTRL_ENABLE h == 1 && (s.mezLines h).any fun l => l.line == off / 256 && l.part == p
    let r := s.readCached h (some p) vol off sz
    let s1 := if hit then r.st.addFld F.NAR_MEZ_HITS_COUNT 1 h else r.st
    let bad := r.poison || i.poison
    { st := s1.onOp x.g.queue x.g.op fun o => o.met false r.cause none,
      bytes := x.bytes ++ r.data.map fun b => (b, bad),
      g := { x.g with
        poison := x.g.poison || bad,
        sharedPoison := x.g.sharedPoison.or (if r.poison then r.region else if i.poison then i.region else none) } }
  else
    { st := s.addFld F.NAR_RANGE_ERR_COUNT 1 h,
      bytes := x.bytes ++ List.replicate sz (0, true),
      g := { x.g with rangeError := x.g.rangeError.or (some e), poison := true } }

/-- The packets of a result (R185, R217). -/
def gatherPackets (dst : Nat) (bytes : List (Nat × Bool)) : List (Nat × List (Nat × Bool)) :=
  (rowPackets (bytes.length / 256 + 2) 0 dst bytes.length).map fun p => (p.2.1, slice bytes p.1 p.2.2)

/-- Runs the gather of hall `h` for partition `p`: reads its elements and sends its results (R217). -/
def State.runGather (s : State) (h p : Nat) (g : Gather) : State :=
  let x := (List.range (gatherCount g.desc)).foldl (fun (x : GatherRead) e => x.element h p e) ({ st := s, bytes := [], g := g } : GatherRead)
  let ps := gatherPackets (field g.desc 0x10 8) x.bytes
  let flights := ps.mapIdx fun i q =>
    { origin := .narrow h i, kind := .write, dst := q.1, data := q.2.map (·.1), poison := partMask (q.2.map (·.2)),
      counter := 0, vi := g.vi, job := x.st.viJob g.vi, hdr := none, waiting := false : Flight }
  (x.st.onHbm fun y => { y with gathers := tset none y.gathers h (some { x.g with outstanding := ps.length }) }).onMem
    fun m => { m with inflight := m.inflight ++ flights }

/-- The gather that hall `h`'s narrow path runs. -/
def State.gather? (s : State) (h : Nat) : Option Gather := tget none s.hbm.gathers h

/-- R216: a GATHER takes its hall's narrow path after its descriptor check. An untimed one launches at once. -/
def doGatherDispatch (q i : Nat) (s : State) : State :=
  match s.dispatchable q i typGather with
  | some (w, o, p) =>
    let h := o.word 0x40 1
    let d := slice o.body 0 32
    if !s.inHall p h then s.completeOp q i stResource 0x40
    else if (s.gather? h).isSome then s
    else
      s.unlessTooFar w o q i fun s =>
        if s.gatherRefused w.vi d then
          let (s1, n) := s.draw
          s1.completeOp q i stGatherDescriptor (n % 2 ^ 32)
        else
          let g : Gather :=
            { queue := q, op := i, vi := w.vi, desc := d, rangeError := none, poison := false, sharedPoison := none,
              outstanding := 0 }
          let s1 := (s.onOp q i fun o => { o with state := .dispatched, armed := o.timed }).onHbm fun y =>
            { y with gathers := tset none y.gathers h (some g) }
          if o.timed then s1 else (s1.launched q i (s1.now (8 + h))).runGather h p g
  | none => s

/-- R217: a gather completes once every result packet is acknowledged. -/
def doGatherComplete (h : Nat) (s : State) : State :=
  match s.gather? h with
  | some g =>
    match s.op? g.queue g.op with
    | some o =>
      if o.launched && g.outstanding = 0 then
        (s.onHbm fun y => { y with gathers := tset none y.gathers h none }).onOp g.queue g.op fun o =>
          { (o.met g.poison 0 g.sharedPoison) with
            engineDone := true,
            status := match g.rangeError with
              | some _ => stGatherRange
              | none => o.status,
            detail := g.rangeError.getD o.detail }
      else s
    | none => s
  | none => s

end Sys2Proof.Machine
end

