-- ==== Sys2Proof/Machine/Time.lean ====
section
/-! DEFINITION. Stair time: announcements and election, the domain count, beats, the discipline loop, the
delay exchange, reference and PPS events (R24 to R50, R385, R386). -/

namespace Sys2Proof.Machine

/-! ## Events and replicas -/

/-- Sets a bit of `TIME_EVENT`; bit b is source 100 + b. -/
def State.timeEvent (s : State) (f : Fld) : State := s.raise f (100 + f.lo)

/-- Records that the device's time state may have changed from `old` (R36, R50). -/
def State.timeStateFrom (s : State) (old : TimeState) : State :=
  let new := s.timeState
  let s1 := if old = .locked && new != .locked then s.timeEvent F.TIME_EVENT_LOCK_LOST else s
  if old != .holdover && new = .holdover then s1.timeEvent F.TIME_EVENT_HOLDOVER_ENTER else s1

def State.setReplica (s : State) (k : Nat) (r : Replica) : State :=
  s.onTime fun t => { t with replicas := tset .free t.replicas k r }

/-- A replica that has moved to time state `x`. -/
def Replica.enter (r : Replica) (x : TimeState) : Replica :=
  { r with state := x, left := if x = .locked then false else r.left || r.state == .locked }

/-- A replica with a new increment from now. -/
def Replica.rate (r : Replica) (tick inc : Nat) : Replica :=
  { r with base := r.at tick, since := max tick r.since, inc := inc }

/-- Moves the master's replica to a state and records the device's events. -/
def State.masterEnter (s : State) (x : TimeState) : State :=
  let old := s.timeState
  (s.setReplica s.master ((s.replica s.master).enter x)).timeStateFrom old

/-! ## Election (R27 to R29, R32) -/

/-- The peer of port `p` offers TIME and the port is ACTIVE. -/
def State.timePort (s : State) (p : Nat) : Bool :=
  match (s.port p).peer with
  | some i => (s.port p).state == .active && bit i.caps 0 == 1
  | none => false

/-- This device as a root; none for a FOLLOWER. -/
def State.ownCandidacy (s : State) : Option RootInfo :=
  let role := s.fld F.TIME_CTRL_ROLE
  if role = 1 || role = 2 then
    some { id := s.deviceId, configured := role == 2, priority := s.fld F.TIME_CTRL_PRIORITY }
  else none

/-- The order of R27: a smaller key wins. -/
def RootInfo.key (r : RootInfo) : Nat :=
  ((if r.configured then 0 else 1) * 256 + r.priority) * 2 ^ 32 + r.id

/-- Eight announcement periods. -/
def announceLimit : Nat := 8 * 1024

/-- What working ports announce, with the port, apart from this device itself. -/
def State.heardRoots (s : State) : List (Nat × PortAnnounce) :=
  (List.range 64).filterMap fun p =>
    match tget none s.time.announces p with
    | some a =>
      if s.timePort p && s.time.tick - a.heard < announceLimit && a.root.id != s.deviceId then some (p, a)
      else none
    | none => none

/-- The best root among this device and those announced. -/
def State.bestRoot (s : State) : Option RootInfo :=
  let all := s.ownCandidacy.toList ++ s.heardRoots.map (·.2.root)
  all.foldl (fun best r =>
    match best with
    | none => some r
    | some b => if r.key < b.key then some r else best) none

/-- The upstream port for a root: fewest hops, then lowest number (R27). -/
def State.bestPort (s : State) (root : RootInfo) : Option (Nat × Nat) :=
  (s.heardRoots.filter fun x => x.2.root.id == root.id).foldl (fun best x =>
    match best with
    | none => some (x.1, x.2.hops)
    | some b => if x.2.hops < b.2 then some (x.1, x.2.hops) else best) none

/-- The starting value of R30, in treads. -/
def State.startingValue (s : State) : Nat :=
  max (s.reg .TIME_EPOCH_LO + 2 ^ 32 * s.reg .TIME_EPOCH_HI) (s.now 0)

/-- The domain count starts at the root at a value (R30): a forward step of the master's replica. -/
def State.startCount (s : State) (value : Nat) : State :=
  let r := s.replica 0
  let s1 := s.setReplica 0 { r with base := max (value * treadUnit) (s.count 0), since := s.time.tick }
  s1.onTime fun t => { t with counting := true, pps := .idle }

/-- The root reaches LOCKED (R30, R32). -/
def State.rootLocked (s : State) : State :=
  let s1 := s.masterEnter .locked
  if s1.time.counting then s1
  else if s1.fld F.TIME_CTRL_PPS_IN_EN = 1 then
    s1.onTime fun t => { t with pps := .waiting t.tick }
  else s1.startCount s1.startingValue

/-- Follows the best root now known (R27, R28): the root, the hop count and the upstream port. -/
def State.elect (s : State) : State :=
  let old := s.timeState
  let best := s.bestRoot
  let changed := best.map (·.id) != s.time.root.map (·.id)
  match best with
  | none =>
    let s1 := s.onTime fun t => { t with root := none, hops := 0, upstream := none, pps := .idle }
    let s2 := if s.time.root.isSome then s1.timeEvent F.TIME_EVENT_ROOT_CHANGE else s1
    if s.time.root.isSome then
      (s2.setReplica s2.master ((s2.replica s2.master).enter
        (if s2.time.counting then .holdover else .free))).timeStateFrom old
    else s2
  | some r =>
    if r.id = s.deviceId then
      if changed then
        let carry := s.count s.master
        let frozen := s.replica s.master
        let s1 := s.onTime fun t => { t with root := some r, hops := 0, upstream := none }
        -- a new root continues from its own replica
        let r0 := s1.replica 0
        let s2 := s1.setReplica 0
          { r0 with base := max carry (s.count 0), since := s.time.tick, inc := frozen.inc, filt := 0 }
        let s3 := (s2.timeEvent F.TIME_EVENT_ROOT_CHANGE).timeStateFrom old
        if s3.time.refPresent then
          if (s3.replica 0).state = .locked then s3 else s3.masterEnter .acquire
        else s3.rootLocked
      else s.onTime fun t => { t with root := some r, hops := 0, upstream := none }
    else
      match s.bestPort r with
      | none => s
      | some (p, hops) =>
        let conflict := (s.ownCandidacy.map (·.configured)).getD false && r.configured && changed
        let s1 := s.onTime fun t =>
          { t with root := some r, hops := min 31 (hops + 1), upstream := some p, pps := .idle,
                   lostAt := none }
        let s2 := if changed then s1.timeEvent F.TIME_EVENT_ROOT_CHANGE else s1
        let s3 := if conflict then s2.timeEvent F.TIME_EVENT_ROOT_CONFLICT else s2
        if (s3.replica s3.master).state = .free then (s3.masterEnter .acquire).timeStateFrom old
        else s3.timeStateFrom old

/-- What an announcement says of the followed root. -/
def State.ownAnnounce (s : State) : LinkMsg :=
  match s.time.root with
  | some r => .announce true (if r.configured then 2 else 1) r.priority s.time.hops r.id s.deviceId
  | none => .announce false 0 0 0 0 s.deviceId

/-- R27: an announcement on every working port. -/
def doRootAnnouncementSend (s : State) : State :=
  forEach (List.range 64) s fun s p => if s.timePort p then s.sendLink p 7 s.ownAnnounce else s

/-- Takes the oldest time message of a port that a test accepts. -/
def State.takeTime (s : State) (port : Nat) (want : LinkMsg → Bool) : Option (TimeArrival × State) :=
  match s.clz.inbox.find? fun a => a.port == port && want a.msg with
  | some a => some (a, s.onClz fun c => { c with inbox := c.inbox.erase a })
  | none => none

/-- R27, R28: a received ANNOUNCE. -/
def doAnnounceReceive (port : Nat) (s : State) : State :=
  match s.takeTime port fun m => match m with | .announce .. => true | _ => false with
  | some (a, s1) =>
    match a.msg with
    | .announce valid role priority hops rootId _ =>
      let entry := if valid then
          some { root := { id := rootId, configured := role == 2, priority := priority }, hops := hops,
                 heard := s.time.tick }
        else none
      (s1.onTime fun t => { t with announces := tset none t.announces port entry }).elect
    | _ => s1
  | none => s

/-- R29: the upstream port has missed eight announcements, or no longer works. -/
def State.upstreamSilent (s : State) : Bool :=
  match s.time.upstream with
  | some p =>
    match tget none s.time.announces p with
    | some a => !s.timePort p || announceLimit ≤ s.time.tick - a.heard
    | none => true
  | none => false

/-- R29: the upstream path is lost. -/
def doUpstreamPathLost (s : State) : State :=
  if s.upstreamSilent then
    s.onTime fun t =>
      { t with lostAt := some t.tick,
               announces := match t.upstream with
                 | some p => tset none t.announces p none
                 | none => t.announces }
  else s

/-- R29, R40: another working port reaches the same root. -/
def doUpstreamPortSwitch (s : State) : State :=
  match s.time.lostAt, s.time.root with
  | some _, some r =>
    match s.bestPort r with
    | some (p, hops) =>
      let old := s.timeState
      let carry := s.count s.master
      let was := s.replica s.master
      let s1 := s.onTime fun t =>
        { t with upstream := some p, hops := min 31 (hops + 1), lostAt := none }
      (s1.setReplica s1.master
        { was with base := max carry (s.count s1.master), since := s.time.tick }).timeStateFrom old
    | none => s
  | _, _ => s

/-- R29, R32: election after the root was lost. -/
def doRootElectionComplete (s : State) : State :=
  match s.time.lostAt, s.time.root with
  | some _, some r =>
    if (s.bestPort r).isNone then ({ s with time := { s.time with lostAt := none } }).elect else s
  | _, _ => s.elect

/-! ## The domain count and PPS (R30, R31) -/

/-- R30: the root, with its reference locked, reaches LOCKED. -/
def doDomainCountStart (s : State) : State :=
  if s.isRoot && (s.replica 0).state != .locked then s.rootLocked else s

/-- The least multiple of 10^9 not below `n`. -/
def nextSecond (n : Nat) : Nat := (n + 999999999) / 1000000000 * 1000000000

/-- R30: a rising edge on TIME_PPS_IN. -/
def doPpsInEdge (s : State) : State :=
  let s1 := s.onTime fun t => { t with ppsSeen := some t.tick }
  match s1.time.pps with
  | .waiting _ =>
    if s1.isRoot && !s1.time.counting then s1.startCount (nextSecond s1.startingValue) else s1
  | .idle => s1

/-- R30: no edge within 2 s of LOCKED. -/
def doPpsWaitTimeout (s : State) : State :=
  match s.time.pps with
  | .waiting since =>
    if 2000000000 ≤ s.time.tick - since && s.isRoot && !s.time.counting then
      (s.startCount s.startingValue).onTime fun t => { t with ppsSeen := none }
    else s
  | .idle => s

/-- R31: the master's replica crosses a whole second. -/
def doPpsOutPulse (s : State) : State :=
  if s.fld F.TIME_CTRL_PPS_OUT_EN = 1 then s.emit .ppsOut else s

/-- R50: no TIME_PPS_IN pulse for 1.1 s. -/
def doPpsPresentExpire (s : State) : State :=
  match s.time.ppsSeen with
  | some t =>
    if 1100000000 ≤ s.time.tick - t then s.onTime fun x => { x with ppsSeen := none } else s
  | none => s

/-- Effects of a write to `TIME_CTRL` beyond its stored fields (R30, R50): a change of role starts election;
clearing PPS_IN_EN while the root waits starts the count. -/
def State.timeCtrlWritten (s : State) (old : Nat) : State :=
  let s1 := if F.TIME_CTRL_ROLE.of old != s.fld F.TIME_CTRL_ROLE then s.elect else s
  match s1.time.pps with
  | .waiting _ =>
    if s1.isRoot && !s1.time.counting && s1.fld F.TIME_CTRL_PPS_IN_EN = 0 then
      s1.startCount s1.startingValue
    else s1
  | .idle => s1

/-! ## The reference (R32, R38, R39) -/

/-- R32, R38: TIME_REF_IN is present. -/
def doTimeRefInPresent (s : State) : State :=
  if s.time.refPresent then s
  else
    let s1 := s.onTime fun t => { t with refPresent := true, rootHoldover := false }
    if s.time.rootHoldover && s1.isRoot && (s1.replica 0).state = .holdover then s1.masterEnter .locked
    else s1

/-- R38, R39: TIME_REF_IN is lost. A root that had not yet locked to it locks to the SerDes reference (R32). -/
def doTimeRefInLost (s : State) : State :=
  if s.time.refPresent then
    let s1 := (s.onTime fun t => { t with refPresent := false }).timeEvent F.TIME_EVENT_REF_LOST
    if s1.isRoot then
      if (s1.replica 0).state = .locked then
        (s1.onTime fun t => { t with rootHoldover := true }).masterEnter .holdover
      else if (s1.replica 0).state = .acquire then s1.rootLocked
      else s1
    else s1
  else s

/-! ## Beats and the discipline (R33 to R36, R40) -/

/-- The islands that a hall's slice feeds (R33). -/
def hallIslands (h : Nat) : List Nat :=
  [8 + h, 16 + h, 24 + h, 32 + h] ++ (if h = 0 then [40] else []) ++ upTo (64 + 8 * h) 8 ++
    upTo (256 + 32 * h) 32

/-- R33, R385: beats from the master to the other slices, from each slice to its islands, and on the ports. -/
def doTimeBeatSend (s : State) : State :=
  let m := s.master
  let slices := ((List.range 8).filter (· != m)).map fun h => { dest := h, sent := s.count m : Beat }
  let spurs := (List.range 8).flatMap fun h =>
    (hallIslands h).map fun k => { dest := k, sent := s.count h : Beat }
  let s1 := s.onTime fun t => { t with beats := t.beats ++ slices ++ spurs }
  forEach (List.range 64) s1 fun s p =>
    if s.timePort p && !(tget .empty s.time.exchanges p).quiet then s.sendLink p 7 (.beat 0 0) else s

/-- Clamps an integer. -/
def clampTo (lo hi x : Int) : Int := if x < lo then lo else if hi < x then hi else x

/-- 200 ppm in 2^-24 of nominal (R35). -/
def freqLimit : Int := 3355

/-- 1/1,024 in 2^-24 of nominal (R35). -/
def slewLimit : Int := 16384

/-- The discipline loop of R35 at a beat: `sent` is the sender's count with the path delay, and `at16` the
local timestamp, both in 1/16 tread. Frequency and slew are fractions of nominal for the 256 treads of a
beat interval (log 20). -/
def Replica.beat (r : Replica) (tick : Nat) (sent at16 : Int) : Replica :=
  let offset := sent - at16
  let filt := r.filt + (offset - r.filt) / 4
  let r1 := { r with filt := filt, beatAt := tick }
  if 65536 < offset.natAbs then
    let r2 := { r1.enter .acquire with good := 0, bad := 0 }
    let here := r2.at tick
    if 0 < offset then
      { r2 with base := here + offset.toNat * 2 ^ 20, since := tick, inc := treadUnit }
    else { r2 with base := here, since := tick + (offset.natAbs + 15) / 16, inc := treadUnit }
  else
    let freq := clampTo (-freqLimit) freqLimit (r.freq + filt * 64)
    let slew := clampTo (-slewLimit) slewLimit (filt * 1024)
    let r2 := (r1.rate tick ((treadUnit : Int) + freq + slew).toNat)
    let good := if filt.natAbs ≤ 4 then r.good + 1 else 0
    let bad := if r.state = .locked && 16 < filt.natAbs then r.bad + 1 else 0
    let r3 := { r2 with freq := freq, good := good, bad := bad }
    if r.state = .locked then
      if 4 ≤ bad then { r3.enter .acquire with good := 0, bad := 0 } else r3
    else if 16 ≤ good then { r3.enter .locked with bad := 0 }
    else if r.state = .free then r3.enter .acquire
    else r3

/-- Applies a beat to the replica with key `k`. -/
def State.applyBeat (s : State) (k : Nat) (sent at16 : Int) : State :=
  let old := s.timeState
  (s.setReplica k ((s.replica k).beat s.time.tick sent at16)).timeStateFrom old

/-- The path of a beat: a spur or bridge path to an island, or a Coluz port. -/
def State.spurDelayOf (s : State) (k : Nat) : Nat :=
  if k < 8 then tget 0 s.time.bridgeDelay k else tget 0 s.time.spurDelay k

/-- R37: the median of the delays kept; of an even number, the mean of the middle two (log 21). -/
def medianDelay (l : List Int) : Int :=
  let m := l.mergeSort (fun a b => decide (a ≤ b))
  let n := m.length
  if n = 0 then 0
  else if n % 2 = 1 then m.getD (n / 2) 0
  else (m.getD (n / 2 - 1) 0 + m.getD (n / 2) 0) / 2

/-- `TIME_PORT_ASYM` of a port, signed, in 1/16 tread. -/
def State.asym (s : State) (p : Nat) : Int := toInt 16 (s.fld F.TIME_PORT_ASYM_ASYM 0 p)

/-- R35, R385: a beat reaches an island over its spur or bridge path. -/
def doTimeBeatReceiveSpur (k : Nat) (s : State) : State :=
  match s.time.beats.find? fun b => b.dest == k with
  | some b =>
    let s1 := s.onTime fun t => { t with beats := t.beats.erase b }
    s1.applyBeat k ((b.sent / 2 ^ 20 + s.spurDelayOf k : Nat) : Int) (s.stamp k : Int)
  | none => s

/-- R385: a BEAT that arrived on a port; only those of the upstream port are used. A follower's first beat
of its domain's count makes that count exist here (R30). -/
def doTimeBeatReceiveLink (port : Nat) (s : State) : State :=
  match s.takeTime port fun m => match m with | .beat .. => true | _ => false with
  | some (a, s1) =>
    match a.msg with
    | .beat frac int =>
      if s.time.upstream = some port && s.timePort port then
        let delay := medianDelay (tget .empty s.time.exchanges port).last + s.asym port / 2
        let sent : Int := ((int * 2 ^ 24 + frac) / 2 ^ 20 : Nat)
        (s1.applyBeat s.master (sent + delay) (a.stamp : Int)).onTime
          fun t => { t with counting := true }
      else s1
    | _ => s1
  | none => s

/-- Which beat arrives. -/
def doTimeBeatReceive (path : Island ⊕ Fin 64) (s : State) : State :=
  match path with
  | .inl i => doTimeBeatReceiveSpur i.key s
  | .inr p => doTimeBeatReceiveLink p.val s

/-- R40: no beat for eight intervals. -/
def doBeatLossHoldover (i : Island) (s : State) : State :=
  let r := s.replica i.key
  if r.state = .locked && 8 * 256 ≤ s.time.tick - r.beatAt &&
      !(s.isRoot && i.key == 0) then
    let old := s.timeState
    let r1 := (r.rate s.time.tick ((treadUnit : Int) + r.freq).toNat).enter .holdover
    (s.setReplica i.key r1).timeStateFrom old
  else s

/-- R34: a hall's relay has measured its bridge time paths; `delay` is the path from the master's slice, in
1/16 tread. -/
def doBridgePathDelayMeasure (h : Nat) (delay : Nat) (s : State) : State :=
  s.onTime fun t => { t with bridgeDelay := tset 0 t.bridgeDelay h delay }

/-! ## The delay exchange (R37, R386) -/

def State.exchange (s : State) (p : Nat) : DelayExch := tget .empty s.time.exchanges p

def State.setExchange (s : State) (p : Nat) (x : DelayExch) : State :=
  s.onTime fun t => { t with exchanges := tset .empty t.exchanges p x }

/-- 56-bit timestamp difference (R378). -/
def stampDiff (a b : Nat) : Int := toInt 56 ((a + 2 ^ 56 - b % 2 ^ 56) % 2 ^ 56)

/-- R37: both sides compute delay and offset once four timestamps are held. -/
def State.exchangeDone (s : State) (p : Nat) : State :=
  let x := s.exchange p
  match x.t1, x.t2, x.t3, x.t4 with
  | some t1, some t2, some t3, some t4 =>
    let delay := (stampDiff t4 t1 - stampDiff t3 t2) / 2
    let offset := (stampDiff t2 t1 - stampDiff t4 t3) / 2 - s.asym p / 2
    s.setExchange p
      { x with awaiting := false, t1 := none, t2 := none, t3 := none, t4 := none,
               last := (delay :: x.last).take 8, done := x.done + 1, offset := offset,
               quiet := x.quiet && x.done + 1 < 8 }
  | _, _, _, _ => s

/-- Whether this device is the upstream side of the link on port `p` (R386): nearer the root, or at equal hops
of the lower device ID. A port that has heard nothing counts unless it is the upstream port. -/
def State.upstreamSide (s : State) (p : Nat) : Bool :=
  match tget none s.time.announces p, (s.port p).peer with
  | some a, some i => s.time.hops < a.hops || (s.time.hops == a.hops && s.deviceId < i.device)
  | _, _ => s.time.upstream != some p

/-- R386: the upstream side of a link sends DELAY_REQ. -/
def doDelayExchangeStart (p : Nat) (s : State) : State :=
  if s.timePort p && s.upstreamSide p then
    let x := s.exchange p
    let n := (x.num + 1) % 256
    (s.setExchange p { x with num := n, awaiting := true, t1 := none, t2 := none, t3 := none, t4 := none,
                              began := s.time.tick }).sendLink p 7 (.delayReq n)
  else s

/-- R386: the downstream side records t2 and answers. -/
def doDelayReqReceive (p : Nat) (s : State) : State :=
  match s.takeTime p fun m => match m with | .delayReq _ => true | _ => false with
  | some (a, s1) =>
    match a.msg with
    | .delayReq n =>
      (s1.setExchange p { s1.exchange p with
          num := n, awaiting := true, t1 := none, t2 := some (a.stamp % 2 ^ 56), t3 := none, t4 := none, began := s1.time.tick }).sendLink p 7
        (.delayResp n (a.stamp % 2 ^ 56) 0)
    | _ => s1
  | none => s

/-- R386: the upstream side records t4 and sends DELAY_FOLLOW; it then holds all four. -/
def doDelayRespReceive (p : Nat) (s : State) : State :=
  match s.takeTime p fun m => match m with | .delayResp .. => true | _ => false with
  | some (a, s1) =>
    match a.msg with
    | .delayResp n t2 t3 =>
      let x := s1.exchange p
      if x.awaiting && x.num = n then
        match x.t1 with
        | some t1 =>
          let t4 := a.stamp % 2 ^ 56
          let s2 := s1.setExchange p { x with t2 := some t2, t3 := some t3, t4 := some t4 }
          (s2.sendLink p 7 (.delayFollow n t1 t4)).exchangeDone p
        | none => s1
      else s1
    | _ => s1
  | none => s

/-- R37, R386: DELAY_FOLLOW completes the downstream side's exchange. -/
def doDelayFollowReceive (p : Nat) (s : State) : State :=
  match s.takeTime p fun m => match m with | .delayFollow .. => true | _ => false with
  | some (a, s1) =>
    match a.msg with
    | .delayFollow n t1 t4 =>
      let x := s1.exchange p
      if x.awaiting && x.num = n then
        (s1.setExchange p { x with t1 := some t1, t4 := some t4 }).exchangeDone p
      else s1
    | _ => s1
  | none => s

/-- R386: an exchange not finished within 65,536 treads is discarded. -/
def doDelayExchangeDiscard (p : Nat) (s : State) : State :=
  let x := s.exchange p
  if x.awaiting && 65536 ≤ s.time.tick - x.began then
    s.setExchange p { x with awaiting := false, t1 := none, t2 := none, t3 := none, t4 := none }
  else s

/-- The transmitter fills a time message as it leaves port `p` (R385, R386), and records what it sent. -/
def State.stampOut (s : State) (p : Nat) (m : LinkMsg) : State × LinkMsg :=
  let c := s.count (64 + p)
  let t := c / 2 ^ 20 % 2 ^ 56
  match m with
  | .beat _ _ => (s, .beat (c % 2 ^ 24) (c / 2 ^ 24 % 2 ^ 64))
  | .delayReq n => (s.setExchange p { s.exchange p with t1 := some t }, .delayReq n)
  | .delayResp n t2 _ => (s.setExchange p { s.exchange p with t3 := some t }, .delayResp n t2 t)
  | m => (s, m)

/-- A port's lane count has changed: it carries no beats until eight exchanges complete (R37). -/
def State.exchangeRestart (s : State) (p : Nat) : State :=
  s.setExchange p { s.exchange p with done := 0, last := [], quiet := true, awaiting := false,
                                      t1 := none, t2 := none, t3 := none, t4 := none }

end Sys2Proof.Machine
end

