-- ==== Sys2Proof/Machine/Walker.lean ====
section
/-! DEFINITION. The tile walker's arithmetic (R165 to R175): the descriptor and its checks, the grid, the
visit orders, the division of the sequence, and lost ranges. -/

namespace Sys2Proof.Machine

/-- A little-endian number in a byte list. -/
def leBytes (bs : List Nat) (off n : Nat) : Nat :=
  ((bs.drop off).take n).foldr (fun b acc => acc * 256 + b % 256) 0

/-- The fields of a tile descriptor (R165). -/
structure TileDesc where
  m : Nat
  n : Nat
  tileM : Nat
  tileN : Nat
  kStep : Nat
  order : Nat
  split : Bool
  ctrlRsv : Nat
  rsv : Nat
  seqFirst : Nat
  seqStride : Nat
  seqCount : Nat
  rowBase : Nat
  colBase : Nat
  deriving DecidableEq, Repr

def TileDesc.ofBytes (b : List Nat) : TileDesc :=
  let c := leBytes b 0x0A 1
  { m := leBytes b 0 2, n := leBytes b 2 2, tileM := leBytes b 4 2, tileN := leBytes b 6 2,
    kStep := leBytes b 8 2, order := c % 4, split := (c / 4) % 2 = 1, ctrlRsv := c / 8,
    rsv := leBytes b 0x0B 1, seqFirst := leBytes b 0x0C 4, seqStride := leBytes b 0x10 4,
    seqCount := leBytes b 0x14 4, rowBase := leBytes b 0x18 4, colBase := leBytes b 0x1C 4 }

def TileDesc.gridRows (d : TileDesc) : Nat := (d.m + d.tileM - 1) / d.tileM
def TileDesc.gridCols (d : TileDesc) : Nat := (d.n + d.tileN - 1) / d.tileN

/-- T of R167. -/
def TileDesc.tiles (d : TileDesc) : Nat := d.gridRows * d.gridCols

/-- The byte offset of the first failing field of R166, or none. -/
def TileDesc.check (d : TileDesc) : Option Nat :=
  let dim (x : Nat) := 1 ≤ x && x ≤ 4096
  if !dim d.m then some 0x00
  else if !dim d.n then some 0x02
  else if !dim d.tileM then some 0x04
  else if !dim d.tileN then some 0x06
  else if !(1 ≤ d.kStep && d.kStep ≤ 8192) then some 0x08
  else if d.order = 3 || d.ctrlRsv ≠ 0 then some 0x0A
  else if d.rsv ≠ 0 then some 0x0B
  else if d.seqCount = 0 then
    if d.seqFirst ≠ 0 then some 0x0C else if d.seqStride ≠ 0 then some 0x10 else none
  else if d.seqStride = 0 then some 0x10
  else if d.tiles ≤ d.seqFirst + (d.seqCount - 1) * d.seqStride then some 0x0C
  else none

/-- One level of `hilbert_cell`. -/
def hilbertStep (s : Nat) (xyt : Nat × Nat × Nat) : Nat × Nat × Nat :=
  let (x, y, t) := xyt
  let rx := (t / 2) % 2
  let ry := (t + rx) % 2
  let (x, y) :=
    if ry = 0 then
      let (x, y) := if rx = 1 then (s - 1 - x, s - 1 - y) else (x, y)
      (y, x)
    else (x, y)
  (x + s * rx, y + s * ry, t / 4)

def hilbertLoop : Nat → Nat → Nat × Nat × Nat → Nat × Nat × Nat
  | 0, _, a => a
  | k + 1, s, a => hilbertLoop k (2 * s) (hilbertStep s a)

/-- `hilbert_cell(n, d)` of R168. -/
def hilbertCell (n d : Nat) : Nat × Nat :=
  let (x, y, _) := hilbertLoop n 1 (0, 0, d)
  (x, y)

/-- log₂ of the smallest power of two not below x. -/
def ceilLog2 (x : Nat) : Nat := if x ≤ 1 then 0 else Nat.log2 (x - 1) + 1

/-- Every tile in Hilbert order: blocks in turn, positions outside the grid skipped. -/
def hilbertOrder (r c : Nat) : List (Nat × Nat) :=
  let long := max r c
  let short := min r c
  let n := ceilLog2 short
  let s := 2 ^ n
  ((List.range ((long + s - 1) / s)).flatMap fun b =>
    (List.range (s * s)).map fun d =>
      let (x, y) := hilbertCell n d
      if r ≤ c then (y, b * s + x) else (b * s + x, y)).filter fun p => p.1 < r && p.2 < c

/-- The tile of a full-order index, as grid row and column (R168). -/
def TileDesc.cell (d : TileDesc) (f : Nat) : Nat × Nat :=
  match d.order with
  | 1 => (f / d.gridCols, f % d.gridCols)
  | 2 => (f % d.gridRows, f / d.gridRows)
  | _ => (hilbertOrder d.gridRows d.gridCols).getD f (0, 0)

/-- L of R169. -/
def TileDesc.seqLen (d : TileDesc) : Nat := if d.seqCount = 0 then d.tiles else d.seqCount

/-- Full-order index of sequence index m (R169). -/
def TileDesc.fullIndex (d : TileDesc) (m : Nat) : Nat :=
  if d.seqCount = 0 then m else d.seqFirst + m * d.seqStride

/-- First sequence index of a BLOCKED share. -/
def blockStart (r l g : Nat) : Nat := r * l / g

/-- Tiles in the share of rank r of g (R170). -/
def TileDesc.share (d : TileDesc) (r g : Nat) : Nat :=
  let l := d.seqLen
  if d.split then blockStart (r + 1) l g - blockStart r l g
  else if l ≤ r then 0 else (l - r + g - 1) / g

/-- Sequence index of share index j (R170). -/
def TileDesc.seqIndex (d : TileDesc) (r g j : Nat) : Nat :=
  if d.split then blockStart r d.seqLen g + j else r + j * g

/-- What the walker delivers for a share index: row origin, column origin, valid rows, valid columns. -/
def TileDesc.tile (d : TileDesc) (r g j : Nat) : Nat × Nat × Nat × Nat :=
  let (i, k) := d.cell (d.fullIndex (d.seqIndex r g j))
  ((d.rowBase + i * d.tileM) % 2 ^ 32, (d.colBase + k * d.tileN) % 2 ^ 32,
    min d.tileM (d.m - i * d.tileM), min d.tileN (d.n - k * d.tileN))

/-- The lost range of a share from its done count (R174): FIRST, STRIDE and COUNT. -/
def TileDesc.lost (d : TileDesc) (r g done : Nat) : Nat × Nat × Nat :=
  let first := if d.seqCount = 0 then 0 else d.seqFirst
  let stride := if d.seqCount = 0 then 1 else d.seqStride
  let count := d.share r g - done
  if d.split then (first + (blockStart r d.seqLen g + done) * stride, stride, count)
  else (first + (r + done * g) * stride, g * stride, count)

end Sys2Proof.Machine
end

