-- ==== Sys2Proof/Machine/Kernel.lean ====
section
/-! DEFINITION. Kernels (R61, R62, R164, R302 to R306): their alcoves, the loading of ranks, launches, and pauses. -/

namespace Sys2Proof.Machine

/-! ## The state of an alcove at kernel start (R61, R159) -/

/-- An alcove register that reaches the whole store. -/
def AddrReg.whole : AddrReg := { addr := 0, stride := 0, low := 0, high := 0x180000 }

/-- Registers g0 to g63 at kernel start. -/
def startScalars (args : List Nat) (rank size alcove device : Nat) : Tbl Scalar :=
  (List.range 64).foldl (fun t i =>
    let v := if 1 ≤ i && i ≤ 15 then field args (8 * (i - 1)) 8
      else if i = 60 then rank else if i = 61 then size else if i = 62 then alcove else if i = 63 then device else 0
    tset .zero t i { val := BitVec.ofNat 64 v, poison := false }) []

/-- A core at kernel start, not launched. -/
def Core.atStart (pc : Nat) (args : List Nat) (rank size alcove device : Nat) : Core :=
  { Core.reset with
    state := .idle, pc := pc, g := startScalars args rank size alcove device,
    a := (List.range 16).map fun i => (i, AddrReg.whole),
    p := [(0, { bits := BitVec.allOnes 512, poison := false })], rngSeed := BitVec.ofNat 64 rank }

/-- Engines, units and tiles of an alcove as a kernel finds them. -/
def Alcove.freshUnits (x : Alcove) : Alcove :=
  { x with
    tiles := [], units := [], modeIssued := .quad, mode := .quad, streams := [], streamSeq := 0, copySeq := 0,
    copies := [], pausePending := false, saving := false, abortBy := none, ended := false }

/-- The walker of rank `r` of `g` with a descriptor loaded; none has an empty share (R164, R172). -/
def Walker.load (desc : Option (List Nat)) (r g : Nat) : Walker :=
  match desc with
  | some d =>
    let n := (TileDesc.ofBytes d).share r g
    { Walker.empty with desc := d, loaded := true, rank := r, group := g, share := n, queued := min 4 n }
  | none => { Walker.empty with rank := r, group := g }

/-! ## Fields of a kernel (R297) -/

def Operation.image (o : Operation) : Nat := o.word 0x20 8
def Operation.imageBytes (o : Operation) : Nat := o.word 0x30 4
def Operation.imageBundle (o : Operation) : Nat := o.word 0x34 2
def Operation.entryPc (o : Operation) : Nat := o.word 0x36 2
def Operation.group (o : Operation) : Nat := o.word 0x38 2
def Operation.halls (o : Operation) : Nat := o.word 0x3A 1
def Operation.resBase (o : Operation) : Nat := o.word 0x40 4
def Operation.resBytes (o : Operation) : Nat := o.word 0x44 4

/-- The tile descriptor that a kernel carries. -/
def Operation.tileDesc (o : Operation) : Option (List Nat) :=
  if bit (o.word 0x3B 1) 0 = 1 then some (slice o.body 0x30 32) else none

/-- The image as an alcove that holds it notes it (R302). -/
def Operation.loaded (o : Operation) (vi : Nat) : LoadedImage :=
  { tag := o.word 0x28 8, addr := o.image, bytes := o.imageBytes, bundle := o.imageBundle, vi := vi }

/-- Whether alcove `n` holds the image of a kernel already. -/
def State.holdsImage (s : State) (n : Nat) (o : Operation) (vi : Nat) : Bool :=
  o.word 0x28 8 != 0 && tget none s.vst.images n == some (o.loaded vi)

/-- The engine that loads images into alcove `n` for partition `p`. -/
def State.imageEngine (s : State) (n p : Nat) : Option Nat :=
  (s.engineFor (alcoveHalf n)).or (s.partEngines p).min?

/-- The packets of an image, as offsets in it. -/
def imagePackets (bytes : Nat) : List (Nat × Nat) :=
  (List.range ((bytes + 255) / 256)).map fun i => (256 * i, min 256 (bytes - 256 * i))

/-- Loads the image of operation `i` of queue `q` into alcove `n` through engine `e`. Its poison marks the bundles; that
of a shared region marks the operation too. -/
def State.loadImage (s : State) (q i n e p : Nat) (o : Operation) (vi : Nat) : State :=
  let s1 := (imagePackets o.imageBytes).foldl (fun (s : State) k =>
    let r := s.readSpace (e / 8) (some p) false (o.image + k.1) k.2
    let (s2, _) := r.st.writeI n (o.imageBundle * 128 + k.1) r.data r.marks e s.mem.nextCopy 0
    let s3 := s2.wrapFld F.CE_PACKETS_COUNT 1 e
    match r.region with
    | some g => s3.onOp q i fun o => o.met false r.cause (some g)
    | none => s3.onOp q i fun o => { o with cause := if o.cause = 0 then r.cause else o.cause }) s
  s1.onVst fun v => { v with images := tset none v.images n (some (o.loaded vi)) }

/-- Gives alcove `n` to rank `r` of operation `i` of queue `q`: wiped and loaded as R62 and R302 ask. -/
def State.prepareRank (s : State) (q i n r : Nat) (p : Nat) (o : Operation) (vi : Nat) : State :=
  let s0 := s.abortScan (channelId 4 n)
  let s1 := s0.onAlcove n fun x =>
    let y := match x.lastVi with
      | some v => if v = vi then x else x.wipeStore
      | none => x
    { y.freshUnits with
      core := Core.atStart o.entryPc o.extra r o.group n s.deviceId, walker := Walker.load o.tileDesc r o.group,
      lastVi := some vi, grant := some { queue := q, op := i, rank := r, size := o.group } }
  if o.imageBytes = 0 || s1.holdsImage n o vi then s1
  else
    match s1.imageEngine n p with
    | some e => s1.loadImage q i n e p o vi
    | none => s1.onOp q i fun o => { o with copyFault := o.copyFault.or (some (0x04, 0)) }

/-- The candidate alcoves of a kernel of partition `p`, and the idle ones among them. -/
def State.kernelAlcoves (s : State) (p : Nat) (o : Operation) : List Nat := s.partAlcoves p o.halls

def State.idleAlcoves (s : State) (p : Nat) (o : Operation) : List Nat :=
  (s.kernelAlcoves p o).filter s.alcoveIdle

/-- Whether a kernel's image may be read by interface `v`. -/
def State.imageRefused (s : State) (v : Nat) (o : Operation) : Bool :=
  o.imageBytes != 0 && !(s.namesMemory o.image o.imageBytes && s.viMay v o.image o.imageBytes false)

/-- Whether the image waits for a retry or a hold of stacked memory. -/
def State.imageBlocked (s : State) (o : Operation) : Bool :=
  o.imageBytes != 0 && gaSpace o.image == spaceD && s.dBlocked (gaOffset o.image) o.imageBytes true

/-- Ranks of a kernel on some alcoves. -/
def ranksOn (ns : List Nat) : List Rank :=
  ns.map fun n => { alcove := n, loaded := true, reported := false, retired := false, saved := none, ended := false }

/-- R302: a kernel is granted its alcoves, and each rank is wiped, loaded and given its arguments. -/
def doKernelDispatch (q i : Nat) (s : State) : State :=
  match s.dispatchable q i typKernel with
  | some (w, o, p) =>
    if (s.kernelAlcoves p o).length < o.group then s.completeOp q i stResource 0x38
    else if (s.idleAlcoves p o).length < o.group then s
    else
      s.unlessTooFar w o q i fun s =>
        match (o.tileDesc.map TileDesc.ofBytes).bind TileDesc.check with
        | some off => s.completeOp q i stTileDescriptor off
        | none =>
          if s.imageRefused w.vi o then s.completeOp q i stCopyDescriptor 1
          else if s.imageBlocked o then s
          else
            let ns := (s.idleAlcoves p o).take o.group
            let s1 := s.withdrawClaims q i
            let s2 := s1.onOp q i fun o => { o with state := .dispatched, armed := o.timed, ranks := ranksOn ns }
            (ns.zipIdx).foldl (fun s x => s.prepareRank q i x.1 x.2 p o w.vi) s2
  | none => s

/-! ## Launch (R302, R42 to R46) -/

/-- The alcoves of an operation start to issue. -/
def State.startRanks (s : State) (o : Operation) : State :=
  o.ranks.foldl (fun s r => s.onAlcove r.alcove fun x => { x with core := { x.core with state := .running } }) s

/-- The replica by which an operation of a kind launches. -/
def State.launchIsland (s : State) (q i : Nat) (o : Operation) : Nat :=
  match o.typ with
  | 1 => 256 + ((o.ranks.head?.map (·.alcove)).getD 0)
  | 2 => 8 + o.word 0x40 1 / 8
  | 3 => 8 + o.word 0x40 1
  | 4 => 8 + o.word 0x24 1
  | _ => 8 + (s.queue q).elim i (·.hall)

/-- R302: an untimed kernel launches on every rank at once. -/
def doKernelLaunch (q i : Nat) (s : State) : State :=
  match s.op? q i with
  | some o =>
    if o.typ = typKernel && o.state = .dispatched && !o.timed then
      (s.startRanks o).launched q i (s.now (s.launchIsland q i o))
    else s
  | none => s

/-- Whether the engine of a timed operation is free for it (R43). -/
def State.engineReady (s : State) (q i : Nat) (o : Operation) : Bool :=
  if o.typ = typCopy then
    let x := s.engine (o.word 0x40 1)
    x.running.isNone && (x.queue.head?.map (·.origin)) == some (.operation q i)
  else true

/-- Whether a queue has a PAUSED operation. -/
def WorkQ.paused (w : WorkQ) : Bool :=
  match w.buffer with
  | some b => b.ops.any (·.state == .paused)
  | none => false

/-- What starts when a timed operation launches. -/
def State.startTimed (s : State) (q i : Nat) (o : Operation) : State :=
  match o.typ with
  | 1 => s.startRanks o
  | 2 =>
    let e := o.word 0x40 1
    let x := s.engine e
    s.setEngine e { x with queue := x.queue.map fun j => if j.origin == .operation q i then { j with launch := none } else j }
  | 3 =>
    match s.gather? (o.word 0x40 1), (s.queue q).bind s.queuePart with
    | some g, some p => s.runGather (o.word 0x40 1) p g
    | _, _ => s
  | 4 => s.annLaunch (o.word 0x24 1)
  | _ => s.onOp q i fun o => { o with engineDone := true }

/-- R42, R44, R46: an eligible timed operation launches once its island's replica has reached the launch tread. -/
def doTimedLaunch (q i : Nat) (s : State) : State :=
  match s.queue q, s.op? q i with
  | some w, some o =>
    let now := s.now (s.launchIsland q i o)
    if o.timed && o.state = .dispatched && !o.launched && !w.paused && s.engineReady q i o && o.launchTread ≤ now then
      let s1 := (s.launched q i now).startTimed q i o
      let s2 := if o.launchTread < now then
          (s1.onOp q i fun o => o.lateBy (now - o.launchTread)).addFld F.TIME_LATE_COUNT_LATE 1
        else s1
      if s.timeState = .locked then s2
      else (s2.onOp q i fun o => o.flag opUnaligned).timeEvent F.TIME_EVENT_UNALIGNED_LAUNCH
    else s
  | _, _ => s

/-! ## Pauses (R303 to R306) -/

/-- Bytes of a rank slot (R304). -/
def Operation.slotBytes (o : Operation) : Nat := 4096 + o.resBytes

/-- The first fit of `n` bytes in a save area of `size` bytes from `base`, given the used slots (R304). -/
def firstFit (base size n : Nat) (used : List (Nat × Nat)) : Option Nat :=
  let fits := fun (a : Nat) => a + n ≤ base + size && used.all fun u => a + n ≤ u.1 || u.1 + u.2 ≤ a
  ((base :: used.map fun u => u.1 + u.2).filter fits).min?

/-- Slots for some ranks of operation `i`; none when there is no room for all. -/
def WorkQ.takeSlots (w : WorkQ) (i n : Nat) : List Nat → Option WorkQ
  | [] => some w
  | r :: rest =>
    match firstFit (gaOffset w.saveBase) w.saveBytes n (w.slots.map fun x => (x.2.2.1, x.2.2.2)) with
    | some a => ({ w with slots := w.slots ++ [(i, r, a, n)] }).takeSlots i n rest
    | none => none

/-- The ranks of a running kernel that a pause must save. -/
def State.unsaved (s : State) (o : Operation) : List Nat :=
  (o.ranks.zipIdx.filter fun x => !(x.1.retired || x.1.reported || (s.alcove x.1.alcove).ended)).map (·.2)

/-- A running operation that a kernel of priority `prio` of partition `p` may claim from: its queue and itself. -/
def State.claimable (s : State) (prio p : Nat) : List (Nat × WorkQ × Operation) :=
  s.vst.queues.flatMap fun k =>
    match k.2 with
    | some w =>
      match w.buffer with
      | some b =>
        if w.prio < prio && s.queuePart w == some p then
          (b.ops.filter fun o => o.typ == typKernel && o.state == .running && o.pausable && !o.pauseWanted).map
            fun o => (k.1, w, o)
        else []
      | none => []
    | none => []

/-- The order in which victims are taken: lowest priority first, then the most recently launched (R303). -/
def victimBefore (a b : Nat × WorkQ × Operation) : Bool :=
  a.2.1.prio < b.2.1.prio || (a.2.1.prio == b.2.1.prio && b.2.2.launch ≤ a.2.2.launch)

/-- Puts a victim in its place in the order. -/
def insertVictim (a : Nat × WorkQ × Operation) : List (Nat × WorkQ × Operation) → List (Nat × WorkQ × Operation)
  | [] => [a]
  | b :: r => if victimBefore a b then a :: b :: r else b :: insertVictim a r

/-- Takes victims until `need` more alcoves of `cands` would be free: the state with their slots taken and the victims,
none when there are not enough. -/
def State.takeVictims (s : State) (cands : List Nat) : (need : Nat) → List (Nat × WorkQ × Operation) →
    Option (State × List (Nat × Nat))
  | 0, _ => some (s, [])
  | _ + 1, [] => none
  | k + 1, (q, _, o) :: rest =>
    let frees := (o.ranks.filter fun r => cands.contains r.alcove && !r.retired).length
    let got := if frees = 0 then none else (s.queue q).bind fun w => w.takeSlots o.idx o.slotBytes (s.unsaved o)
    match got with
    | some w =>
      match (s.setQueue q w).takeVictims cands (k + 1 - frees) rest with
      | some (s1, vs) => some (s1, (q, o.idx) :: vs)
      | none => none
    | none => s.takeVictims cands (k + 1) rest

/-- Asks every rank of an operation to pause. -/
def State.askPause (s : State) (q i : Nat) : State :=
  match s.op? q i with
  | some o =>
    (s.unsaved o).foldl (fun s r =>
      match o.ranks[r]? with
      | some x => s.onAlcove x.alcove fun y => { y with pausePending := true }
      | none => s) (s.onOp q i fun o => { o with pauseWanted := true })
  | none => s

/-- Whether a kernel may claim now: READY, and timed at most PAUSE_LEAD_US ahead (R303). -/
def State.mayClaim (s : State) (w : WorkQ) (o : Operation) : Bool :=
  (o.state == .ready || o.state == .paused) &&
    (!o.timed || o.launched || o.launchTread ≤ s.now (8 + w.hall) + 1000 * w.pauseLeadUs)

/-- R303: a kernel claims alcoves of lower-priority pausable kernels. -/
def doPauseClaim (q i : Nat) (s : State) : State :=
  match s.queue q, s.op? q i with
  | some w, some o =>
    match s.queuePart w with
    | some p =>
      let cands := s.kernelAlcoves p o
      let idle := (s.idleAlcoves p o).length
      if w.state = .active && !w.ringFull && o.typ = typKernel && s.mayClaim w o && !s.outranked q i (o.need p) &&
          o.group ≤ cands.length && idle < o.group && !(s.vst.claims.any fun c => c.queue == q && c.op == i) then
        match s.takeVictims cands (o.group - idle) ((s.claimable w.prio p).foldr insertVictim []) with
        | some (s1, vs) =>
          let s2 := vs.foldl (fun s v => s.askPause v.1 v.2) s1
          s2.onVst fun v => { v with claims := v.claims ++ [{ queue := q, op := i, victims := vs }] }
        | none => s
      else s
    | none => s
  | _, _ => s

/-- The first 4 KiB of a rank slot (R305). -/
def slotState (x : Alcove) : List Nat :=
  let c := x.core
  let gs := (List.range 64).map fun i => tget .zero c.g i
  let as := (List.range 16).map fun i => tget AddrReg.zero c.a i
  let ps := (List.range 16).map fun i => tget .zero c.p i
  let calls := c.calls.reverse
  padBytes 4096
    (toBytes 2 c.pc ++ [x.modeIssued.code, calls.length] ++ toBytes 2 x.streamSeq ++ toBytes 2 x.copySeq ++
      toBytes 4 x.walker.next ++ toBytes 4 x.walker.done ++
      ((List.range 4).flatMap fun i => toBytes 4 (tget 0 c.lc i).toNat) ++
      ((List.range 16).flatMap fun i => toBytes 2 (calls.getD i 0)) ++
      toBytes 8 c.round.toNat ++ toBytes 8 c.sat.toNat ++ toBytes 8 c.fstat.toNat ++ toBytes 8 c.rngSeed.toNat ++
      toBytes 8 c.rngPos.toNat ++ zeros 24 ++
      (gs.flatMap fun g => toBytes 8 g.val.toNat) ++
      (as.flatMap fun a => toBytes 3 a.addr.toNat ++ toBytes 3 a.stride.toNat ++ toBytes 3 a.low.toNat ++ toBytes 3 a.high.toNat) ++
      (ps.flatMap fun p => toBytes 64 p.bits.toNat) ++
      toBytes 8 (leNat ((List.range 8).map fun j =>
        (List.range 8).foldl (fun m k => if (gs.getD (8 * j + k) .zero).poison then setBit m k else m) 0)) ++
      toBytes 2 ((List.range 16).foldl (fun m k => if (ps.getD k .zero).poison then setBit m k else m) 0))

/-- Whether every rank of an operation is saved, has reported or is retired. -/
def Operation.allSaved (o : Operation) : Bool := o.ranks.all fun r => r.saved.isSome || r.reported || r.retired

/-- The operation is PAUSED once every rank is saved, and its alcoves are free (R304). -/
def State.maybePaused (s : State) (q i : Nat) : State :=
  match s.op? q i with
  | some o =>
    if o.state = .running && o.pauseWanted && o.allSaved && o.ranks.any (·.saved.isSome) then
      ((s.freeAlcoves q i).onOp q i fun o => { o with
        state := .paused, pauseWanted := false, pauses := o.pauses + 1 }).dropVictim q i
    else s
  | none => s

/-- R304: alcove `n`, which has handed over its state, is saved into its slot. -/
def doRankSaved (n : Nat) (s : State) : State :=
  let x := s.alcove n
  match x.grant with
  | some g =>
    match s.queue g.queue, s.op? g.queue g.op with
    | some w, some o =>
      match w.slots.find? fun y => y.1 == g.op && y.2.1 == g.rank with
      | some (_, _, at_, _) =>
        if x.saving then
          let s1 := s.writeDAll at_ (slotState x)
          let r := s1.readS n o.resBase o.resBytes
          let s2 := r.st.writeDAll (at_ + 4096) r.data (partMask r.marks)
          let s3 := (s2.onAlcove n fun y => { y with saving := false, core := { y.core with state := .idle } }).onOp
            g.queue g.op fun o => { o with
              ranks := o.ranks.mapIdx fun k y => if k = g.rank then { y with saved := some at_ } else y }
          s3.maybePaused g.queue g.op
        else s
      | none => s
    | _, _ => s
  | none => s

/-- An alcove's core and engines as a rank slot holds them (R305, R175). -/
def Alcove.restore (x : Alcove) (d : List Nat) (o : Operation) (r : Nat) : Alcove :=
  let depth := min 16 (byteAt d 3)
  let gp := field d 0x740 8
  let pp := field d 0x748 2
  let w := Walker.load o.tileDesc r o.group
  let next := field d 8 4
  let core : Core := { Core.reset with
    state := .running, pc := field d 0 2,
    calls := ((List.range depth).map fun i => field d (0x20 + 2 * i) 2).reverse,
    lc := (List.range 4).foldl (fun t i => tset 0 t i (BitVec.ofNat 32 (field d (0x10 + 4 * i) 4))) [],
    round := BitVec.ofNat 64 (field d 0x40 8), sat := BitVec.ofNat 64 (field d 0x48 8),
    fstat := BitVec.ofNat 64 (field d 0x50 8), rngSeed := BitVec.ofNat 64 (field d 0x58 8),
    rngPos := BitVec.ofNat 64 (field d 0x60 8),
    g := (List.range 64).foldl (fun t i =>
      tset .zero t i { val := BitVec.ofNat 64 (field d (0x80 + 8 * i) 8), poison := bit gp i == 1 }) [],
    a := (List.range 16).foldl (fun t i =>
      let f := fun k => BitVec.ofNat 24 (field d (0x280 + 12 * i + 3 * k) 3)
      tset AddrReg.zero t i { addr := f 0, stride := f 1, low := f 2, high := f 3 }) [],
    p := (List.range 16).foldl (fun t i =>
      tset .zero t i { bits := BitVec.ofNat 512 (field d (0x340 + 64 * i) 64), poison := bit pp i == 1 }) [] }
  { x.freshUnits with
    core := core, modeIssued := Gang.ofCode (byteAt d 2), mode := Gang.ofCode (byteAt d 2),
    streamSeq := field d 4 2, copySeq := field d 6 2,
    walker := { w with next := next, done := field d 0xC 4, queued := min 4 (w.share - next) } }

/-- Restores rank `r` of an operation, saved at device offset `at_`, on alcove `n` (R306). -/
def State.restoreRank (s : State) (q i n r at_ p : Nat) (o : Operation) (vi : Nat) : State :=
  let s1 := s.prepareRank q i n r p o vi
  let h := s1.readD at_ 4096
  let b := h.st.readD (at_ + 4096) o.resBytes
  let s2 := b.st.onAlcove n fun x => x.restore h.data o r
  s2.writeS n o.resBase b.data b.marks

/-- R306: a paused operation is granted alcoves, restored and goes on. -/
def doOperationResume (q i : Nat) (s : State) : State :=
  match s.queue q, s.op? q i with
  | some w, some o =>
    match s.queuePart w with
    | some p =>
      if w.state = .active && !w.ringFull && o.state = .paused && !s.partInvals p && !s.outranked q i (o.need p) then
        if (s.kernelAlcoves p o).length < o.group then s.completeOp q i stResource 0x38
        else if (s.idleAlcoves p o).length < o.group || s.imageBlocked o then s
        else
          let ns := (s.idleAlcoves p o).take o.group
          let s1 := (s.withdrawClaims q i).onOp q i fun o => { o with
            state := .running, ranks := List.zipWith (fun (r : Rank) n => { r with alcove := n, saved := none }) o.ranks ns }
          let s2 := ((o.ranks.zip ns).zipIdx).foldl (fun s x =>
            match x.1.1.saved with
            | some at_ => s.restoreRank q i x.1.2 x.2 at_ p o w.vi
            | none => s) s1
          s2.freeSlots q i
      else s
    | none => s
  | _, _ => s

end Sys2Proof.Machine
end

