-- ==== Sys2Proof/Machine/Vst.lean ====
section
/-! DEFINITION. The vestibule's other operations (R301, R308, R309, R313, R314): copies, annealers, pools, timeouts and
completion. -/

namespace Sys2Proof.Machine

/-! ## Dispatch -/

/-- The copy request of an operation. -/
def Operation.request (o : Operation) : CopyReq :=
  { w0 := o.word 0x20 8, w1 := o.word 0x28 8, w2 := o.word 0x30 8, w3 := o.word 0x38 8 }

/-- R301: a COPY takes a queue place on its engine after its descriptor check. -/
def doCopyDispatch (q i : Nat) (s : State) : State :=
  match s.dispatchable q i typCopy with
  | some (w, o, p) =>
    let e := o.word 0x40 1
    if (s.engine e).retired || s.halfPart (engineHalf e) != some p then s.completeOp q i stResource 0x40
    else if 32 ≤ (s.engine e).depth then s
    else
      s.unlessTooFar w o q i fun s =>
        match s.copyFails w.vi o.request with
        | some n => s.completeOp q i stCopyDescriptor n
        | none =>
          let s1 := (s.abortScan (channelId 6 e)).onOp q i fun o => { o with state := .dispatched, armed := o.timed }
          (s1.queueCopy e o.request (.operation q i) w.vi (if o.timed then some o.launchTread else none)).1
  | none => s

/-- R263: an ANNEAL takes its hall's annealer after its descriptor check. An untimed one launches at once. -/
def doAnnealDispatch (q i : Nat) (s : State) : State :=
  match s.dispatchable q i typAnneal with
  | some (w, o, p) =>
    let h := o.word 0x24 1
    if !s.inHall p h || s.retired (channelId 8 h) then s.completeOp q i stResource 0x24
    else if s.annealerPart h != some p then s.completeOp q i stAnnealDescriptor 0x140
    else if (s.annRun h).isSome || s.fld F.ANN_CTRL_HOLD h = 1 then s
    else
      s.unlessTooFar w o q i fun s =>
        match s.annealFails h w.vi o.extra with
        | some off => s.completeOp q i stAnnealDescriptor off
        | none =>
          let s1 := ((s.abortScan (channelId 8 h)).onOp q i fun o => { o with
            state := .dispatched, armed := o.timed }).setAnn h (some (AnnRun.fresh q i w.vi o.extra))
          if o.timed then s1 else (s1.launched q i (s1.now (8 + h))).annLaunch h
  | none => s

/-- R297: a NOP acts only through its lists. A timed one waits for its launch tread. -/
def doNopOperation (q i : Nat) (s : State) : State :=
  match s.dispatchable q i typNop with
  | some (w, o, _) =>
    s.unlessTooFar w o q i fun s =>
      if o.timed then s.onOp q i fun o => { o with state := .dispatched, armed := true }
      else (s.launched q i (s.now (8 + w.hall))).onOp q i fun o => { o with engineDone := true }
  | none => s

/-! ## Pools (R313, R314) -/

def State.pool (s : State) (p : Nat) : Pool := tget .reset s.vst.pools p

def State.setPool (s : State) (p : Nat) (x : Pool) : State :=
  s.onVst fun v => { v with pools := tset .reset v.pools p x }

/-- Whether a list of an operation lies in what virtual interface `v` may reach (log 45). -/
def State.listMay (s : State) (v ga len : Nat) (write : Bool) : Bool :=
  (gaSpace ga == spaceD || gaSpace ga == spaceG) && s.namesMemory ga len && s.viMay v ga len write

/-- The failing offset of a pool operation at dispatch. -/
def State.poolRefused (s : State) (v : Nat) (o : Operation) (write : Bool) : Option Nat :=
  let p := s.pool (o.word 0x20 1)
  if !p.valid || !p.granted.contains v then some 0x20
  else if !s.listMay v (o.word 0x28 8) (8 * o.word 0x24 4) write then some 0x28
  else none

/-- Whether memory of a pool or a list waits for a retry or a hold. -/
def State.poolBlocked (s : State) (p : Pool) (o : Operation) : Bool :=
  s.dBlocked p.tags (2 * p.count) true || s.dBlocked p.stack (4 * p.count) true ||
    (gaSpace (o.word 0x28 8) == spaceD && s.dBlocked (gaOffset (o.word 0x28 8)) (8 * o.word 0x24 4) true)

/-- Reads a list in D-space or G-space. -/
def State.readList (s : State) (ga len : Nat) : DRead :=
  if gaSpace ga = spaceD then s.readD (gaOffset ga) len else s.readG (gByte (gaOffset ga)) len

/-- Writes a list in D-space or G-space. -/
def State.writeList (s : State) (ga : Nat) (bytes : List Nat) : State :=
  if gaSpace ga = spaceD then s.writeDAll (gaOffset ga) bytes
  else s.writeG (gByte (gaOffset ga)) bytes (bytes.map fun _ => false)

/-- A tag of a block (R313). -/
def poolTag (vi ring : Nat) : Nat := 2 ^ 15 + vi * 16 + ring

/-- An operation of the vestibule itself is done, with a status. -/
def State.vestibuleDone (s : State) (q i status detail : Nat) : State :=
  (s.launched q i (s.homeNow q)).onOp q i fun o => { o with engineDone := true, status := status, detail := detail }

/-- R314: POOL_ALLOC pops its blocks and writes their addresses, all or none. -/
def doPoolAlloc (q i : Nat) (s : State) : State :=
  match s.dispatchable q i typAlloc with
  | some (w, o, _) =>
    let k := o.word 0x20 1
    let p := s.pool k
    let n := o.word 0x24 4
    match s.poolRefused w.vi o true with
    | some off => s.completeOp q i stOpInvalid (i * 2 ^ 16 + off)
    | none =>
      if s.poolBlocked p o then s
      else if p.free < n then s.vestibuleDone q i stPoolEmpty p.free
      else
        let r := s.readD (p.stack + 4 * (p.free - n)) (4 * n)
        let blocks := ((List.range n).map fun j => field r.data (4 * j) 4).reverse
        let list := blocks.flatMap fun b => toBytes 8 (gaMake s.deviceId spaceD (p.base + b * 2 ^ p.blockLog2))
        let s1 := blocks.foldl (fun (s : State) b => s.writeDAll (p.tags + 2 * b) (toBytes 2 (poolTag w.vi w.ring)))
          (r.st.setPool k { p with free := p.free - n })
        ((s1.writeList (o.word 0x28 8) list).vestibuleDone q i stSuccess 0).onOp q i fun o => o.met false r.cause none
  | none => s

/-- What freeing has met so far: the state and the first reporting status with its index. -/
structure Freeing where
  st : State
  first : Option (Nat × Nat)
  /-- index of an entry that is no block -/
  bad : Option Nat

/-- Frees entry `j` of a list, address `ga` (R314). -/
def Freeing.entry (x : Freeing) (k : Nat) (w : WorkQ) (j ga : Nat) : Freeing :=
  if x.bad.isSome then x
  else
    let s := x.st
    let p := s.pool k
    let off := gaOffset ga
    let size := 2 ^ p.blockLog2
    if gaSpace ga != spaceD || gaDevice ga != s.deviceId || off < p.base || p.base + p.count * size ≤ off ||
        (off - p.base) % size != 0 then
      { x with bad := some j }
    else
      let b := (off - p.base) / size
      let t := s.readD (p.tags + 2 * b) 2
      let tag := field t.data 0 2
      if bit tag 15 = 0 then
        { x with st := t.st.addFld F.POOL_ERRORS_DOUBLE_FREE 1 k, first := x.first.or (some (stDoubleFree, j)) }
      else if bits tag 11 4 != w.vi then
        { x with
          st := (t.st.addFld F.POOL_ERRORS_NOT_OWNER 1 k).raiseLog F.POOL_LOG_VALID F.POOL_LOG_OVERRUN 99 k 0
            [(F.POOL_LOG_FREER, w.vi), (F.POOL_LOG_OWNER, bits tag 11 4), (F.POOL_LOG_BLOCK_BLOCK, b)],
          first := x.first.or (some (stNotOwner, j)) }
      else
        { x with
          st := ((t.st.writeDAll (p.tags + 2 * b) [0, 0]).writeDAll (p.stack + 4 * p.free) (toBytes 4 b)).setPool k
            { p with free := p.free + 1 } }

/-- R314: POOL_FREE frees the blocks of its list. -/
def doPoolFree (q i : Nat) (s : State) : State :=
  match s.dispatchable q i typFree with
  | some (w, o, _) =>
    let k := o.word 0x20 1
    let n := o.word 0x24 4
    match s.poolRefused w.vi o false with
    | some off => s.completeOp q i stOpInvalid (i * 2 ^ 16 + off)
    | none =>
      if s.poolBlocked (s.pool k) o then s
      else
        let r := s.readList (o.word 0x28 8) (8 * n)
        let x := (List.range n).foldl (fun (x : Freeing) j => x.entry k w j (field r.data (8 * j) 8))
          ({ st := r.st, first := none, bad := none } : Freeing)
        let (status, detail) := match x.bad, x.first with
          | some j, _ => (stPoolAddress, j)
          | none, some f => f
          | none, none => (stSuccess, 0)
        (x.st.vestibuleDone q i status detail).onOp q i fun o => o.met false r.cause r.region
  | none => s

/-! ## Timeouts (R307, R308) -/

/-- The RAS record of a timeout: rooted in the operation's cause slot, or its own root (R308, R431). -/
def State.timeoutRecord (s : State) (q i : Nat) (w : WorkQ) (o : Operation) (mark : Mark := .natural) : State :=
  let (s1, id) := s.record { RasRecord.blank with
    kind := kindTimeout, detector := 0x16, rootId := o.cause, partition := (s.queuePart w).getD 0xFF, vi := w.vi,
    queue := q, opIndex := i, flags := if mark.injected then flagInjected else 0 }
  s1.onOp q i fun o => if o.cause = 0 then { o.flag opRoot with ras := id } else { o with ras := o.cause }

/-- Whether a clock of an operation has expired: it has reached the limit, or a shot of row 0x16 meets its entry
into the clock (R468). The state after a shot, and its mark. -/
def State.clockExpired (s : State) (q which clock limit : Nat) : Option (State × Mark) :=
  if limit ≤ clock then some (s, .natural)
  else if clock = 0 then (s.shoot 0x16 q fun p => bit p 0 == which).map fun r => (r.1, r.2.2.2)
  else none

/-- R308: an expired wait clock ends an operation. -/
def doWaitClockExpire (q i : Nat) (s : State) : State :=
  match s.queue q, s.op? q i with
  | some w, some o =>
    if o.state = .waitSync && !o.held && (!o.timed || o.launchTread ≤ s.now (8 + w.hall)) then
      match s.clockExpired q 0 o.waitClock (w.timeoutUs * 1000) with
      | some (s1, m) => (s1.timeoutRecord q i w o m).completeOp q i stTimeout 0
      | none => s
    else s
  | _, _ => s

/-- The alcoves of an operation stop and drain (R308). -/
def State.drainRanks (s : State) (q i : Nat) (o : Operation) : State :=
  (o.ranks.filter fun r => !r.retired && !r.reported && r.saved.isNone).foldl (fun s r =>
    s.onAlcove r.alcove fun x =>
      if x.core.state == .faulted || x.ended then x
      else { x with
        core := { x.core with state := .draining, wait := none, granted := false },
        streams := x.streams.map fun t => { t with closed := true }, pausePending := false })
    (s.cancelParties fun p => match p with
      | .alcove n => o.ranks.any fun r => r.alcove == n
      | .operation a b => a == q && b == i
      | _ => false)

/-- The engines of a running operation stop (R308, R436); `m` marks the timeout's record. -/
def State.runExpired (s : State) (q i : Nat) (w : WorkQ) (o : Operation) (m : Mark) : State :=
  if o.typ = typKernel then
    let s1 := s.drainRanks q i o
    if 0 < o.retiredCount then s1.onOp q i fun o => { o with status := stPartial }
    else (s1.timeoutRecord q i w o m).onOp q i fun o => { o with status := stTimeout }
  else
    let s1 := match o.typ, s.annRun (o.word 0x24 1) with
      | 4, some x => s.annFinish (o.word 0x24 1) x
      | _, _ => s
    (s1.timeoutRecord q i w o m).completeOp q i stTimeout 1

/-- R308, R436: an expired run clock stops an operation's engines. -/
def doRunClockExpire (q i : Nat) (s : State) : State :=
  match s.queue q, s.op? q i with
  | some w, some o =>
    if o.state = .running && o.launched && !o.engineDone && o.status = 0 then
      match s.clockExpired q 1 o.runClock (w.timeoutUs * 1000) with
      | some (s1, m) => s1.runExpired q i w o m
      | none => s
    else s
  | _, _ => s

/-! ## Completion (R309) -/

/-- Whether an operation's engines have finished. -/
def Operation.finished (o : Operation) : Bool :=
  if o.typ = typKernel then
    o.state == .running && o.ranks.all fun r => r.reported || r.retired || (r.saved.isSome && o.status != 0)
  else o.state == .running && o.engineDone

/-- Whether a shadow alcove still compares or tests a tile of an operation (R452). -/
def State.shadowBusy (s : State) (q i : Nat) : Bool :=
  s.sdc.shadows.any fun p =>
    (p.2.state == .shadowing || (p.2.state == .selfTest && p.2.judging)) && p.2.queue == q && p.2.op == i

/-- The final status and detail of an operation (R312, R335, R436), with the FAULT word of a copy's failure. -/
def Operation.final (o : Operation) : Nat × Nat :=
  if o.status = stKernelFault then (stKernelFault, 0)
  else if o.status = stPartial || 0 < o.retiredCount then (stPartial, o.retiredCount)
  else if o.status = stTimeout then (stTimeout, 1)
  else if stopsQueue o.status then (o.status, o.detail)
  else if o.copyFault.isSome then (stCopyFault, 0)
  else
    match o.sharedPoison with
    | some r => (stPoisonShared, r)
    | none => (o.status, o.detail)

/-- FAULT of a failed copy (R311). -/
def copyFaultWord (f : Nat × Nat) : Nat := f.1 * 2 ^ 24 + f.2 % 2 ^ 16

/-- R309: an operation whose engines have finished completes. -/
def doOperationComplete (q i : Nat) (s : State) : State :=
  match s.op? q i with
  | some o =>
    if o.finished && !s.shadowBusy q i then
      let (status, detail) := o.final
      let s1 := match status, o.copyFault with
        | 0x03, some f => s.onOp q i fun o => { o with fault := copyFaultWord f }
        | _, _ => s
      let s2 := if status = stPoisonShared then
          match s1.part.regions.find? (·.num == detail) with
          | some r => s1.onOp q i fun o => { o with ras := r.record }
          | none => s1
        else s1
      s2.completeOp q i status detail
    else s
  | none => s

/-- R310: the head record of a full completion ring is read again, and what waits is written. `head` is what a ring in
host memory answers. -/
def doCompletionRingHeadRead (q head : Nat) (s : State) : State :=
  match s.queue q with
  | some w =>
    if !w.ringFull then s
    else
      let at_ := (if w.cqHost then w.cqBase else gaOffset w.cqBase) + 64 * 2 ^ w.cqLog2
      if w.cqHost then
        match s.hostAccess w.vi at_ with
        | (s1, some (k, mark)) => s1.failQueue q k mark
        | (s1, none) => (s1.setQueue q { w with cqHead := head % 2 ^ 32 }).flush q
      else if s.dBlocked at_ 8 true then s
      else
        let r := s.readD at_ 8
        (r.st.onQueue q fun w => { w with cqHead := field r.data 0 4 }).flush q
  | none => s

/-- R197: an invalidation finishes, and operations that waited for it go on. -/
def doInvalidationDone (i : Nat) (s : State) : State := (doRangeInvalidationDone i s).advanceAll

/-! ## Clocks (R307) -/

/-- Whether a resend, a replay or a retry holds up the operation's own traffic (R307; log 46). -/
def State.clocksFrozen (s : State) (q i : Nat) : Bool :=
  let mine := fun (j : CopyJob) => match j.origin with
    | .operation a b => a == q && b == i
    | .alcove n _ => match (s.alcove n).grant with
      | some g => g.queue == q && g.op == i
      | none => false
  s.mem.engines.any fun p =>
    match p.2.running with
    | some j => mine j && (s.sourceBlocked j || s.mem.unanswered.any fun u =>
        u.copy == some j.id &&
          (u.firstResend.isSome || s.clz.ports.any fun x => x.2.unacked.any fun f => f.firstResend.isSome))
    | none => false

/-- One tread on an operation's clocks. -/
def State.opClocks (s : State) (q : Nat) (w : WorkQ) (o : Operation) : Operation :=
  if o.state = .waitSync && !o.held && (!o.timed || o.launchTread ≤ s.now (8 + w.hall)) && !s.clocksFrozen q o.idx then
    { o with waitClock := o.waitClock + 1 }
  else if o.state = .running && o.launched && !s.pauseBegun o && !s.clocksFrozen q o.idx then
    { o with runClock := o.runClock + 1 }
  else o

/-- A tick without a command (log 1): one tread of the local reference passes, and the timeout clocks run. -/
def State.tickOn (s : State) : State :=
  let s1 := s.onVst fun v => { v with
    queues := v.queues.map fun p => (p.1, p.2.map fun w => { w with
      buffer := w.buffer.map fun b => { b with ops := b.ops.map (s.opClocks p.1 w) } }) }
  s1.onTime fun t => { t with tick := t.tick + 1 }

end Sys2Proof.Machine
end

