-- ==== Sys2Proof/Machine/Admin.lean ====
section
/-! DEFINITION. The admin queue of each virtual interface (R285 to R292) and its commands (R288 to R290, R315, R321 to
R340, R223, R224, R484). -/

namespace Sys2Proof.Machine

/-! ## The queue (R285) -/

def State.adminQ (s : State) (v : Nat) : AdminQ := tget .reset s.vst.admin v

/-- Changes the admin queue of `v`. -/
def State.onAdmin (s : State) (v : Nat) (f : AdminQ → AdminQ) : State :=
  s.onVst fun x => { x with admin := tset .reset x.admin v (f (tget .reset x.admin v)) }

/-- A ring size field with the limits of R316. -/
def ringLog (n : Nat) : Nat := max 4 (min 12 n)

def State.sqLog (s : State) (v : Nat) : Nat := ringLog (s.fld F.VST_ADMIN_CTRL_SQ_LOG2 v)
def State.cqLog (s : State) (v : Nat) : Nat := ringLog (s.fld F.VST_ADMIN_CTRL_CQ_LOG2 v)

/-- Base of the admin completion ring. -/
def State.adminCq (s : State) (v : Nat) : Nat := s.reg .VST_ADMIN_CQ_HI v * 2 ^ 32 + s.reg .VST_ADMIN_CQ_LO v

/-- Whether the admin queue runs. -/
def State.adminRuns (s : State) (v : Nat) : Bool :=
  s.inService && s.viEnabled v && !s.part.resetting.contains v && s.fld F.VST_ADMIN_CTRL_ENABLE v == 1 &&
    !(s.adminQ v).stopped

/-- The admin queue stops on a malformed record or a failed access (R410). -/
def State.adminStop (s : State) (v : Nat) : State := s.onAdmin v fun a => { a with stopped := true }

/-- Accesses host memory for the admin queue; a failure is logged with its row of R410's table. -/
def State.adminAccess (s : State) (v access addr : Nat) : State × Bool :=
  match s.hostAccess v addr with
  | (s1, some (k, _)) => (s1.hostErr k access 0 v, false)
  | (s1, none) => (s1, true)

/-- An admin completion entry (R285). -/
def adminEntry (cid status phase detail result : Nat) : List Nat :=
  toBytes 2 cid ++ [status, phase] ++ toBytes 4 detail ++ toBytes 8 result

/-- Writes a completion entry, or keeps it while the ring is full; a message follows it (R285, R357, R410). -/
def State.adminWrite (s : State) (v : Nat) (e : Nat × Nat × Nat × Nat) : State :=
  let a := s.adminQ v
  let size := 2 ^ s.cqLog v
  if size ≤ (a.written + 2 ^ 32 - a.head) % 2 ^ 32 then s.onAdmin v fun a => { a with stalled := some e }
  else
    let at_ := s.adminCq v + 16 * (a.written % size)
    match s.adminAccess v 1 at_ with
    | (s1, false) => (s1.onAdmin v fun a => { a with stalled := none }).adminStop v
    | (s1, true) =>
      let bytes := adminEntry e.1 e.2.1 (1 - a.written / size % 2) e.2.2.1 e.2.2.2
      let s2 := s1.onAdmin v fun a => { a with written := (a.written + 1) % 2 ^ 32, stalled := none }
      (s2.hostWrite v at_ bytes).completionMessage v (s.fld F.VST_ADMIN_CTRL_MSIX v)

/-- Completes the current command. -/
def State.adminDone (s : State) (v status detail result : Nat) : State :=
  let cid := match (s.adminQ v).current with
    | some e => field e 2 2
    | none => 0
  (s.onAdmin v fun a => { a with current := none, wait := none }).adminWrite v
    (cid, status, detail % 2 ^ 32, result % 2 ^ 64)

/-! ## Admin statuses (R287, R331) -/

def adInvalid : Nat := 0x01
def adNotPermitted : Nat := 0x02
def adQueueLimit : Nat := 0x03
def adQueueUnknown : Nat := 0x04
def adUntested : Nat := 0x07
def adSyncBusy : Nat := 0x30
def adSyncNoSpace : Nat := 0x31
def adSyncBadConfig : Nat := 0x32
def adRetireFull : Nat := 0x40
def adPoolBusy : Nat := 0x50
def adUnbound : Nat := 0x60
def adBusy : Nat := 0x61
def adNoSpace : Nat := 0x62
def adRegionInUse : Nat := 0x63
def adRegionPoisoned : Nat := 0x64
def adProfileInvalid : Nat := 0x65
def adAllocUnknown : Nat := 0x66

/-- Completes the current command as a field out of range. -/
def State.adminBad (s : State) (v off : Nat) : State := s.adminDone v adInvalid off 0

/-- The opcodes of R286, and whether only VI0 may issue them. -/
def adminOpcodes : List (Nat × Bool) :=
  [(0x01, false), (0x02, false), (0x03, false), (0x04, false), (0x10, false), (0x11, false), (0x12, true),
   (0x13, true), (0x14, true), (0x20, false), (0x21, true), (0x22, false), (0x30, true), (0x31, true), (0x32, true),
   (0x40, true)]

/-- Runs the current command of `v` if its opcode is `op`, after the checks that every command meets: restricted mode,
the issuer, binding, and the zero bytes of the header (R285 to R287, R321, R483). -/
def State.admin (s : State) (v op : Nat) (run : List Nat → State → State) : State :=
  match (s.adminQ v).current, (s.adminQ v).wait with
  | some e, none =>
    let pf := (op, true) ∈ adminOpcodes
    if byteAt e 0 != op then s
    else if s.boot.restricted && op != 0x20 && op != 0x40 then s.adminDone v adUntested 0 0
    else if pf && v != 0 then s.adminDone v adNotPermitted 0 0
    else if (s.viPart v).isNone && op != 0x20 then s.adminDone v adUnbound 0 0
    else if byteAt e 1 != 0 then s.adminBad v 1
    else if field e 4 4 != 0 then s.adminBad v 4
    else run e s
  | _, _ => s

/-! ## Notification (R291, R292) -/

/-- A doorbell record is read: its tail, or a stop when it names more entries than the ring has. -/
def State.doorbellRecord (s : State) (v : Nat) (record : Nat) : State :=
  if !s.adminRuns v then s
  else
    match s.adminAccess v 0 (s.reg .VST_DB_RECORD_HI v * 2 ^ 32 + s.reg .VST_DB_RECORD_LO v) with
    | (s1, false) => s1.adminStop v
    | (s1, true) =>
      let tail := record % 2 ^ 32
      if 2 ^ s.sqLog v < (tail + 2 ^ 32 - (s.adminQ v).consumed) % 2 ^ 32 then s1.adminStop v
      else s1.onAdmin v fun a => { a with tail := tail }

/-- A doorbell write that names nothing (R291). -/
def State.dropDoorbell (s : State) : State :=
  (s.addFld F.VST_DB_DROPPED_COUNT 1).raise F.VST_EVENT_DB_BAD 98

/-- Marks a work ring for a read of its tail record. -/
def State.notifyRing (s : State) (q : Nat) : State := s.onQueue q fun w => { w with notified := true }

/-- R291: a doorbell write in the page of `v`; `record` is what a read of the doorbell record returns. -/
def doDoorbellWrite (v offset size value record : Nat) (s : State) : State :=
  if offset != 0 || size != 4 then s.dropDoorbell
  else if value = 0x100 then
    if s.viEnabled v && s.fld F.VST_ADMIN_CTRL_ENABLE v = 1 then s.doorbellRecord v record else s.dropDoorbell
  else if value < 16 then
    match s.ringQueue v value with
    | some q => s.notifyRing q
    | none => s.dropDoorbell
  else s.dropDoorbell

/-- R291: in polled mode the doorbell record and every tail record of `v` are read again. -/
def doNotifyPoll (v record : Nat) (s : State) : State :=
  if s.fld F.VST_ADMIN_CTRL_POLLED v = 1 then
    let s1 := s.doorbellRecord v record
    s1.vst.queues.foldl (fun s p => match p.2 with
      | some w => if w.vi = v then s.notifyRing p.1 else s
      | none => s) (s1.onAdmin v fun a => { a with polled := s.time.tick })
  else s

/-- R285: the next submission entry is read; `entry` is what host memory returns. -/
def doAdminCommandFetch (v : Nat) (entry : List Nat) (s : State) : State :=
  let a := s.adminQ v
  if s.adminRuns v && a.current.isNone && a.wait.isNone && a.stalled.isNone && a.consumed != a.tail then
    match s.adminAccess v 0 (s.reg .VST_ADMIN_SQ_HI v * 2 ^ 32 + s.reg .VST_ADMIN_SQ_LO v +
        64 * (a.consumed % 2 ^ s.sqLog v)) with
    | (s1, false) => s1.adminStop v
    | (s1, true) => s1.onAdmin v fun a => { a with
        consumed := (a.consumed + 1) % 2 ^ 32, current := some ((padBytes 64 entry).map (· % 256)) }
  else s

/-- R285: the head record of a full completion ring is read again. -/
def doAdminRingFullPoll (v head : Nat) (s : State) : State :=
  match (s.adminQ v).stalled with
  | some e =>
    if !s.adminRuns v then s
    else
      match s.adminAccess v 0 (s.adminCq v + 16 * 2 ^ s.cqLog v) with
      | (s1, false) => s1.adminStop v
      | (s1, true) => (s1.onAdmin v fun a => { a with head := head % 2 ^ 32 }).adminWrite v e
  | none => s

/-- R286: a reserved opcode. -/
def doAdminReservedOpcode (v : Nat) (s : State) : State :=
  match (s.adminQ v).current, (s.adminQ v).wait with
  | some e, none =>
    if adminOpcodes.any fun x => x.1 == byteAt e 0 then s
    else if s.boot.restricted then s.adminDone v adUntested 0 0
    else if (s.viPart v).isNone then s.adminDone v adUnbound 0 0
    else s.adminBad v 0
  | _, _ => s

/-! ## Queues (R288, R289) -/

/-- Queue numbers of virtual interface `v`. -/
def State.queuesOf (s : State) (v : Nat) : List Nat :=
  (s.vst.queues.filter fun p => match p.2 with
    | some w => w.vi == v
    | none => false).map (·.1)

/-- A D-space range of the own device, aligned, inside the allocations of `v`. -/
def State.ownRange (s : State) (v ga len align : Nat) (write : Bool) : Bool :=
  gaSpace ga == spaceD && gaDevice ga == s.deviceId && ga % align == 0 && s.namesMemory ga len &&
    s.viMay v ga len write

/-- The failing offset of a CREATE_QUEUE of `v` in partition `p`. -/
def State.createFails (s : State) (v p : Nat) (e : List Nat) : Option Nat :=
  let hall := byteAt e 0x0A
  let cqLog := byteAt e 0x28
  let msix := field e 0x2A 2
  let tq := field e 0x2E 2
  let bytes := field e 0x38 8
  firstFail [
    (byteAt e 8 < 16 && (s.ringQueue v (byteAt e 8)).isNone, 0x08),
    (byteAt e 9 < 16 && byteAt e 9 % 8 ≤ s.fld F.VI_CFG_PRIO_MAX v, 0x09),
    (hall < 8 && s.inHall p hall, 0x0A),
    (4 ≤ byteAt e 0x0B && byteAt e 0x0B ≤ 16, 0x0B),
    (1000 ≤ field e 0x0C 4 && field e 0x0C 4 ≤ 60000000, 0x0C),
    (s.ownRange v (field e 0x10 8) (16 * 2 ^ byteAt e 0x0B) 16 false, 0x10),
    (s.ownRange v (field e 0x18 8) 8 8 false, 0x18),
    (field e 0x20 8 % 64 == 0 && (bit (byteAt e 9) 3 == 1 ||
      s.ownRange v (field e 0x20 8) (64 * 2 ^ (min 16 cqLog) + 8) 64 true), 0x20),
    (6 ≤ cqLog && cqLog ≤ 16, 0x28), (byteAt e 0x29 == 0, 0x29),
    (msix == 0xFFFF || (msix < 2048 && msix < s.fld F.VI_MSIX_COUNT v), 0x2A),
    (field e 0x2C 2 ≤ 1000, 0x2C),
    (bits tq 14 12 == 0 && (bit tq 15 == 0 || s.viObject v hall 0 (tq % 4096)), 0x2E),
    (field e 0x30 8 % 4096 == 0 && (bytes == 0 || s.ownRange v (field e 0x30 8) bytes 4096 true), 0x30),
    (bytes % 4096 == 0, 0x38)]

/-- A queue from its parameters. -/
def workQOf (v : Nat) (e : List Nat) : WorkQ :=
  { vi := v, ring := byteAt e 8, prio := byteAt e 9 % 8, cqHost := bit (byteAt e 9) 3 == 1, hall := byteAt e 0x0A,
    log2 := byteAt e 0x0B, timeoutUs := field e 0x0C 4, ringBase := field e 0x10 8, tailRecord := field e 0x18 8,
    cqBase := field e 0x20 8, cqLog2 := byteAt e 0x28, msix := field e 0x2A 2, pauseLeadUs := field e 0x2C 2,
    notifyTq := field e 0x2E 2, saveBase := field e 0x30 8, saveBytes := field e 0x38 8, fence := 0, state := .active,
    consumed := 0, tail := 0, buffer := none, cqWritten := 0, cqHead := 0, waiting := [], slots := [],
    notified := false, mute := false }

/-- The lowest free queue number of the package. -/
def State.freeQueue (s : State) : Option Nat := (List.range 4096).find? fun q => (s.queue q).isNone

/-- R288: creates a work queue. -/
def doCreateQueue (v : Nat) (s : State) : State :=
  s.admin v 0x01 fun e s =>
    if 16 ≤ (s.queuesOf v).length then s.adminDone v adQueueLimit 0 0
    else
      match s.createFails v ((s.viPart v).getD 0) e with
      | some off => s.adminBad v off
      | none =>
        let inSlice := (s.vst.queues.filter fun p => match p.2 with
          | some w => w.hall == byteAt e 0x0A
          | none => false).length
        match s.freeQueue with
        | some q =>
          if 1024 ≤ inSlice then s.adminDone v adQueueLimit 0 0
          else (s.setQueue q (workQOf v e)).adminDone v 0 0 q
        | none => s.adminDone v adQueueLimit 0 0

/-- Whether no launched operation of a queue is left, paused ones apart. -/
def WorkQ.drained (w : WorkQ) : Bool :=
  match w.buffer with
  | some b => b.ops.all fun o => !(o.launched && o.state == .running)
  | none => true

/-- A queue is destroyed (R289, R341): what it has not launched is abandoned, and waiters on its fence end. -/
def State.removeQueue (s : State) (q : Nat) : State :=
  match s.queue q with
  | some w =>
    let s1 := s.onVst fun x => { x with queues := tset none x.queues q none }
    let waits := fun (o : Operation) =>
      o.state == .waitSync && o.syncs.any fun y => y.kind == 5 && y.handle == w.ring
    s1.vst.queues.foldl (fun s p =>
      match p.2 with
      | some x =>
        if x.vi = w.vi then
          match x.buffer with
          | some b => (((b.ops.filter waits).foldl (fun s o => s.abandonOp p.1 o.idx 2) s).endBuffer p.1).flush p.1
          | none => s
        else s
      | none => s) s1
  | none => s

/-- Runs a command on the queue that its ring index names. -/
def State.onRing (s : State) (v : Nat) (e : List Nat) (run : Nat → WorkQ → State) : State :=
  match s.ringQueue v (byteAt e 8) with
  | some q =>
    match s.queue q with
    | some w => run q w
    | none => s.adminDone v adQueueUnknown 0 0
  | none => s.adminDone v adQueueUnknown 0 0

/-- A wait of an admin command begins. -/
def State.adminWait (s : State) (v : Nat) (w : AdminWait) : State := s.onAdmin v fun a => { a with wait := some w }

/-- What MAP_MEMORY returned for an allocation (R327). -/
def State.allocGa (s : State) (a : Alloc) : Nat :=
  match a.space with
  | .d => gaMake s.deviceId spaceD a.base
  | .g => gaMake s.deviceId spaceG a.base
  | .t => s.handle a.hall a.kind (if a.kind = 1 then 2 * a.base else a.base)

/-- Removes an entry of the allocation table. -/
def State.dropAlloc (s : State) (a : Alloc) : State := s.onPart fun p => { p with allocs := p.allocs.filter (· != a) }

/-- Whether an object of an allocation has a waiter or an unreleased arrival (R328). -/
def State.objectsBusy (s : State) (a : Alloc) : Bool :=
  (upTo a.base a.size).any fun i =>
    match a.kind with
    | 0 => !(s.tokenQ a.hall i).waiters.isEmpty
    | 1 => !(s.landing a.hall i).waiters.isEmpty || !(s.landing a.hall i).arrivals.isEmpty
    | _ => false

/-- The earlier operations of an UNMAP_MEMORY have ended: the range is wiped, or its objects are freed (R328). -/
def State.unmapGo (s : State) (v : Nat) (a : Alloc) : State :=
  let keep := fun (s : State) => s.onPart fun p => { p with
    allocs := p.allocs.map fun x => if x == a then { x with unmapping := false } else x }
  match a.space with
  | .t =>
    if s.objectsBusy a then (keep s).adminDone v adSyncBusy 0 0
    else (((upTo a.base a.size).foldl (fun (s : State) i => (s.syncInit a.hall a.kind i).1) s).dropAlloc a).adminDone v 0 0 0
  | .d =>
    if a.mapping then (s.dropAlloc a).adminDone v 0 0 0
    else
      let (s1, n) := s.startWipe [] [(a.base, a.size)] []
      s1.adminWait v (.unmapWipe n a)
  | .g =>
    let (s1, n) := s.startWipe [] [] [(a.base, a.size)]
    s1.adminWait v (.unmapWipe n a)

/-- Moves a waiting admin command of `v` on when what it waits for has come. -/
def State.adminProgress (s : State) (v : Nat) : State :=
  match (s.adminQ v).wait with
  | some (.stop ring) =>
    match (s.ringQueue v ring).bind s.queue with
    | some w => if w.drained then s.adminDone v 0 0 0 else s
    | none => s.adminDone v 0 0 0
  | some (.destroy ring) =>
    match s.ringQueue v ring with
    | some q =>
      match s.queue q with
      | some w => if w.drained then (s.removeQueue q).adminDone v 0 0 0 else s
      | none => s
    | none => s.adminDone v 0 0 0
  | some (.unmapOps ops a) =>
    let left := ops.filter fun x => match s.op? x.1 x.2 with
      | some o => o.state != .complete
      | none => false
    if left.isEmpty then s.unmapGo v a else s.adminWait v (.unmapOps left a)
  | some (.unmapWipe n a) =>
    if s.wiping n then s
    else
      let s1 := match a.region with
        | some r => (s.dropAlloc a).onPart fun p => { p with regions := p.regions.filter (·.num != r) }
        | none => s.dropAlloc a
      s1.adminDone v 0 0 0
  | some (.verify _) => s
  | some (.flash i seq) =>
    if s.host.flashQueue.any fun f => match f with
        | .retiredPage _ j _ => j == i
        | _ => false then s
    else s.adminDone v 0 seq (s.fld F.HBM_RETIRE_COUNT_ENTRIES)
  | none => s

/-- Moves every waiting admin command on. -/
def State.adminProgressAll (s : State) : State := s.vst.admin.foldl (fun s p => s.adminProgress p.1) s

/-- R289: stops a queue. -/
def doStopQueue (v : Nat) (s : State) : State :=
  s.admin v 0x03 fun e s => s.onRing v e fun q w =>
    let s1 := if w.state = .active then ((s.stopQueue q .stoppedAdmin 0).endBuffer q).flush q else s
    (s1.adminWait v (.stop w.ring)).adminProgress v

/-- R289: a stopped queue is ACTIVE again at its next ring entry. -/
def doRestartQueue (v : Nat) (s : State) : State :=
  s.admin v 0x04 fun e s => s.onRing v e fun q w =>
    let s1 := if w.state = .active then s else s.setQueue q { w with state := .active, mute := false }
    s1.adminDone v 0 0 0

/-- R289: destroys a queue once its launched operations have completed. -/
def doDestroyQueue (v : Nat) (s : State) : State :=
  s.admin v 0x02 fun e s => s.onRing v e fun q w =>
    let s1 := (s.stopQueue q (if w.state = .active then .stoppedAdmin else w.state) 1).endBuffer q
    ((s1.flush q).adminWait v (.destroy w.ring)).adminProgress v

/-! ## Memory (R327, R328, R333) -/

/-- The range of a space from which an allocation is taken: of partition `p`, and of half-hall `half` for G and T. -/
def State.allocRange (s : State) (p : Nat) (sp : AllocSpace) (half kind : Nat) : Option (Nat × Nat) :=
  match sp with
  | .d => (tfind s.hbm.maps p).map fun m => (m.baseHH * gib24, m.baseHH * gib24 + m.capacity)
  | .g => s.galleryOf p (half / 2)
  | .t => s.objectsOf p (half / 2) kind

/-- What lies in the way of an allocation. -/
def State.allocUsed (s : State) (sp : AllocSpace) (hall kind : Nat) : List (Nat × Nat) :=
  (s.part.allocs.filter fun a => a.space == sp && !a.mapping && (sp != .t || (a.hall == hall && a.kind == kind))).map
    fun a => (a.base, a.size)

/-- The start that a FIXED allocation names in its space, none when it names none. -/
def State.fixedBase (s : State) (sp : AllocSpace) (ga hall kind : Nat) : Option Nat :=
  let off := gaOffset ga
  if gaDevice ga != s.deviceId then none
  else
    match sp with
    | .d => if gaSpace ga = spaceD && off % 4096 = 0 then some off else none
    | .g => if gaSpace ga = spaceG && off < 2 ^ 29 && off % 4096 = 0 then some off else none
    | .t =>
      if gaSpace ga = spaceT && off < 2 ^ 29 && off % 64 = 0 && tHall off = hall && tKind off = kind &&
          (kind != 1 || tIndex off % 2 == 0) then
        some (objectNumber kind (tIndex off))
      else none

/-- The space of a code. -/
def allocSpaceOf (n : Nat) : Option AllocSpace :=
  match n with
  | 0 => some .d | 1 => some .g | 4 => some .t | _ => none

/-- Bytes of a space that `v` holds, shared mappings apart. -/
def State.usedBytes (s : State) (v : Nat) (sp : AllocSpace) : Nat :=
  (s.part.allocs.filter fun a => a.vi == v && a.space == sp && !a.mapping).foldl (fun n a => n + a.size) 0

/-- The quota of a space in bytes; 0 is no cap. -/
def State.quota (s : State) (v : Nat) : AllocSpace → Nat
  | .d => s.fld F.VI_QUOTA_D_MIB v * 2 ^ 20
  | .g => s.fld F.VI_QUOTA_G_MIB v * 2 ^ 20
  | .t => 0

/-- The partition whose range a MAP_MEMORY takes: of HALF, of a FIXED base for VI0, else the target's. -/
def State.mapPart (s : State) (target : Nat) (sp : AllocSpace) (half : Nat) (fixed : Bool) (ga : Nat) : Option Nat :=
  match sp with
  | .d =>
    if target = 0 && fixed then (s.offsetPart (gaOffset ga)).map (·.1) else s.viPart target
  | _ => s.halfPart half

/-- The lowest free region number. -/
def State.freeRegion (s : State) : Option Nat :=
  (List.range 64).find? fun r => s.part.regions.all (·.num != r)

/-- Maps a shared region into `target` (R333). -/
def State.mapRegion (s : State) (v target : Nat) (e : List Nat) : State :=
  match s.part.regions.find? (·.num == byteAt e 0x0D) with
  | none => s.adminBad v 0x0D
  | some r =>
    if 4096 ≤ s.part.allocs.length then s.adminDone v adNoSpace 0x18 0
    else
      let a : Alloc :=
        { vi := target, space := .d, base := r.base, size := r.size, hall := 0, kind := 0, half := 0xFF,
          attr := byteAt e 9, region := some r.num, mapping := true, unmapping := false }
      (s.onPart fun p => { p with allocs := p.allocs ++ [a] }).adminDone v 0 r.num (s.allocGa a)

/-- The failing offset of a MAP_MEMORY by `v` for `target`. -/
def State.mapFails (s : State) (v target : Nat) (e : List Nat) : Option Nat :=
  let attr := byteAt e 9
  let shared := bit attr 2 == 1
  let half := byteAt e 0x0B
  let kind := byteAt e 0x0C
  match allocSpaceOf (byteAt e 8) with
  | none => some 0x08
  | some sp =>
    firstFail [
      (attr < 16 && (!shared || (v == 0 && attr % 4 == 0 && sp == .d)), 0x09),
      ((s.viPart target).isSome && !s.part.resetting.contains target, 0x0A),
      (if sp == .d then half == 0xFF
        else half < 16 && (s.halfPart half).isSome && (target == 0 || s.halfPart half == s.viPart target), 0x0B),
      (if sp == .t then kind < 3 else kind == 0, 0x0C),
      ((shared && target != 0) || byteAt e 0x0D == 0, 0x0D),
      (field e 0x0E 2 == 0, 0x0E),
      (bit attr 3 == 1 || field e 0x10 8 == 0, 0x10)]

/-- R327, R333: allocates a range, creates a shared region, or maps one. -/
def doMapMemory (v : Nat) (s : State) : State :=
  s.admin v 0x10 fun e s =>
    let target := if v = 0 then byteAt e 0x0A else v
    let shared := bit (byteAt e 9) 2 == 1
    let fixed := bit (byteAt e 9) 3 == 1
    match s.mapFails v target e, allocSpaceOf (byteAt e 8) with
    | some off, _ => s.adminBad v off
    | none, none => s.adminBad v 0x08
    | none, some sp =>
      if shared && target != 0 then s.mapRegion v target e
      else
        let half := byteAt e 0x0B
        let kind := byteAt e 0x0C
        let size := field e 0x18 8
        let hall := if sp == .d then 0 else half / 2
        let at? := if fixed then s.fixedBase sp (field e 0x10 8) hall kind else none
        let range := (s.mapPart target sp half fixed (field e 0x10 8)).bind fun p =>
          if sp == .d && target != 0 && s.viPart target != some p then none else s.allocRange p sp half kind
        match range with
        | none => s.adminBad v (if fixed then 0x10 else 0x0B)
        | some (lo, hi) =>
          let inside := match at? with
            | some a => lo ≤ a && a < hi
            | none => !fixed
          if !inside then s.adminBad v 0x10
          else if size = 0 || (if sp == .t then hi - lo < size else size % 4096 != 0) then s.adminBad v 0x18
          else if 4096 ≤ s.part.allocs.length then s.adminDone v adNoSpace 0x18 0
          else if s.quota target sp != 0 && s.quota target sp < s.usedBytes target sp + size then
            s.adminDone v adNoSpace 0x18 0
          else
            let used := s.allocUsed sp hall kind
            let place := match at? with
              | some a =>
                if a + size ≤ hi && used.all fun u => a + size ≤ u.1 || u.1 + u.2 ≤ a then some a else none
              | none => firstFit lo (hi - lo) size used
            match place, (if shared then s.freeRegion else some 0) with
            | some a, some r =>
              let x : Alloc :=
                { vi := target, space := sp, base := a, size := size, hall := hall, kind := kind, half := half,
                  attr := byteAt e 9, region := if shared then some r else none, mapping := false, unmapping := false }
              let s1 := s.onPart fun p => { p with
                allocs := p.allocs ++ [x],
                regions := if shared then
                    p.regions ++ [{ num := r, base := a, size := size, quarantined := false, record := 0,
                                    partition := (s.mapPart target sp half fixed (field e 0x10 8)).getD 0 }]
                  else p.regions }
              s1.adminDone v 0 (if shared then r else 0) (s1.allocGa x)
            | none, _ => s.adminDone v adNoSpace (if fixed then 0x10 else 0x18) 0
            | some _, none => s.adminDone v adNoSpace 0x0D 0

/-- Operations of `v` that are dispatched and not complete. -/
def State.underWay (s : State) (v : Nat) : List (Nat × Nat) :=
  s.vst.queues.flatMap fun p => match p.2 with
    | some w =>
      if w.vi = v then
        match w.buffer with
        | some b => (b.ops.filter fun o => o.state == .dispatched || o.state == .running || o.state == .paused).map
            fun o => (p.1, o.idx)
        | none => []
      else []
    | none => []

/-- R328: releases an allocation once earlier operations have completed and its range is wiped. -/
def doUnmapMemory (v : Nat) (s : State) : State :=
  s.admin v 0x11 fun e s =>
    let target := if v = 0 then byteAt e 0x0A else v
    match allocSpaceOf (byteAt e 8) with
    | none => s.adminBad v 0x08
    | some sp =>
      match s.part.allocs.find? fun a =>
          a.vi == target && a.space == sp && !a.unmapping && s.allocGa a == field e 0x10 8 with
      | none => s.adminDone v adAllocUnknown 0 0
      | some a =>
        let held := match a.region with
          | some r => !a.mapping && !(s.mappers r).isEmpty
          | none => false
        if held then s.adminDone v adRegionInUse 0 0
        else
          let s1 := s.onPart fun p => { p with
            allocs := p.allocs.map fun x => if x == a then { x with unmapping := true } else x }
          (s1.adminWait v (.unmapOps (s.underWay target) { a with unmapping := true })).adminProgress v

/-! ## Binding (R329) -/

/-- Blocks of pool `k` that virtual interface `v` owns. -/
def State.poolBlocks (s : State) (k v : Nat) : List Nat :=
  let p := s.pool k
  if p.valid then
    let tags := (s.readD p.tags (2 * p.count)).data
    (List.range p.count).filter fun b =>
      bit (field tags (2 * b) 2) 15 == 1 && bits (field tags (2 * b) 2) 11 4 == v
  else []

/-- Whether `v` owns a pool block. -/
def State.ownsBlock (s : State) (v : Nat) : Bool := (List.range 64).any fun k => !(s.poolBlocks k v).isEmpty

/-- R329: binds a virtual interface to a partition, or unbinds it. -/
def doBindPartition (v : Nat) (s : State) : State :=
  s.admin v 0x12 fun e s =>
    let t := byteAt e 8
    let p := byteAt e 9
    if !s.viEnabled t then s.adminBad v 0x08
    else if p != 0xFF && !(p < 16 && s.partExists p) then s.adminBad v 0x09
    else if s.part.resetting.contains t || !(s.queuesOf t).isEmpty ||
        (s.part.allocs.any fun a => a.vi == t && !a.mapping) || s.ownsBlock t then
      s.adminDone v adBusy 0 0
    else
      (s.onPart fun x => { x with bound := tset none x.bound t (if p = 0xFF then none else some p) }).adminDone v 0 0 0

/-! ## Profiles, quarantines and versions (R336, R340, R484) -/

/-- R340: selects a profile for the next partition-wide reset. -/
def doSetProfile (v : Nat) (s : State) : State :=
  s.admin v 0x13 fun e s =>
    if 3 < byteAt e 8 then s.adminBad v 0x08
    else if !profileValid (s.profileBytes (byteAt e 8)) then s.adminDone v adProfileInvalid 0 0
    else
      (((s.setFld F.PART_PROFILE_PENDING_VALID 1).setFld F.PART_PROFILE_PENDING (byteAt e 8)).viEvent
        F.VI_EVENT_PROFILE_PENDING 0).adminDone v 0 0 0

/-- Clears a region's quarantine; held operations go on (R336). -/
def State.liftRegion (s : State) (r : Region) : State := s.setRegion { r with quarantined := false }

/-- R336: lifts a quarantine, after a verifying read when asked. -/
def doLiftQuarantine (v : Nat) (s : State) : State :=
  s.admin v 0x14 fun e s =>
    match s.part.regions.find? (·.num == byteAt e 8) with
    | none => s.adminDone v adAllocUnknown 0 0
    | some r =>
      if bit (byteAt e 9) 0 = 1 then s.adminWait v (.verify r.num)
      else (s.liftRegion r).adminDone v 0 0 0

/-- Reads `n` sectors from a device offset; the offset of the first poisoned one. -/
def State.verifySectors (s : State) (off : Nat) : (n : Nat) → State × Option Nat
  | 0 => (s, none)
  | n + 1 =>
    let r := s.readD off 32
    if r.poison then (r.st, some off) else r.st.verifySectors (off + 32) n

/-- R336: the verifying read of a quarantined region finishes. -/
def doQuarantineVerifyDone (s : State) : State :=
  match (s.adminQ 0).wait with
  | some (.verify n) =>
    match s.part.regions.find? (·.num == n) with
    | none => s.adminDone 0 adAllocUnknown 0 0
    | some r =>
      if s.dBlocked r.base r.size true then s
      else
        match s.verifySectors r.base (r.size / 32) with
        | (s1, some off) => s1.adminDone 0 adRegionPoisoned (off - r.base) 0
        | (s1, none) =>
          match s1.part.regions.find? (·.num == n) with
          | some r => (s1.liftRegion r).adminDone 0 0 0 0
          | none => s1.adminDone 0 0 0 0
  | _ => s

/-- Ends restricted mode by the override (R484). -/
def State.overrideNow (s : State) : State :=
  (((s.onBoot fun b => { b with restricted := false, override := true }).setFld F.BOOT_STATUS_UNVALIDATED 1).setFld
    F.BOOT_STATUS_STATE 3).raise F.BOOT_EVENT_OVERRIDE 109

/-- R484: ends restricted mode when both versions match. -/
def doVersionOverride (v : Nat) (s : State) : State :=
  s.admin v 0x40 fun e s =>
    if field e 8 4 != s.reg .BOOT_PMC_VER then s.adminBad v 0x08
    else if field e 0x0C 4 != s.reg .BOOT_HALL_VER then s.adminBad v 0x0C
    else if s.boot.restricted then s.overrideNow.adminDone v 0 0 1
    else s.adminDone v 0 0 0

/-! ## Queries (R330) -/

/-- Records of QUERY are zero where the table names nothing. -/
def recordOf (n : Nat) (fields : List (Nat × Nat × Nat)) : List Nat :=
  fields.foldl (fun l f => l.take f.1 ++ toBytes f.2.1 f.2.2 ++ l.drop (f.1 + f.2.1)) (List.replicate n 0)

/-- `VI_STATUS`.STATE of a virtual interface (R343). -/
def State.viState (s : State) (v : Nat) : Nat :=
  if s.part.resetting.contains v then 3
  else if !s.viEnabled v then 0
  else if (s.viPart v).isSome then 2 else 1

/-- Peak FP8, BF16 and FP32 vector rates of a partition in whole GFLOP/s (R23, R320). -/
def State.peaks (s : State) (p : Nat) : Nat × Nat × Nat :=
  let h := (s.halfHalls p).length
  let n := s.partMhz p * h * (s.partAlcoves p 0).length
  let d := 16 * (16 * h) * 1000
  (8388608 * n / d, 4194304 * n / d, 65536 * n / d)

/-- The partition record. -/
def State.queryPartition (s : State) (p : Nat) : List Nat :=
  let m := tget .empty s.hbm.maps p
  let hs := s.halfHalls p
  let halls := (List.range 8).filter fun h => s.inHall p h
  let (a, b, c) := s.peaks p
  let vis := (s.part.bound.filter fun x => x.2 == some p).length
  recordOf 48 [
    (0, 2, hs.foldl setBit 0), (2, 2, (s.partAlcoves p 0).length), (4, 2, 16 * hs.length), (6, 2, m.chans.length),
    (8, 8, m.baseHH * gib24), (0x10, 8, m.capacity), (0x18, 2, s.partMhz p), (0x1A, 1, m.localN),
    (0x1B, 1, (if halls.any fun h => s.annealerPart h == some p then 1 else 0) +
      (if halls.any s.splitHall then 2 else 0)),
    (0x1C, 4, a), (0x20, 4, b), (0x24, 4, c), (0x28, 2, vis)]

/-- The record of an allocation in a QUERY of WHAT 4. -/
def State.queryAlloc (s : State) (a : Alloc) : List Nat :=
  padBytes 32 (toBytes 8 (s.allocGa a) ++ toBytes 8 a.size ++ [a.space.code, a.attr, a.half, a.kind, a.region.getD 0])

/-- The record of WHAT for INDEX, as virtual interface `v` sees it. -/
def State.queryRecord (s : State) (v what idx : Nat) : List Nat :=
  match what with
  | 0 =>
    recordOf 32 [
      (0, 1, match s.order with
        | .l => 0
        | .e => 1),
      (1, 1, 0xB0), (2, 1, (if s.boot.restricted then 1 else 0) + (if s.boot.override then 2 else 0)), (4, 4, s.deviceId),
      (8, 1, s.fld F.PART_PROFILE_ACTIVE),
      (9, 1, if s.fld F.PART_PROFILE_PENDING_VALID = 1 then s.fld F.PART_PROFILE_PENDING else 0xFF),
      (0xA, 2, ((List.range 16).filter s.partExists).foldl setBit 0), (0xC, 2, s.order.mhz)]
  | 1 => s.queryPartition idx
  | 2 =>
    recordOf 32 [
      (0, 1, s.viState idx), (1, 1, (s.viPart idx).getD 0xFF), (4, 2, s.viJob idx), (6, 1, s.fld F.VI_CFG_PRIO_MAX idx),
      (7, 1, (s.queuesOf idx).length), (8, 4, s.usedBytes idx .d / 4096), (0xC, 4, s.usedBytes idx .g / 4096),
      (0x10, 2, s.fld F.VI_MSIX_BASE idx), (0x12, 2, s.fld F.VI_MSIX_COUNT idx),
      (0x14, 2, (s.part.allocs.filter (·.vi == idx)).length)]
  | 3 =>
    recordOf 24 ([
      (0, 1, s.fld F.PART_PROFILE_ACTIVE),
      (1, 1, if s.fld F.PART_PROFILE_PENDING_VALID = 1 then s.fld F.PART_PROFILE_PENDING else 0xFF),
      (2, 1, s.fld F.PART_PROFILE_STRAP),
      (3, 1, s.fld F.PART_PROFILE_FALLBACK + 2 * s.fld F.PART_PROFILE_BUILTIN), (0x14, 2, s.part.profile.boardW)] ++
      (List.range 8).map fun h => (4 + 2 * h, 2, s.hallMhz h))
  | 4 =>
    let l := s.part.allocs.filter (·.vi == idx)
    toBytes 4 l.length ++ l.flatMap s.queryAlloc
  | _ =>
    let l := s.part.regions.filter fun r => v == 0 || (s.mappers r.num).contains v
    toBytes 4 l.length ++ l.flatMap fun r =>
      [r.num, if r.quarantined then 1 else 0, 0, 0] ++ toBytes 4 (s.mappers r.num).length ++
        toBytes 8 (gaMake s.deviceId spaceD r.base) ++ toBytes 8 r.size

/-- Whether virtual interface `v` may make a query. -/
def State.mayQuery (s : State) (v what idx : Nat) : Bool :=
  v == 0 || what == 0 || what == 3 || what == 5 || (what == 1 && s.viPart v == some idx) ||
    ((what == 2 || what == 4) && idx == v)

/-- Accesses the record of a QUERY or SYNC_CONFIG, whose command fails when the access does (R410). -/
def State.withRecord (s : State) (v addr : Nat) (run : State → State) : State :=
  match s.adminAccess v 3 addr with
  | (s1, false) => s1.adminBad v 0x10
  | (s1, true) => run s1

/-- R330: writes a record to host memory. -/
def doQuery (v : Nat) (s : State) : State :=
  s.admin v 0x20 fun e s =>
    let what := byteAt e 8
    let idx := byteAt e 9
    if 5 < what then s.adminBad v 0x08
    else if !s.mayQuery v what idx then s.adminDone v adNotPermitted 0 0
    else if what = 1 && !(idx < 16 && s.partExists idx) then s.adminBad v 0x09
    else
      let r := (s.queryRecord v what idx).take (field e 0x18 4)
      if r.isEmpty then s.adminDone v 0 0 0
      else
        s.withRecord v (field e 0x10 8) fun s => (s.hostWrite v (field e 0x10 8) r).adminDone v 0 0 r.length

/-! ## Retired pages (R223 to R225, R419) -/

/-- An entry of the retired-page table (R223). -/
def pageEntry (chan pc line seq : Nat) : Nat := 2 ^ 63 + chan * 2 ^ 40 + pc * 2 ^ 39 + line * 2 ^ 16 + seq

/-- Fields of an entry. -/
def entryChan (x : Nat) : Nat := bits x 47 40
def entryLine (x : Nat) : Nat := bits x 38 16

/-- The valid entries of a table copy, by index. -/
def validPages (t : Tbl (Option Nat)) : List (Nat × Nat) :=
  t.filterMap fun p => match p.2 with
    | some x => if bit x 63 = 1 then some (p.1, x) else none
    | none => none

/-- The entry takes effect (R225): its line's page is handled as retired, and a region that holds it is
quarantined (R334). -/
def State.retirePage (s : State) (x : Nat) : State :=
  match s.offsetOfLine (entryChan x) (entryLine x) with
  | some o =>
    let page := o / 4096
    let s1 := s.onHbm fun h => { h with pages := if h.pages.contains page then h.pages else h.pages ++ [page] }
    s1.quarantineAt o
  | none => s

/-- The failing offset of a RETIRE_PAGE (R224). -/
def State.retireFails (s : State) (e : List Nat) : Option Nat :=
  let page := field e 8 8
  let sector := field e 0x10 8
  let valid := bit (byteAt e 0x18) 0 == 1
  firstFail [
    (gaSpace page == spaceD && gaDevice page == s.deviceId && page % 4096 == 0 && s.namesMemory page 4096, 0x08),
    (if valid then sector % 32 == 0 && page ≤ sector && sector < page + 4096 else sector == 0, 0x10),
    (byteAt e 0x18 < 2, 0x18), (zeroAt e 0x19 7, 0x19)]

/-- R224: a retired-page entry goes to both flash copies and takes effect at once. -/
def doRetirePage (v : Nat) (s : State) : State :=
  s.admin v 0x21 fun e s =>
    match s.retireFails e with
    | some off => s.adminBad v off
    | none =>
      let ga := if bit (byteAt e 0x18) 0 = 1 then field e 0x10 8 else field e 8 8
      match s.placeOf (gaOffset ga) with
      | none => s.adminBad v 0x08
      | some pl =>
        let have_ := validPages s.host.pagesA
        match have_.find? fun x => entryChan x.2 == pl.chan && entryLine x.2 == pl.line with
        | some x => s.adminDone v 0 (bits x.2 15 0) have_.length
        | none =>
          match (List.range 1024).find? fun i => !(have_.any fun x => x.1 == i) with
          | none => s.adminDone v adRetireFull 0 0
          | some i =>
            let seq := ((have_.map fun x => bits x.2 15 0).max?.getD 0 + 1) % 2 ^ 16
            let x := pageEntry pl.chan (keyPc pl.key) pl.line seq
            let s1 := (s.retirePage x).setFld F.HBM_RETIRE_COUNT_ENTRIES (have_.length + 1)
            (s1.onHost fun h => { h with
              flashQueue := h.flashQueue ++ [.retiredPage false i x, .retiredPage true i x] }).adminWait v (.flash i seq)

/-! ## Sync objects (R290) -/

/-- The failing offset of a SYNC_CONFIG. -/
def syncConfigFails (e : List Nat) : Option Nat :=
  let op := byteAt e 8
  let kind := byteAt e 9
  let moves := op < 2
  firstFail [
    (op < 4 && !(kind == 2 && (op == 1 || op == 3)), 0x08),
    (kind < 6 && kind != 3, 0x09),
    (byteAt e 0xA < 8 && (kind < 4 || byteAt e 0xA == 0), 0x0A), (byteAt e 0xB == 0, 0x0B),
    (field e 0xC 2 < syncCount kind, 0x0C), (field e 0xE 2 == 0, 0x0E),
    (if moves then field e 0x10 8 % 8 == 0 else field e 0x10 8 == 0, 0x10),
    (field e 0x18 4 == (if moves then syncRecordBytes kind else 0), 0x18)]

/-- Completes a SYNC_CONFIG by the result of the configuration command (R256, R290). -/
def State.syncResult (s : State) (v res off result : Nat) : State :=
  if res = syncDone then s.adminDone v 0 0 result
  else if res = syncBusy then s.adminDone v adSyncBusy 0 0
  else if res = syncNoSpace then s.adminDone v adSyncNoSpace 0 0
  else s.adminDone v adSyncBadConfig (0x100 + off) 0

/-- R290: a configuration command through the admin queue; `record` is what host memory holds at BUFFER. -/
def doSyncConfig (v : Nat) (record : List Nat) (s : State) : State :=
  s.admin v 0x22 fun e s =>
    let op := byteAt e 8
    let kind := byteAt e 9
    let hall := byteAt e 0xA
    let i := field e 0xC 2
    if (kind = 4 || kind = 5) && v != 0 then s.adminDone v adNotPermitted 0 0
    else
      match syncConfigFails e with
      | some off => s.adminBad v off
      | none =>
        if v != 0 && !s.viObject v hall kind (if kind = 1 then 2 * i else i) then s.adminBad v 0x0C
        else
          match op with
          | 0 =>
            s.withRecord v (field e 0x10 8) fun s =>
              let r := s.syncRecord hall kind i
              (s.hostWrite v (field e 0x10 8) r).adminDone v 0 0 r.length
          | 1 =>
            s.withRecord v (field e 0x10 8) fun s =>
              let (s1, res, off) := s.syncWrite hall kind i ((padBytes (syncRecordBytes kind) record).map (· % 256))
              s1.syncResult v res off 0
          | 2 =>
            let (s1, res) := s.syncInit hall kind i
            s1.syncResult v res 0 0
          | _ =>
            let (s1, res) := s.syncDisable hall kind i
            s1.syncResult v res 0 0

/-! ## Pools (R315) -/

/-- The failing offset of a POOL_CREATE. -/
def State.poolFails (s : State) (e : List Nat) : Option Nat :=
  let n := field e 0xC 4
  let base := field e 0x10 8
  firstFail [
    (byteAt e 8 < 64 && !(s.pool (byteAt e 8)).valid, 0x08), (8 ≤ byteAt e 9 && byteAt e 9 ≤ 21, 0x09),
    (1 ≤ n && n ≤ 1048576, 0x0C),
    (gaSpace base == spaceD && gaDevice base == s.deviceId && s.namesMemory base (n * 2 ^ byteAt e 9), 0x10),
    (s.ownRange 0 (field e 0x18 8) (2 * n) 1 true, 0x18), (s.ownRange 0 (field e 0x20 8) (4 * n) 1 true, 0x20)]

/-- R315: creates a pool, clears its tags, fills its stack and grants it to VI0. -/
def doPoolCreate (v : Nat) (s : State) : State :=
  s.admin v 0x30 fun e s =>
    match s.poolFails e with
    | some off => s.adminBad v off
    | none =>
      let n := field e 0xC 4
      let p : Pool :=
        { valid := true, blockLog2 := byteAt e 9, count := n, base := gaOffset (field e 0x10 8),
          tags := gaOffset (field e 0x18 8), stack := gaOffset (field e 0x20 8), free := n, granted := [0] }
      let s1 := (s.writeDAll p.tags (List.replicate (2 * n) 0)).writeDAll p.stack
        ((List.range n).flatMap fun i => toBytes 4 i)
      (s1.setPool (byteAt e 8) p).adminDone v 0 0 0

/-- R315: destroys a pool without allocated blocks. -/
def doPoolDestroy (v : Nat) (s : State) : State :=
  s.admin v 0x31 fun e s =>
    let p := s.pool (byteAt e 8)
    if 64 ≤ byteAt e 8 || !p.valid then s.adminBad v 0x08
    else if p.free < p.count then s.adminDone v adPoolBusy 0 0
    else (s.setPool (byteAt e 8) .reset).adminDone v 0 0 0

/-- R315: grants or revokes a virtual interface's use of a pool. -/
def doPoolGrant (v : Nat) (s : State) : State :=
  s.admin v 0x32 fun e s =>
    let p := s.pool (byteAt e 8)
    let t := byteAt e 9
    if 64 ≤ byteAt e 8 || !p.valid then s.adminBad v 0x08
    else if 1 < byteAt e 0xA then s.adminBad v 0x0A
    else
      (s.setPool (byteAt e 8) { p with
        granted := if byteAt e 0xA = 1 then (t :: p.granted).eraseDups else p.granted.filter (· != t) }).adminDone v 0 0 0

/-- Frees every pool block that `v` owns (R315, R341). -/
def State.freeBlocks (s : State) (v : Nat) : State :=
  forEach (List.range 64) s fun s k =>
    forEach (s.poolBlocks k v) s fun s b =>
      let p := s.pool k
      ((s.writeDAll (p.tags + 2 * b) [0, 0]).writeDAll (p.stack + 4 * p.free) (toBytes 4 b)).setPool k
        { p with free := p.free + 1 }

/-! ## Failed accesses (R410) -/

/-- R410: a host-memory access of virtual interface `v` fails with a KIND, in a row of R410's table, for a ring. -/
def doHostAccessFail (v access kind ring : Nat) (s : State) : State :=
  match access with
  | 0 => (s.hostErr kind 0 0 v).adminStop v
  | 1 => ((s.hostErr kind 1 0 v).onAdmin v fun a => { a with stalled := none }).adminStop v
  | 2 =>
    match s.ringQueue v ring with
    | some q => s.failQueue q kind
    | none => s.hostErr kind 2 ring v
  | 3 => if (s.adminQ v).current.isSome then (s.hostErr kind 3 0 v).adminBad v 0x10 else s.hostErr kind 3 0 v
  | _ => s.hostErr kind 4 0 v

end Sys2Proof.Machine
end

