-- ==== Sys2Proof/Machine/Clz.lean ====
section
/-! DEFINITION. The Coluz ports (R362 to R395): bring-up, flits, replay, credits, transmission, and tread
windows. Routing stands in Link.lean, the layout of flits in Flit.lean. -/

namespace Sys2Proof.Machine

/-! ## Lanes and width (R366) -/

/-- The lanes that a set of working lanes uses. -/
def lanesUsed (mask : Nat) : Nat :=
  if mask % 16 = 15 then 15
  else if bits mask 1 0 = 3 then 3
  else if bits mask 3 2 = 3 then 12
  else
    match (List.range 4).find? fun l => bit mask l == 1 with
    | some l => 2 ^ l
    | none => 0

/-- Lanes in use: 4, 2, 1 or 0. -/
def laneWidth (mask : Nat) : Nat := popCount 4 (lanesUsed mask)

/-- `CLZ_PORT_STATUS`.WIDTH. -/
def widthCode (mask : Nat) : Nat := [0, 1, 2, 0, 3].getD (laneWidth mask) 0

/-- Channel IDs of a lane and a port (R424). -/
def laneChannel (p l : Nat) : Nat := channelId 0 (4 * p + l)
def portChannel (p : Nat) : Nat := channelId 1 p

/-- Lanes neither retired nor in LANE_OFF. -/
def State.lanesAvail (s : State) (p : Nat) : Nat :=
  (List.range 4).foldl (fun m l =>
    if s.retired (laneChannel p l) || bit (s.fld F.CLZ_PORT_CTRL_LANE_OFF p) l = 1 then m else m + 2 ^ l) 0

/-- Of those, the ones that no shot of row 0x03 holds out of lock. -/
def State.lanesUsable (s : State) (p : Nat) : Nat :=
  (List.range 4).foldl (fun m l =>
    if bit (s.lanesAvail p) l = 1 && tget 0 s.inj.laneHold (4 * p + l) ≤ s.time.tick then m + 2 ^ l else m) 0

/-- The record of a link event (R442). -/
def State.linkRecord (s : State) (det p lane count : Nat) : RasRecord :=
  { RasRecord.blank with
    detector := det, location := [p, lane, widthCode (s.port p).working], signature := toBytes 4 count }

/-- A port left with no working lane is retired (R366, R429). -/
def State.checkLanes (s : State) (p : Nat) : State :=
  if s.lanesAvail p = 0 && (s.port p).role != 0 then s.hardSignature (portChannel p) 0x03 0 else s

/-! ## States (R364) -/

/-- Sends what still waits to leave by a port on another way, once that port has gone down (log 48). -/
def State.rerouteQueue (s : State) (p : Nat) : State :=
  let x := s.port p
  let back := fun (m : LinkMsg) => match m with
    | .ack vc st ag hops dst pseq => LinkMsg.ack vc st ag (hops - 1) dst pseq
    | m => m.setHdr fun h => { h with hops := h.hops - 1 }
  let routed := ((List.range 6).flatMap fun vc => tget [] x.queues vc) ++ x.flows
  forEach routed (s.setPort p { x with queues := [], flows := [], openWindow := none }) fun s m =>
    s.forward (back m) none

/-- Moves a port to a state (R364, R382). -/
def State.portEnter (s : State) (p : Nat) (st : PortState) : State :=
  if (s.port p).state = st then s
  else
    let s1 := (s.onPort p fun x => { x with state := st, since := s.time.tick, lastInit := none, initCount := 0 }).clzEvent
      F.CLZ_EVENT_STATE_CHANGE p
    let s2 := if st = .off || st = .detect || st = .retired then s1.rerouteQueue p else s1
    s2.retryRoutes

/-! ## INIT flits (R365) -/

/-- Credits that the Paliz advertises (R374). -/
def advertised : List Nat := [1024, 1024, 1024, 1024, 1024, 1024, 256, 64, 2048]

def State.ownInit (s : State) (p : Nat) : InitInfo :=
  let x := s.port p
  { version := if x.badVersion.isSome then 0 else 1, caps := 7, device := s.deviceId, port := p,
    role := s.part.profile.portRole.getD p 0, lanes := x.working, fresh := x.fresh, rxNext := x.rxNext,
    credits := advertised }

def State.sendInit (s : State) (p : Nat) : State := s.sendFlit p fkInit 0 0 false (s.ownInit p).encode

/-- Begins INIT on the lanes given, in which a due shot of row 0x05 spoils VERSION (R468). -/
def State.beginInit (s : State) (p lanes : Nat) : State :=
  let s1 := s.onPort p fun x => { x with working := lanes, lastInit := none, initCount := 0 }
  let s2 := match s1.shoot 0x05 (portChannel p) with
    | some (s2, _, _, m) => s2.onPort p fun x => { x with badVersion := some m }
    | none => s1
  s2.sendInit p

/-- Enters RECOVER, which keeps replay and receive state (R371). -/
def State.recover (s : State) (p : Nat) : State :=
  match (s.port p).state with
  | .active | .init => (s.portEnter p .recover).sendInit p
  | .recover => (s.onPort p fun x => { x with lastInit := none, initCount := 0 }).sendInit p
  | _ => s

/-- A failed INIT returns the port to DETECT (R364); after a retrain its port is charged (R425). -/
def State.initFail (s : State) (p : Nat) : State :=
  let x := s.port p
  let s1 := (s.portEnter p .detect).clzEvent F.CLZ_EVENT_INIT_FAIL p
  let s2 := if x.full || x.badVersion.isSome then
      (s1.charge (portChannel p) .pue (s1.linkRecord 0x05 p 0 1) (x.badVersion.getD .natural)).1
    else s1
  s2.onPort p fun x => { x with full := false, badVersion := none }

/-! ## Windows (R387, R393) -/

def State.winArmed (s : State) (p w : Nat) : Bool :=
  s.fld F.CLZ_WIN_CFG_STATE p w == 1 || s.fld F.CLZ_WIN_CFG_STATE p w == 2

/-- Effective length of a window on `width` lanes. -/
def State.winLen (s : State) (p w width : Nat) : Nat := s.reg .CLZ_WIN_LEN p w * 4 / max 1 width

/-- The port's width now. -/
def State.portWidth (s : State) (p : Nat) : Nat := laneWidth (s.port p).agreed

/-- The conditions of R387 for a window beside others that are armed. -/
def State.winFits (s : State) (p w width : Nat) (others : List Nat) : Bool :=
  let per := s.reg .CLZ_WIN_PERIOD p
  let off := fun w => s.reg .CLZ_WIN_OFFSET p w
  let len := fun w => s.winLen p w width
  let offers := match (s.port p).peer with
    | some i => bit i.caps 2 == 1
    | none => false
  width != 0 && per != 0 && off w + len w ≤ per && s.fld F.CLZ_WIN_CFG_FLOW p w != 0 && offers &&
    others.all fun o => off o + len o ≤ off w || off w + len w ≤ off o

/-- Flow messages whose window is no longer armed leave as unscheduled traffic (R389). -/
def State.releaseFlows (s : State) (p : Nat) : State :=
  let go := (s.port p).flows.filter fun m => !s.armedFlow p m.flow
  let s1 := s.onPort p fun x => { x with flows := x.flows.filter fun m => s.armedFlow p m.flow }
  forEach go s1 fun s m =>
    let vc := (m.hdr?.map (·.vc)).getD 0
    (s.sendLink p vc m).addFld F.CLZ_WIN_MISS_COUNT 1 p

/-- What a rescaled or cancelled window tells (R393). -/
def State.winNotify (s : State) (f : Fld) (p w state : Nat) : State :=
  let s1 := s.setFld F.CLZ_WIN_CFG_STATE state p w
  let s2 := if s1.fld F.CLZ_WIN_NOTIFY_VALID p w = 1 then
      (s1.signalTokens (s1.fld F.CLZ_WIN_NOTIFY_HALL p w) (s1.fld F.CLZ_WIN_NOTIFY_TQ p w) 8191 1).1
    else s1
  s2.clzEvent f p

/-- Closes an open window that is no longer armed. -/
def State.closeUnarmed (s : State) (p : Nat) : State :=
  match (s.port p).openWindow with
  | some w => if s.winArmed p w then s else s.onPort p fun x => { x with openWindow := none }
  | none => s

def State.cancelWindow (s : State) (p w : Nat) : State :=
  ((s.winNotify F.CLZ_EVENT_WIN_CANCEL p w 3).closeUnarmed p).releaseFlows p

/-- Cancels every armed window of a port (R437). -/
def State.cancelWindows (s : State) (p : Nat) : State :=
  forEach (List.range 16) s fun s w => if s.winArmed p w then s.cancelWindow p w else s

/-- Inserts a window in increasing OFFSET. -/
def State.insertWin (s : State) (p w : Nat) : List Nat → List Nat
  | [] => [w]
  | x :: r => if s.reg .CLZ_WIN_OFFSET p w < s.reg .CLZ_WIN_OFFSET p x then w :: x :: r else x :: s.insertWin p w r

/-- Re-evaluates the armed windows at a new width (R393). -/
def State.evalWindows (s : State) (p old new : Nat) : State :=
  let armed := ((List.range 16).filter (s.winArmed p)).foldl (fun l w => s.insertWin p w l) []
  (armed.foldl (fun (a : State × List Nat) w =>
    if a.1.winFits p w new a.2 then
      (if a.1.winLen p w old = a.1.winLen p w new then a.1
        else a.1.winNotify F.CLZ_EVENT_WIN_RESCALE p w 2, a.2 ++ [w])
    else (a.1.cancelWindow p w, a.2)) (s, [])).1

/-- Whether the port island's replica lies in a window's span (R387, R388). -/
def State.inSpan (s : State) (p w : Nat) : Bool :=
  let per := s.reg .CLZ_WIN_PERIOD p
  let start := s.reg .CLZ_WIN_BASE_LO p + 2 ^ 32 * s.reg .CLZ_WIN_BASE_HI p + s.reg .CLZ_WIN_OFFSET p w
  let now := s.now (64 + p)
  per != 0 && start ≤ now && (now - start) % per < s.winLen p w (s.portWidth p)

/-- R388: a window opens. -/
def doWindowOpen (p w : Nat) (s : State) : State :=
  if (s.port p).state = .active && s.winArmed p w && s.inSpan p w then
    s.onPort p fun x => { x with openWindow := some w }
  else s

/-- R388: the open window closes at its end. -/
def doWindowClose (p : Nat) (s : State) : State :=
  match (s.port p).openWindow with
  | some w => if s.inSpan p w then s else s.onPort p fun x => { x with openWindow := none }
  | none => s

/-! ## Bring-up (R364) -/

def doLaneSignalDetect (p : Nat) (s : State) : State :=
  if (s.port p).state = .detect && s.lanesUsable p != 0 then s.portEnter p .train else s

def doLinkTrainingDone (p : Nat) (s : State) : State :=
  if (s.port p).state = .train then s.portEnter p .lock else s

/-- Lock on every lane leads to INIT; in RECOVER it brings lanes back that were retrained (log 49). -/
def doFecLockDone (p : Nat) (s : State) : State :=
  let lanes := s.lanesUsable p
  if lanes = 0 then s
  else
    match (s.port p).state with
    | .lock => ((s.onPort p fun x => { x with laneFails := [] }).portEnter p .init).beginInit p lanes
    | .recover => s.beginInit p lanes
    | _ => s

/-- Lanes that failed TRAIN or LOCK; three failures in succession retire a lane (R429). -/
def State.laneFailures (s : State) (p failed : Nat) : State :=
  forEach (List.range 4) s fun s l =>
    let old := (s.port p).laneFails.getD l 0
    let n := if bit failed l = 1 && bit (s.lanesAvail p) l = 1 then old + 1 else 0
    let s1 := s.onPort p fun x =>
      let f := if x.laneFails.isEmpty then [0, 0, 0, 0] else x.laneFails
      { x with laneFails := f.set l n }
    if n = 3 then s1.hardSignature (laneChannel p l) 0x03 0 else s1

/-- R364: a step exceeds its limit; `failed` are the lanes that did not complete it. INIT after a full retrain in
RECOVER is given the three limits together (log 49). -/
def doBringupStepTimeout (p failed : Nat) (s : State) : State :=
  let x := s.port p
  let past := fun n => n ≤ s.time.tick - x.since
  let back := fun (s : State) => (s.portEnter p .detect).clzEvent F.CLZ_EVENT_INIT_FAIL p
  match x.state with
  | .train => if past 500000000 then (back s).laneFailures p failed else s
  | .lock => if past 10000000 then (back s).laneFailures p failed else s
  | .init => if past 1000000 then s.initFail p else s
  | .recover => if x.full && past 511000000 then s.initFail p else s
  | _ => s

/-! ## Replay (R369 to R372) -/

/-- Sends a DATA flit of the replay buffer. -/
def State.sendTx (s : State) (p : Nat) (t : TxFlit) : State := s.sendFlit p fkData t.seq t.cont t.win t.slots

/-- A flit to be sent again: a time message in it takes fresh timestamps (R386). -/
def State.restamp (s : State) (p : Nat) (t : TxFlit) : State × TxFlit :=
  if t.cont = 0 && 8 ≤ byteAt t.slots 0 % 16 && byteAt t.slots 0 % 16 ≤ 12 then
    match LinkMsg.decode t.slots with
    | some m =>
      let (s1, m1) := s.stampOut p m
      (s1, { t with slots := m1.encode ++ t.slots.drop 16 })
    | none => (s, t)
  else (s, t)

/-- Resends every unacknowledged DATA flit (R370). -/
def State.resendAll (s : State) (p : Nat) : State :=
  let x := s.port p
  if x.unacked.isEmpty || x.state != .active then s
  else
    let s1 := (s.setPort p { x with unacked := [], progress := s.time.tick }).addFld F.CLZ_REPLAYS_COUNT 1 p
    forEach x.unacked s1 fun s t =>
      let (s1, t1) := s.restamp p t
      let t2 := { t1 with firstResend := some (t1.firstResend.getD s.time.tick) }
      (s1.onPort p fun x => { x with unacked := x.unacked ++ [t2] }).sendTx p t2

/-- R370: no ACK progress for 2 µs. -/
def doAckProgressTimeout (p : Nat) (s : State) : State :=
  if 2000 ≤ s.time.tick - (s.port p).progress then s.resendAll p else s

/-- Messages of this device's agents in DATA flits: agent and PSEQ. -/
def State.ownMessages (s : State) (l : List TxFlit) : List (Nat × Nat) :=
  l.filterMap fun t =>
    let h := LongHdr.decode t.slots
    let m := byteAt t.slots 0 % 16
    if t.cont = 0 && 1 ≤ m && m ≤ 3 && h.src == s.deviceId then some (h.agent, h.pseq) else none

/-- The cause slots that the loss of flits fills (R431). -/
def State.causeLost (s : State) (l : List TxFlit) (id : Nat) : State :=
  forEach (s.ownMessages l) s fun s m =>
    match s.mem.unanswered.find? fun u => u.agent == m.1 && u.pseq == m.2 with
    | some u =>
      match u.copy with
      | some c => s.onJob c fun j => { j with cause := if j.cause = 0 then id else j.cause }
      | none => s.onAnn (m.1 - 72) fun r => { r with cause := if r.cause = 0 then id else r.cause }
    | none => s

/-- Discards a port's replay buffer and receive state (R372). -/
def State.discardReplay (s : State) (p id : Nat) : State :=
  (s.causeLost (s.port p).unacked id).onPort p fun x =>
    { x with unacked := [], partialMsg := [], partialWin := false, nakAt := none, fresh := true }

/-- R372: replay gives up. -/
def doReplayGiveUp (p : Nat) (s : State) : State :=
  let x := s.port p
  let late := x.unacked.any fun t => match t.firstResend with
    | some n => decide (20000 ≤ s.time.tick - n)
    | none => false
  let due := (x.state == .active && late) || (x.state == .recover && !x.fresh && decide (20000 ≤ s.time.tick - x.since))
  if due then
    let (s1, id) := s.charge (portChannel p) .tue (s.linkRecord 0x04 p 0 x.unacked.length)
    let s2 := ((s1.discardReplay p id).onPort p fun x => { x with full := true }).clzEvent F.CLZ_EVENT_REPLAY_ABANDON p
    s2.recover p
  else s

/-! ## INIT completion (R365, R371, R372) -/

/-- A FRESH start acts on the stairwell as a change of the trees on that port (R255, R372). -/
def State.stairFresh (s : State) (p : Nat) : State :=
  let mine := s.sync.landings.filter fun q => q.2.valid && q.2.system
  forEach mine s fun s q =>
    let hall := q.1 / 4096
    let l := q.1 % 4096
    let x := s.landing hall l
    let t := s.tree x.tree
    let x1 := { x with arrivals := x.arrivals.filter fun a => !(a.kind == .counted && a.agent == childAgent p) }
    let s1 := s.setLanding hall l x1
    if x1.localDone && x1.completed.isNone && t.parentValid && t.parentPort = p then s1.sendAscent x1 p true else s1

/-- INIT completes: width, role, credits and replay are settled, and the port is ACTIVE. -/
def State.initDone (s : State) (p : Nat) (i : InitInfo) : State :=
  let x := s.port p
  let agreed := x.working &&& i.lanes
  let used := lanesUsed agreed
  if used = 0 then s.initFail p
  else
    let own := s.part.profile.portRole.getD p 0
    let fresh := x.fresh || i.fresh
    let old := lanesUsed x.agreed
    let keep := if fresh then [] else x.unacked.filter fun t => (t.seq + 65536 - i.rxNext) % 65536 < 32768
    let s1 := s.causeLost (if fresh then x.unacked else []) 0
    let s2 := s1.setPort p { x with
      agreed := agreed, role := if own = 2 || i.role = 2 then 2 else own, peer := some i, fresh := false, full := false,
      badVersion := none, txSeq := if fresh then 0 else x.txSeq, rxNext := if fresh then 0 else x.rxNext,
      rxAny := x.rxAny && !fresh, partialMsg := if fresh then [] else x.partialMsg, nakAt := none,
      unacked := keep, credits := if fresh then i.credits else x.credits,
      owed := if fresh then [] else x.owed, progress := s.time.tick }
    let s3 := if fresh then s2.stairFresh p else s2
    let s4 := match x.peer with
      | some j => if j.device != i.device || j.port != i.port then (s3.clzEvent F.CLZ_EVENT_PEER_CHANGE p).exchangeRestart p
        else s3
      | none => s3
    let s5 := s4.portEnter p .active
    let changed := laneWidth x.agreed != laneWidth agreed
    let s6 := if changed || bit i.caps 2 = 0 then s5.evalWindows p (laneWidth x.agreed) (laneWidth agreed) else s5
    let s7 := if changed && x.agreed != 0 then s6.exchangeRestart p else s6
    let lost := (List.range 4).any fun l => bit old l == 1 && bit agreed l == 0 && !s.retired (laneChannel p l)
    let s8 := if laneWidth agreed < laneWidth x.agreed && lost then s7.clzEvent F.CLZ_EVENT_DEGRADE p else s7
    s8.resendAll p

/-- A good INIT flit (R365). In ACTIVE one that says something new shows the peer in RECOVER (log 49). -/
def State.takeInit (s : State) (p : Nat) (i : InitInfo) : State :=
  let x := s.port p
  let go := fun (s : State) =>
    if i.version != 1 then s.initFail p
    else
      let n := if (s.port p).lastInit = some i then (s.port p).initCount + 1 else 1
      let s1 := s.onPort p fun x => { x with lastInit := some i, initCount := n }
      if 4 ≤ n then s1.initDone p i else s1
  match x.state with
  | .init | .recover => go s
  | .active => if x.peer = some i then s else go (s.recover p)
  | _ => s

/-! ## Receiving -/

/-- A received message of port `p` goes on: to the concourse, to another port, to the stairwell or to the time
block (R375, R377, R379, R382, R391). -/
def State.takeMessage (s : State) (p vc : Nat) (win : Bool) (m : LinkMsg) : State :=
  let x := s.port p
  let free := fun (s : State) => s.creditSlots p (slotPool vc win) m.slots
  let drop := fun (s : State) => (free s).addFld F.CLZ_DROPPED_COUNT 1 p
  let stair := match x.peer with
    | some i => bit i.caps 1 == 1
    | none => false
  let routed := fun (dst : Nat) (deliver : State → State) =>
    if x.role = 2 then drop s
    else if dst = s.deviceId then free (deliver s)
    else s.forward m (some (p, vc)) win
  let flight := fun (h : LongHdr) (k : FlightKind) (d : List Nat) (s : State) => s.onMem fun y => { y with
    inflight := y.inflight ++ [{ origin := .link p, kind := k, dst := s.deviceId * 2 ^ 47 + h.addr, data := d,
                                 poison := h.poison, counter := h.counter, vi := 0, job := h.job, hdr := some h,
                                 waiting := false }] }
  let time := fun (s : State) =>
    (free s).onClz fun c => { c with inbox := c.inbox ++ [{ port := p, msg := m, stamp := s.stamp (64 + p) }] }
  match m with
  | .write h d => routed h.dst (flight h .write d)
  | .atomic h d => routed h.dst (flight h (.atomic h.afmt h.aop) d)
  | .readReq h => routed h.dst fun s => s.onMem fun y => { y with readReqs := y.readReqs ++ [m] }
  | .readCpl h _ => routed h.dst fun s => s.onMem fun y => { y with readCpls := y.readCpls ++ [m] }
  | .ack _ st ag _ dst pseq =>
    routed dst fun s => s.onMem fun y => { y with acks := y.acks ++ [{ origin := .remote ag pseq, status := st }] }
  | .ascent ph rs t n =>
    if stair then (free s).onSync fun y => { y with net := y.net ++ [.ascent p ph rs t n] } else drop s
  | .descent ph rs t n =>
    if stair then (free s).onSync fun y => { y with net := y.net ++ [.descent p ph rs t n] } else drop s
  | .reserved _ => drop s
  | _ => time s

/-- Takes the messages that begin in some slots; what is left is the start of a message that continues. -/
def State.takeSlots (s : State) (p : Nat) (win : Bool) : (fuel : Nat) → (slots : List Nat) → State
  | 0, _ => s
  | fuel + 1, slots =>
    if slots.length < 16 then s
    else
      let n := 16 * slotsOf slots
      if byteAt slots 0 % 16 = 0 then s.takeSlots p win fuel (slots.drop 16)
      else if slots.length < n || (slots.length < 32 && 32 ≤ n) then
        s.onPort p fun x => { x with partialMsg := slots, partialWin := win }
      else
        match LinkMsg.decode (slots.take n) with
        | some m => (s.takeMessage p (msgVc slots) win m).takeSlots p win fuel (slots.drop n)
        | none => s.takeSlots p win fuel (slots.drop n)

/-- A DATA flit in sequence (R367, R374). -/
def State.takeData (s : State) (p : Nat) (h : FlitHdr) (payload : List Nat) : State :=
  let x := s.port p
  let s1 := s.setPort p { x with
    rxNext := (x.rxNext + 1) % 65536, rxAny := true, nakAt := none, partialMsg := [], partialWin := false }
  let s2 := if h.cont = 0 || x.partialMsg.isEmpty then s1
    else s1.takeSlots p x.partialWin 32 (x.partialMsg ++ payload.take (16 * h.cont))
  s2.takeSlots p h.win 16 (payload.drop (16 * h.cont))

/-- The first NAK while a flit is missing (R370). -/
def State.nakFirst (s : State) (p : Nat) : State :=
  if (s.port p).nakAt.isSome then s
  else (s.onPort p fun x => { x with nakAt := some s.time.tick }).sendFlit p fkNak 0 0 false []

/-- A flit fails its CRC or lies in an uncorrectable codeword (R368, R425). `lane` is the lane charged. -/
def State.badFlit (s : State) (p lane : Nat) (fec : Bool) (mark : Mark) : State :=
  let s1 := s.addFld F.CLZ_CRC_ERR_COUNT 1 p
  let s2 := if fec then s1.addFld F.CLZ_FEC_UE_COUNT 1 p else s1
  let s3 := (s2.charge (laneChannel p lane) .tue (s2.linkRecord 0x02 p lane 1) mark).1
  if (s3.port p).state = .active then s3.nakFirst p else s3

/-- Acknowledgement and credit returns of a good flit (R369, R374). -/
def State.takeHeader (s : State) (p : Nat) (h : FlitHdr) : State :=
  s.onPort p fun x =>
    let keep := if h.ackv then x.unacked.filter fun t => !((h.ack + 65536 - t.seq) % 65536 < 32768) else x.unacked
    let add := fun (l : List Nat) (c : Nat × Nat) => if c.1 < 9 then l.set c.1 (l.getD c.1 0 + c.2) else l
    { x with unacked := keep, credits := add (add x.credits h.a) h.b,
             progress := if keep.length < x.unacked.length then s.time.tick else x.progress }

/-- Corrected codewords on a lane (R425): an event for every 1,048,576. -/
def State.correctedWords (s : State) (p lane n : Nat) (mark : Mark) : State :=
  let s1 := s.addFld F.CLZ_FEC_CE_COUNT n p
  let total := (s1.port p).laneCe.getD lane 0 + n
  let s2 := s1.onPort p fun x =>
    let l := if x.laneCe.isEmpty then [0, 0, 0, 0] else x.laneCe
    { x with laneCe := l.set lane (total % 1048576) }
  if 1048576 ≤ total then
    (s2.charge (laneChannel p lane) .ce (s2.linkRecord 0x01 p lane (total / 1048576 * 1048576 % 2 ^ 32)) mark).1
  else s2

/-- The lanes a port uses now. -/
def State.usedLanes (s : State) (p : Nat) : List Nat :=
  (List.range 4).filter fun l => bit (lanesUsed (s.port p).agreed) l == 1

/-- Shots of row 0x01 on the lanes of a port (R468). -/
def State.fecShots (s : State) (p : Nat) : State :=
  forEach (s.usedLanes p) s fun s l =>
    match s.shoot 0x01 (laneChannel p l) with
    | some (s1, _, n, m) => s1.correctedWords p l (n % 65536) m
    | none => s

/-- A shot of row 0x02 on one of the lanes given. -/
def State.wordShot (s : State) (p : Nat) : List Nat → Option (State × Nat × Mark)
  | [] => none
  | l :: rest =>
    match s.shoot 0x02 (laneChannel p l) with
    | some (s1, _, _, m) => some (s1, l, m)
    | none => s.wordShot p rest

/-- A flit arrives on port `p`; `fec` says that an uncorrectable codeword touches it. A flit with no lane to name
is charged to the lowest lane in use (log 47). -/
def State.receiveFlit (s : State) (p : Nat) (flit : List Nat) (fec : Bool) : State :=
  let st := (s.port p).state
  if st != .init && st != .active && st != .recover then s
  else
    let s0 := s.fecShots p
    let low := (s0.usedLanes p).headD 0
    match if fec then none else flitHdr? flit with
    | none => s0.badFlit p low fec .natural
    | some h =>
      let isData := h.kind == fkData
      if isData && st == .active && decide (s0.time.tick < tget 0 s0.inj.portDiscard p) then s0
      else
        match if isData && st == .active then s0.wordShot p (s0.usedLanes p) else none with
        | some (s1, l, m) => s1.badFlit p l true m
        | none =>
          let s1 := if st = .init then s0 else s0.takeHeader p h
          if h.kind = fkInit then s1.takeInit p (.decode (flitPayload flit))
          else if st != .active then s1
          else if h.kind = fkNak then s1.resendAll p
          else if isData then
            let next := (s1.port p).rxNext
            if h.seq = next then (s1.takeData p h (flitPayload flit)).sendIdle p
            else if (next + 65536 - h.seq) % 65536 < 32768 then s1.sendIdle p
            else s1.nakFirst p
          else s1

/-- R365. -/
def doInitFlitReceive (p : Nat) (flit : List Nat) (s : State) : State := s.receiveFlit p flit false

/-- R370. -/
def doDataFlitReceive (p : Nat) (flit : List Nat) (fec : Bool) (s : State) : State := s.receiveFlit p flit fec

/-- R369. -/
def doControlFlitReceive (p : Nat) (flit : List Nat) (fec : Bool) (s : State) : State := s.receiveFlit p flit fec

/-- R370. -/
def doNakReceive (p : Nat) (flit : List Nat) (fec : Bool) (s : State) : State := s.receiveFlit p flit fec

/-- R370: the NAK is repeated every 1 µs. -/
def doNakRepeatTimer (p : Nat) (s : State) : State :=
  match (s.port p).nakAt with
  | some n =>
    if (s.port p).state = .active && 1000 ≤ s.time.tick - n then
      (s.onPort p fun x => { x with nakAt := some s.time.tick }).sendFlit p fkNak 0 0 false []
    else s
  | none => s

/-! ## Lock loss (R371) -/

/-- A lane loses lock. -/
def State.loseLane (s : State) (p l : Nat) (mark : Mark) : State :=
  let x := s.port p
  let used := (s.usedLanes p).contains l
  if x.state != .active && x.state != .recover && x.state != .init then s
  else
    let s1 := s.onPort p fun x => { x with working := clearBit x.working l }
    let s2 := (s1.charge (laneChannel p l) .pue (s1.linkRecord 0x03 p l 1) mark).1
    if used || x.state = .init then s2.recover p else s2

def doLaneLockLoss (p l : Nat) (s : State) : State := s.loseLane p l .natural

/-- A shot of row 0x03 holds a lane out of lock for `us` µs. -/
def State.holdLane (s : State) (lane us : Nat) (mark : Mark) : State :=
  (s.onInj fun i => { i with laneHold := tset 0 i.laneHold lane (s.time.tick + us * 1000) }).loseLane (lane / 4) (lane % 4) mark

/-! ## Transmission (R375, R388) -/

/-- What a port sends next: the head of a VC, or the first message of the open window's flow. -/
inductive Pick
  | queue (vc : Nat)
  | flow (f : Nat)
  deriving DecidableEq, Repr

/-- Whether the head of a VC is covered by credits. -/
def Port.covered (x : Port) (vc : Nat) : Bool :=
  match (tget [] x.queues vc).head? with
  | some m => m.slots ≤ x.credits.getD vc 0
  | none => false

def State.pickMessage (s : State) (p : Nat) : Option Pick :=
  let x := s.port p
  if x.covered 7 then some (.queue 7)
  else if x.covered 6 then some (.queue 6)
  else
    match x.openWindow with
    | some w =>
      let f := s.fld F.CLZ_WIN_CFG_FLOW p w
      match x.flows.find? fun m => m.flow == f with
      | some m => if s.inSpan p w && m.slots ≤ x.credits.getD 8 0 then some (.flow f) else none
      | none => none
    | none =>
      if x.role = 1 then
        (((upTo 1 6).map fun k => (x.lastVc + k) % 6).find? x.covered).map .queue
      else none

/-- Takes the picked message out of its queue and consumes its credits. -/
def Port.takePick (x : Port) (k : Pick) : Option (LinkMsg × Port) :=
  let pay := fun (x : Port) (pool : Nat) (m : LinkMsg) =>
    { x with credits := x.credits.set pool (x.credits.getD pool 0 - m.slots) }
  match k with
  | .queue vc =>
    match tget [] x.queues vc with
    | m :: rest =>
      some (m, { (pay x vc m) with queues := tset [] x.queues vc rest, lastVc := if vc < 6 then vc else x.lastVc })
    | [] => none
  | .flow f =>
    match x.flows.find? fun m => m.flow == f with
    | some m => some (m, { (pay x 8 m) with flows := x.flows.erase m })
    | none => none

/-- Sends slots in DATA flits; `cont` slots of the first continue the message before it. -/
def State.sendData (s : State) (p : Nat) (win : Bool) : (fuel cont : Nat) → (slots : List Nat) → State
  | 0, _, _ => s
  | fuel + 1, cont, slots =>
    if slots.isEmpty then s
    else
      let x := s.port p
      let t : TxFlit := { seq := x.txSeq, slots := slots.take 240, cont := cont, win := win, firstResend := none }
      let s1 := (s.setPort p { x with
        txSeq := (x.txSeq + 1) % 65536, unacked := x.unacked ++ [t],
        progress := if x.unacked.isEmpty then s.time.tick else x.progress }).sendTx p t
      let rest := slots.drop 240
      s1.sendData p win fuel (min 15 (rest.length / 16)) rest

/-- DATA flits that a message takes. -/
def LinkMsg.flits (m : LinkMsg) : Nat := (m.slots + 14) / 15

/-- R375: the port sends one message, which begins a DATA flit (log 50) and for which the replay buffer of 4,096 flits
has room (R369). -/
def doMessageTransmit (p : Nat) (s : State) : State :=
  let x := s.port p
  if x.state != .active then s
  else
    match s.pickMessage p with
    | none => s
    | some k =>
      match x.takePick k with
      | none => s
      | some (m, x1) =>
        if 4096 < x.unacked.length + m.flits then s
        else
          let (s1, m1) := (s.setPort p x1).stampOut p m
          s1.sendData p x.openWindow.isSome 3 0 m1.encode

/-! ## Waiting too long (R382) -/

/-- R382: messages that have waited 20 µs for an ACTIVE port are dropped. -/
def doRouteWaitTimeout (p : Nat) (s : State) : State :=
  let old := fun (w : Ingress) => decide (20000 ≤ s.time.tick - w.since)
  let gone := (s.port p).ingress.filter old
  if gone.isEmpty then s
  else
    (forEach gone (s.onPort p fun x => { x with ingress := x.ingress.filter fun w => !old w }) fun s w =>
      (s.dropMsg p).leaveIngress p w).sendIdle p

/-! ## Writes of the port's registers (R364, R366, R392) -/

/-- `CLZ_PORT_CTRL` has been written; `old` is its value before, `written` what was written. -/
def State.portCtrlWritten (s : State) (p old written : Nat) : State :=
  let x := s.port p
  let en := F.CLZ_PORT_CTRL_ENABLE
  let s1 :=
    if x.state = .retired then s
    else if en.of old = 0 && s.fld en p = 1 && x.state = .off && s.part.profile.portRole.getD p 0 != 0 then
      (s.onPort p fun x => { x with role := s.part.profile.portRole.getD p 0 }).portEnter p .detect
    else if s.fld en p = 0 then s.portEnter p .off
    else s
  let s2 := if F.CLZ_PORT_CTRL_LANE_OFF.of old != s1.fld F.CLZ_PORT_CTRL_LANE_OFF p then
      ((s1.onPort p fun x => { x with working := x.working &&& s1.lanesAvail p }).recover p).checkLanes p
    else s1
  let s3 := if F.CLZ_PORT_CTRL_RETRAIN.of written = 1 then
      (s2.onPort p fun x => if x.state == .active || x.state == .recover || x.state == .init then { x with full := true } else x).recover p
    else s2
  if F.CLZ_PORT_CTRL_RETIRE.of written = 1 then
    s3.oweRetire { channel := portChannel p, since := s3.time.tick, hard := true, commanded := true, rootId := 0,
                   detector := 0, injected := false }
  else s3

/-- `CLZ_WIN_CFG`[w] has been written (R387). -/
def State.winCfgWritten (s : State) (p w : Nat) : State :=
  let set := fun (s : State) (st refused : Nat) =>
    (s.setFld F.CLZ_WIN_CFG_STATE st p w).setFld F.CLZ_WIN_CFG_REFUSED refused p w
  let others := (List.range 16).filter fun o => o != w && s.winArmed p o
  let s1 := if s.fld F.CLZ_WIN_CFG_ENABLE p w = 1 then
      if s.winFits p w (s.portWidth p) others then set s 1 0 else set s 0 1
    else set s 0 0
  (s1.closeUnarmed p).releaseFlows p

/-- Whether `CLZ_WIN_BASE` and `CLZ_WIN_PERIOD` of a port ignore writes (R387). -/
def State.winLocked (s : State) (p : Nat) : Bool := (List.range 16).any (s.winArmed p)

end Sys2Proof.Machine
end

