-- ==== Sys2Proof/Machine/Retire.lean ====
section
/-! DEFINITION. What the retirement of a channel does (R429, R434 to R438). -/

namespace Sys2Proof.Machine

/-! ## The channel's place -/

/-- Half-hall of an alcove number, spares included (R424). -/
def alcovePlace (n : Nat) : Nat := if n < 256 then n / 16 else n - 256

/-- The partition of a channel, 0xFF when none. -/
def State.channelPart (s : State) (ch : Nat) : Nat :=
  let i := chanIndex ch
  let half := match chanKind ch with
    | 0 => some (portHalf (i / 4))
    | 1 => some (portHalf i)
    | 2 => some (channelHalf (i / 2))
    | 3 => some (channelHalf i)
    | 4 => some (alcovePlace i)
    | 5 => some (alcovePlace (i / 4))
    | 6 => some (engineHalf i)
    | _ => none
  match chanKind ch, half with
  | 8, _ => (s.annealerPart i).getD 0xFF
  | _, some j => (s.halfPart j).getD 0xFF
  | _, none => 0xFF

/-- LOCATION of a retirement's record (R442). -/
def State.retireLocation (s : State) (ch : Nat) : List Nat :=
  let i := chanIndex ch
  match chanKind ch with
  | 0 => [i / 4, i % 4, widthCode (clearBit (s.port (i / 4)).working (i % 4))]
  | 1 => [i, 0, 0]
  | 2 => (s.sectorLocation (sectorKey (i / 2) 0 (i % 2))).1
  | 3 => (s.sectorLocation (sectorKey i 0 0)).1
  | 7 => [i / 24, i % 24, s.bridgeWidth (i / 24) - 1]
  | _ => []

/-- Whether a detector's shots name their target as a channel (R468). -/
def channelRow (det : Nat) : Bool := (1 ≤ det && det ≤ 0x13) || det == 0x20 || det == 0x23 || det == 0x24

/-- The retirement list takes a channel (R487). -/
def State.listRetired (s : State) (ch : Nat) : State :=
  if s.boot.retireA.contains ch then s
  else if s.boot.retireA.length < 1024 then
    s.onBoot fun b => { b with retireA := b.retireA ++ [ch], retireB := b.retireB ++ [ch] }
  else s.raise F.BOOT_EVENT_LIST_FULL 109

/-! ## Stacked memory (R222, R334) -/

/-- Device offsets at which the pieces of a partition's map begin. -/
def PartMap.starts (m : PartMap) : List Nat :=
  let base := m.baseHH * gib24
  let striped := (16 - m.localN) * sixteenthLines * 256 * m.chans.length
  (m.halfHalls.foldl (fun (a : List Nat × Nat) n =>
    (a.1 ++ [a.2], a.2 + m.localN * sixteenthLines * 256 * (m.chans.filter fun c => channelHalf c == n).length))
    ([], base + striped)).1

/-- The first offset of a region that lies on HBM channel `c`, looked for where each piece of the map begins in
it: 512 granules of a piece reach every channel of the piece. -/
def State.regionOn (s : State) (r : Region) (c : Nat) : Option Nat :=
  let starts := r.base / 256 * 256 :: ((s.hbm.maps.flatMap fun p => p.2.starts).filter fun o =>
    r.base < o && o < r.base + r.size)
  starts.findSome? fun o =>
    ((List.range 512).map fun i => o + 256 * i).find? fun o =>
      o < r.base + r.size && (s.placeOf o).map (·.chan) == some c

/-- Regions with a sector on a retired channel enter quarantine. -/
def State.quarantineOn (s : State) (c : Nat) : State :=
  forEach s.part.regions s fun s r =>
    match s.regionOn r c with
    | some o => s.quarantine r.num (max o r.base)
    | none => s

/-- Retires pseudo-channels of an HBM channel: what its write buffer holds is dropped. -/
def State.retireStack (s : State) (c : Nat) (pc0 pc1 whole : Bool) : State :=
  let gone := fun (k : Nat) => keyChan k == c && (if keyPc k = 1 then pc1 else pc0)
  let x := s.channel c
  let s1 := s.setChannel c { x with
    pc0Retired := x.pc0Retired || pc0, pc1Retired := x.pc1Retired || pc1,
    state := if whole then .retired else x.state, wiping := x.wiping && !whole }
  let s2 := s1.onHbm fun h => { h with
    retries := h.retries.filter fun r => !gone r.key, writebacks := h.writebacks.filter fun k => !gone k }
  let s3 := if whole && s2.fld F.TGEN_STATUS_STATE c = 1 then s2.tgenAbort c else s2
  s3.quarantineOn c

/-! ## Alcoves (R77, R174, R435, R436) -/

/-- The lost range of a walker; none when nothing is lost. -/
def Walker.lost (w : Walker) : List (Nat × Nat × Nat) :=
  if w.loaded then
    let r := (TileDesc.ofBytes w.desc).lost w.rank w.group w.done
    if r.2.2 = 0 then [] else [r]
  else []

/-- Ends a pause in progress of an operation that loses an alcove: saved ranks report what they lost, and the save
slots are freed (R436). -/
def State.pauseLost (s : State) (q i : Nat) : State :=
  match s.op? q i with
  | some o =>
    if o.pauseWanted then
      let lost := o.ranks.flatMap fun r => if r.saved.isSome then (s.alcove r.alcove).walker.lost else []
      (s.onOp q i fun o => { o with status := stPartial, lost := o.lost ++ lost }).freeSlots q i
    else s
  | none => s

/-- Alcove `n` stops for good; `id` is its record. -/
def State.retireAlcove (s : State) (n id : Nat) : State :=
  let x := s.alcove n
  let acks := (x.held.filter (·.last)).map fun w =>
    ({ origin := .engine w.engine w.copy w.packet, status := statusRetired } : AckNote)
  let s1 := ((s.setAlcove n { x with
      core := { x.core with state := .retired, wait := none, wb := [], busy := [], granted := false },
      streams := [], held := [], saving := false, pausePending := false, abortBy := none }).onMem fun m =>
      { m with acks := m.acks ++ acks }).onVst fun v => { v with images := tdel v.images n }
  let s2 := s1.cancelParties (· == .alcove n)
  match x.grant with
  | some g =>
    let s3 := s2.onOp g.queue g.op fun o => { o with
      ranks := o.ranks.mapIdx fun k r => if k = g.rank then { r with retired := true } else r,
      retiredCount := o.retiredCount + 1, cause := if o.cause = 0 then id else o.cause,
      lost := o.lost ++ (match o.ranks[g.rank]? with
        | some r => if r.reported then [] else x.walker.lost
        | none => []) }
    s3.pauseLost g.queue g.op
  | none => s2

/-! ## Copy engines (R438) -/

/-- The engine that adopts the copies of engine `e`. -/
def State.adopter (s : State) (e : Nat) : Option Nat :=
  let works := fun (x : Nat) => x != e && !(s.engine x).retired && !s.retired (channelId 6 x)
  let near := ((upTo (e / 4 * 4) 4).filter works).map fun x => (s.engine x).depth * 64 + x
  match near.min? with
  | some k => some (k % 64)
  | none =>
    match s.halfPart (engineHalf e) with
    | some p => ((s.partEngines p).filter works).min?
    | none => none

/-- Resends the unanswered packets of an adopted copy under the retired engine's numbers. -/
def State.resendAdopted (s : State) (id : Nat) : State :=
  forEach (s.mem.unanswered.filter fun u => u.copy == some id) s fun s u =>
    let u1 := { u with lastSend := s.time.tick, firstResend := u.firstResend.or (some s.time.tick) }
    (s.onMem fun m => { m with unanswered := m.unanswered.map fun y => if y = u then u1 else y }).forward
      (u.msg.setHdr fun h => { h with resend := true, hops := 0 }) none

/-- A copy of a retired engine that nothing can adopt fails, with the retirement as its cause. -/
def State.failCopy (s : State) (e id : Nat) (j : CopyJob) : State :=
  let s1 := s.onMem fun m => { m with unanswered := m.unanswered.filter fun u => u.copy != some j.id }
  (s1.copyError e 0x04 j.origin.tag).copyReport { j with error := 0x04, cause := if j.cause = 0 then id else j.cause }

/-- Copy engine `e` stops; `id` is its record. -/
def State.retireEngine (s : State) (e id : Nat) : State :=
  let x := s.engine e
  let caused := fun (j : CopyJob) => { j with cause := if j.cause = 0 then id else j.cause }
  let s0 := match x.burst with
    | some (a, b) => s.onMem fun m => { m with galleryPort := tdel (tdel m.galleryPort a) b }
    | none => s
  let s1 := s0.setEngine e { CopyEngine.reset with retired := true }
  let s1 := match s1.adopter e with
    | some a => s1.abortScan (channelId 6 a)
    | none => s1
  let jobs := x.running.toList ++ x.queue
  match s1.adopter e with
  | none => forEach jobs s1 fun s j => s.failCopy e id j
  | some a =>
    -- sources of what is not sent are read afresh
    let fresh := fun (j : CopyJob) => { caused j with
      packets := j.packets.map fun p => if p.sent || p.pseq.isSome then p else { p with data := none } }
    let y := s1.engine a
    let s2 := s1.setEngine a { y with
      queue := (x.running.toList.map fresh) ++ y.queue ++ x.queue.map fun j => if j.started then fresh j else caused j }
    let s3 := forEach (jobs.filter (·.started)) s2 fun s j => s.resendAdopted j.id
    doCopyStart a s3

/-! ## Annealers (R281) -/

/-- The annealer of hall `h` stops; its operation ends with `PARTIAL`. -/
def State.retireAnnealer (s : State) (h id : Nat) : State :=
  match s.annRun h with
  | some r =>
    ((s.setAnn h none).cancelParties (· == .annealer h)).onOp r.queue r.op fun o => { o with
      status := stPartial, engineDone := true, retiredCount := 1, sweepPoints := r.points,
      cause := if o.cause = 0 then id else o.cause }
  | none => s

/-! ## Bridges (R14, R16) -/

/-- The halls between two halls while every bridge works (R14). -/
def firstRoute (i j : Nat) : List Nat :=
  match (j + 8 - i) % 8 with
  | 2 => [(i + 1) % 8]
  | 3 => [(i + 4) % 8]
  | 5 => [(i + 4) % 8]
  | 6 => [(i + 7) % 8]
  | _ => []

/-- The route table's entry from hall `i` to hall `j`. -/
def State.route (s : State) (i j : Nat) : List Nat := (tfind s.mem.routes (8 * i + j)).getD (firstRoute i j)

/-- Whether a bridge with lanes left joins two halls. -/
def State.joined (s : State) (i j : Nat) : Bool :=
  (List.range 12).any fun b => (bridgeHalls b == (i, j) || bridgeHalls b == (j, i)) && s.bridgeWidth b != 0

/-- Whether a path of halls crosses working bridges only. -/
def State.pathWorks (s : State) : List Nat → Bool
  | i :: j :: r => s.joined i j && s.pathWorks (j :: r)
  | _ => true

/-- The shortest path, its intermediate halls lowest in order; at most three bridges. -/
def State.bestRoute (s : State) (i j : Nat) : Option (List Nat) :=
  let one := (List.range 8).map fun a => [a]
  let two := (List.range 8).flatMap fun a => (List.range 8).map fun b => [a, b]
  (([] :: one) ++ two).find? fun m => s.pathWorks (i :: m ++ [j])

/-- Rewrites every route that crosses a bridge without lanes. -/
def State.reroute (s : State) : State :=
  forEach (List.range 64) s fun s k =>
    let i := k / 8
    let j := k % 8
    if i = j || s.pathWorks (i :: s.route i j ++ [j]) then s
    else
      match s.bestRoute i j with
      | some m => s.onMem fun x => { x with routes := tins x.routes k m }
      | none => s

/-! ## Retirement -/

/-- The record of a retirement and what every retirement does (R434, R487). -/
def State.retireRecord (s : State) (x : OwedRetire) : State × Nat :=
  let ch := x.channel
  let s1 := s.listRetired ch
  let flags := (if x.commanded then 0 else if x.hard then flagHard else flagAuto) |||
    (if x.injected then flagInjected else 0)
  let (s2, id) := s1.record { RasRecord.blank with
    kind := kindRetired, detector := x.detector, channel := ch, rootId := x.rootId, partition := s1.channelPart ch,
    flags := flags, level := s1.fld F.RAS_BUCKET_LEVEL 0 ch, location := s1.retireLocation ch }
  let s3 := (s2.setFld F.RAS_BUCKET_RETIRED 1 0 ch).rasEvent F.RAS_EVENT_RETIRED
  let s4 := s3.cancelShots fun det target => target == ch && channelRow det
  let s5 := s4.onRas fun r => { r with owed := r.owed.filter fun y => y.channel != ch }
  (if x.commanded then s5.setFld F.RAS_RETIRE_STATUS_BUSY 0 else s5, id)

/-- What a channel does from the cycle of its retirement, bridges and matrix units apart (R434). -/
def State.retireEffect (s : State) (ch id : Nat) : State :=
  let i := chanIndex ch
  match chanKind ch with
  | 0 =>
    let p := i / 4
    let s1 := s.onPort p fun x => { x with working := clearBit x.working (i % 4) }
    ((s1.clzEvent F.CLZ_EVENT_DEGRADE p).recover p).checkLanes p
  | 1 => ((s.cancelWindows i).discardReplay i id).portEnter i .retired
  | 2 => s.retireStack (i / 2) (i % 2 == 0) (i % 2 == 1) false
  | 3 => s.retireStack i true true true
  | 4 => (s.abortScan ch).retireAlcove i id
  | 6 => (s.abortScan ch).retireEngine i id
  | 8 => (s.abortScan ch).retireAnnealer i id
  | _ => s

/-- Retires a channel (R434, R435, R16). -/
def State.retire (s : State) (x : OwedRetire) : State :=
  if s.retired x.channel || !isChannel x.channel then s
  else
    let ch := x.channel
    let (s1, id) := s.retireRecord x
    match chanKind ch with
    | 5 =>
      let alc := channelId 4 (chanIndex ch / 4)
      if s1.retired alc then s1
      else
        let (s2, id2) := s1.retireRecord { x with channel := alc, rootId := id, commanded := false }
        (s2.abortScan alc).retireAlcove (chanIndex ch / 4) id2
    | 7 =>
      let b := chanIndex ch / 24
      let s2 := s1.bridgeEvent b
      if s2.bridgeWidth b < 12 then
        (forEach ((upTo (24 * b) 24).filter fun l => !s2.retired (channelId 7 l)) s2 fun s l =>
          (s.retireRecord { x with channel := channelId 7 l, rootId := id, hard := false, commanded := false }).1).reroute
      else s2
    | _ => s1.retireEffect ch id

/-- R434: hall firmware carries out a retirement that is owed. -/
def doChannelRetire (ch : Nat) (s : State) : State :=
  match s.ras.owed.find? fun x => x.channel == ch with
  | some x => s.retire x
  | none => s

/-- The retirements owed to hard signatures, which fall in the cycle of detection (R429); one may bring the next. -/
def State.hardRetires (s : State) : (fuel : Nat) → State
  | 0 => s
  | fuel + 1 =>
    match s.ras.owed.find? (·.hard) with
    | some x => ((s.onRas fun r => { r with owed := r.owed.erase x }).retire x).hardRetires fuel
    | none => s

end Sys2Proof.Machine
end

