-- ==== Sys2Proof/Machine/Reset.lean ====
section
/-! DEFINITION. Virtual-interface, partition, partition-wide and warm resets (R340 to R342, R399, R471 to R474), spares
(R19), and what applying a stored profile changes (R338 to R340, R510). -/

namespace Sys2Proof.Machine

/-! ## Retired pages (R225, R419) -/

/-- The retired-page copies are made equal to the one with more valid entries, A when both have as many, and its
entries take effect under the maps in effect. -/
def State.loadPages (s : State) : State :=
  let t := if (validPages s.host.pagesA).length < (validPages s.host.pagesB).length then s.host.pagesB else s.host.pagesA
  let pages := (validPages t).filterMap fun x => (s.offsetOfLine (entryChan x.2) (entryLine x.2)).map (· / 4096)
  ((s.onHost fun h => { h with pagesA := t, pagesB := t }).onHbm fun h => { h with pages := pages.eraseDups }).setFld
    F.HBM_RETIRE_COUNT_ENTRIES (validPages t).length

/-! ## Maps (R210, R212) -/

/-- Whether HBM channel `c` works at a reset of its partition; one with a retired pseudo-channel is excluded. -/
def State.channelWorks (s : State) (c : Nat) : Bool :=
  let x := s.channel c
  x.state == .ready && !s.retired (channelId 3 c) && !x.excluded && !x.pc0Retired && !x.pc1Retired

/-- The map of partition `p` from here on. -/
def State.remap (s : State) (p : Nat) : State :=
  let hs := s.halfHalls p
  if hs.isEmpty then s.onHbm fun h => { h with maps := tdel h.maps p }
  else
    let own := hs.flatMap fun j => upTo (16 * j) 16
    let s1 := forEach own s fun s c =>
      let x := s.channel c
      if x.pc0Retired || x.pc1Retired then s.setChannel c { x with excluded := true } else s
    let lower := ((List.range 16).filter fun j => match s.halfPart j with
      | some q => q < p
      | none => false).length
    let m : PartMap :=
      { localN := min 16 (s.fld F.HBM_INTERLEAVE_LOCAL p), chans := own.filter s1.channelWorks, halfHalls := hs,
        baseHH := lower }
    s1.onHbm fun h => { h with maps := tset .empty h.maps p m }

/-- A reset of partition `p` holds its channels with TEST_REQ in TEST, and releases those without (R232). -/
def State.holdTests (s : State) (p : Nat) : State :=
  forEach ((s.halfHalls p).flatMap fun j => upTo (16 * j) 16) s fun s c =>
    let x := s.channel c
    let asked := s.fld F.HBM_CHAN_CTRL_TEST_REQ c == 1
    if x.state = .ready && asked then s.setChannel c { x with state := .test }
    else if x.state = .test && !asked then s.setChannel c { x with state := .ready }
    else s

/-- Whether HBM channel `c` is in service, or held in TEST. -/
def State.channelUp (s : State) (c : Nat) : Bool := (s.channel c).state == .ready || (s.channel c).state == .test

/-! ## Spares (R19) -/

/-- Channel IDs of an alcove and its four matrix units. -/
def alcoveChannels (n : Nat) : List Nat := channelId 4 n :: (upTo (4 * n) 4).map (channelId 5)

/-- The spare of half-hall `j` takes the number of the lowest retired alcove of the half-hall (log 51). -/
def State.swapSpare (s : State) (j : Nat) : State :=
  let used := s.part.spares.any fun p => p.2 == some j
  if used || (alcoveChannels (256 + j)).any s.retired then s
  else
    match (upTo (16 * j) 16).find? fun n => s.retired (channelId 4 n) with
    | none => s
    | some n =>
      let s1 := forEach ((alcoveChannels n).zip (alcoveChannels (256 + j))) s fun s c =>
        (s.setReg .RAS_BUCKET 0 c.1 (s.reg .RAS_BUCKET 0 c.2)).clearReg .RAS_BUCKET 0 c.2
      (s1.setAlcove n { Alcove.reset with core := { Core.reset with state := .idle }, spare := true }).onPart fun p =>
        { p with spares := tset none p.spares n (some j) }

/-! ## Stored profiles (R338 to R340, R479, R510) -/

/-- A hall's power state. -/
def State.hallPower (s : State) (h : Nat) : HallPower := tget .reset s.pwr.halls h

def State.setHallPower (s : State) (h : Nat) (x : HallPower) : State :=
  s.onPwr fun p => { p with halls := tset .reset p.halls h x }

/-- The highest applied clock. -/
def State.topMhz (s : State) : Nat := (((List.range 8).map s.hallMhz).max?).getD 0

/-- Every cap is capped at the new applied clocks. -/
def State.capClocks (s : State) : State :=
  forEach (List.range 8) (s.onPwr fun p => { p with boardCap := min p.boardCap s.topMhz }) fun s h =>
    let x := s.hallPower h
    let m := s.hallMhz h
    s.setHallPower h { x with hallCap := min x.hallCap m, thermalCap := min x.thermalCap m, pinCap := min x.pinCap m }

/-- What every reset loads from the profile in effect (R427). -/
def State.loadProfile (s : State) : State :=
  ((s.setFld F.PWR_LIMIT_BOARD_W s.part.profile.boardW).setFld F.PWR_LIMIT_HALL_W s.part.profile.hallW).loadThresholds

/-- Stored profile `n` applies. In BLANK every port is off (R488). -/
def State.applyProfile (s : State) (n : Nat) : State :=
  let (p0, fb, builtin) := s.chosenProfile n
  let pr := if s.boot.record.state = 0 then { p0 with portRole := List.replicate 64 0 } else p0
  let s1 := s.onPart fun p => { p with
    profile := pr, bound := if pr = p.profile then p.bound else tset none [] 0 (some pr.vi0Part) }
  let num := fun (b : Bool) => if b then 1 else 0
  let s2 := ((((s1.setFld F.PART_PROFILE_ACTIVE (if fb then 0 else n)).setFld F.PART_PROFILE_FALLBACK (num fb)).setFld
    F.PART_PROFILE_BUILTIN (num builtin)).setFld F.PART_PROFILE_PENDING_VALID 0).setFld F.PART_PROFILE_PENDING 0
  let old := s2.reg .TIME_CTRL
  let s3 := (((s2.setFld F.TIME_CTRL_ROLE pr.timeRole).setFld F.TIME_CTRL_PRIORITY pr.timePriority).setFld
    F.TIME_CTRL_PPS_IN_EN (bit pr.timeFlags 0)).setFld F.TIME_CTRL_PPS_OUT_EN (bit pr.timeFlags 1)
  let s4 := forEach (List.range 16) (s3.timeCtrlWritten old) fun s p =>
    s.setFld F.HBM_INTERLEAVE_LOCAL (pr.locals.getD p 0) p
  s4.loadProfile.capClocks

/-- Sends port `p` through bring-up with the role of the profile in effect (R474). -/
def State.restartPort (s : State) (p : Nat) : State :=
  let role := s.part.profile.portRole.getD p 0
  if (s.port p).state = .retired then s
  else
    let s1 := s.onPort p fun x => { x with role := role, full := false, fresh := true }
    if role = 0 then (s1.setFld F.CLZ_PORT_CTRL_ENABLE 0 p).portEnter p .off
    else (s1.setFld F.CLZ_PORT_CTRL_ENABLE 1 p).portEnter p .detect

/-- A pending profile applies at a partition-wide reset (R340, R474). -/
def State.applyPending (s : State) : State :=
  if s.fld F.PART_PROFILE_PENDING_VALID = 1 then
    let old := s.part.profile.portRole
    let s1 := s.applyProfile (s.fld F.PART_PROFILE_PENDING)
    forEach ((List.range 64).filter fun p => old.getD p 0 != s1.part.profile.portRole.getD p 0) s1 State.restartPort
  else s.loadProfile

/-! ## Virtual interfaces (R341) -/

/-- A virtual interface's queues stop and its admin queue is disabled. -/
def State.stopVi (s : State) (v : Nat) : State :=
  let s1 := forEach (s.queuesOf v) s fun s q => ((s.stopQueue q .stoppedAdmin 1).endBuffer q).flush q
  ((s1.setFld F.VST_ADMIN_CTRL_ENABLE 0 v).onAdmin v fun _ => .reset).onPart fun p => { p with
    resetting := if p.resetting.contains v then p.resetting else p.resetting ++ [v] }

/-- Whether every launched operation of `v` has completed. -/
def State.viDrained (s : State) (v : Nat) : Bool :=
  (s.queuesOf v).all fun q => match s.queue q with
    | some w => w.drained
    | none => true

/-- The allocations that a reset of virtual interfaces wipes and releases: mappings and regions stay. -/
def State.ownAllocs (s : State) (vis : List Nat) : List Alloc :=
  s.part.allocs.filter fun a => vis.contains a.vi && !a.mapping && a.region.isNone

/-! ## Partitions (R337, R342) -/

/-- The SRAM of partition `p` becomes zero, galleries apart, and its engines idle (R318, R471). -/
def State.wipePart (s : State) (p : Nat) : State :=
  let s1 := forEach (s.halfHalls p) s fun s j =>
    let s1 := forEach (upTo (16 * j) 16) s fun s n =>
      let s := s.abortScan (channelId 4 n)
      let x := s.alcove n
      let st := if x.core.state = .retired then CoreState.retired else .idle
      (s.setAlcove n { Alcove.reset with core := { Core.reset with state := st }, spare := x.spare }).onVst fun v =>
        { v with images := tdel v.images n }
    forEach (upTo (4 * j) 4) s1 fun s e => (s.abortScan (channelId 6 e)).setEngine e { CopyEngine.reset with retired := (s.engine e).retired }
  forEach (List.range 8) s1 fun s h =>
    let s1 := s.dropLines h fun x => x.part == p
    forEach [0, 1, 2] s1 fun s k =>
      match s.objectsOf p h k with
      | some (lo, hi) => s.wipeObjects h k lo hi
      | none => s

/-- Regions of the partition are destroyed, with their mappings (R337). -/
def State.destroyRegions (s : State) (p : Nat) : State :=
  forEach (s.part.regions.filter (·.partition == p)) s fun s r =>
    let lost := (s.mappers r.num).eraseDups
    let s1 := s.onPart fun x => { x with
      allocs := x.allocs.filter fun a => a.region != some r.num, regions := x.regions.filter (·.num != r.num) }
    forEach lost s1 fun s v => s.viEvent F.VI_EVENT_REGION_LOST v

/-- Injectors whose targets lie in a partition or name a virtual interface that is reset (R469). -/
def State.cancelResetShots (s : State) (parts vis : List Nat) : State :=
  let inPart := fun (p : Nat) => parts.contains p
  s.cancelShots fun det target =>
    if channelRow det then inPart (s.channelPart target)
    else if det = 0x14 || det = 0x15 || det = 0x21 || det = 0x22 then parts.any fun p => s.holdsHall p target
    else if det = 0x16 then match s.queue target with
      | some w => vis.contains w.vi && !parts.isEmpty
      | none => false
    else if det = 0x17 then vis.contains target
    else det = 0x18 && s.part.regions.any fun r => r.num == target && inPart r.partition

/-! ## A reset's course -/

/-- Whether a reset in progress covers one that is asked for (R472). -/
def ResetRun.covers (r : ResetRun) (k : ResetKind) : Bool :=
  match r.kind, k with
  | .warm, _ => true
  | .partitionWide, .partitionWide => true
  | .partitionWide, .partition _ => true
  | .partition p, .partition q => p == q
  | .interface v, .interface w => v == w
  | .partitionWide, .interface v => r.vis.contains v
  | .partition _, .interface v => r.vis.contains v
  | _, _ => false

/-- The virtual interfaces bound to some partitions. -/
def State.boundTo (s : State) (parts : List Nat) : List Nat :=
  (s.part.bound.filter fun p => match p.2 with
    | some q => parts.contains q
    | none => false).map (·.1)

/-- A reset's launched operations have completed: it frees, wipes and releases (R341, R342). -/
def State.startWiping (s : State) (r : ResetRun) : State × Nat :=
  let s1 := forEach r.vis s fun s v => forEach (s.queuesOf v) (s.freeBlocks v) State.removeQueue
  let own := s1.ownAllocs r.vis
  let s2 := forEach (own.filter (·.space == .t)) s1 fun s a => s.wipeObjects a.hall a.kind a.base (a.base + a.size)
  let s3 := forEach r.parts s2 State.wipePart
  let chans := (r.parts.flatMap s.halfHalls).flatMap fun j =>
    (upTo (16 * j) 16).filter s3.channelUp
  let g := r.parts.flatMap fun p => (List.range 8).filterMap fun h => (s3.galleryOf p h).map fun x => (x.1, x.2 - x.1)
  let of := fun (sp : AllocSpace) => (own.filter (·.space == sp)).map fun a => (a.base, a.size)
  s3.startWipe chans (of .d) (of .g ++ g)

/-- Moves resets on whose launched operations have completed. -/
def State.resetProgress (s : State) : State :=
  forEach s.boot.resets s fun s r =>
    if r.waiting && r.vis.all s.viDrained then
      let (s1, n) := s.startWiping r
      s1.onBoot fun b => { b with
        resets := b.resets.map fun x => if x.kind = r.kind then { x with waiting := false, wipe := some n } else x }
    else s

/-- A reset is asked for: absorbed by one in progress that covers it, a cold one included, or begun in place of those
that it covers (R472). -/
def State.askReset (s : State) (r : ResetRun) : State :=
  if s.boot.step != 9 then s
  else if s.boot.resets.any (·.covers r.kind) then
    s.onBoot fun b => { b with
      resets := b.resets.map fun x => if x.covers r.kind then { x with unbind := x.unbind ++ r.unbind } else x }
  else
    let lower := s.boot.resets.filter fun x => r.covers x.kind
    let s1 := s.onBoot fun b => { b with
      resets := (b.resets.filter fun x => !r.covers x.kind) ++
        [{ r with unbind := r.unbind ++ lower.flatMap (·.unbind) }] }
    let s2 := s1.onHbm fun h => { h with
      wipes := h.wipes.filter fun w => !(lower.any fun x => x.wipe == some w.num) }
    (forEach r.vis (s2.cancelResetShots r.parts r.vis) State.stopVi).resetProgress

/-- A run of a reset that waits for its launched operations. -/
def State.runOf (s : State) (k : ResetKind) (parts vis unbind : List Nat) : ResetRun :=
  { kind := k, since := s.time.tick, parts := parts, vis := vis, unbind := unbind, waiting := true, wipe := none }

/-- A virtual-interface reset (R341); `unbind` when VF Enable is cleared (R399). -/
def State.resetVi (s : State) (v : Nat) (unbind : Bool) : State :=
  s.askReset (s.runOf (.interface v) [] [v] (if unbind then [v] else []))

/-- A partition reset (R342); one of a partition that does not exist does nothing. -/
def State.resetPart (s : State) (p : Nat) : State :=
  if s.partExists p then s.askReset (s.runOf (.partition p) [p] (s.boundTo [p]) []) else s

/-- A partition-wide reset (R471). -/
def State.resetWide (s : State) : State :=
  let ps := (List.range 16).filter s.partExists
  if s.boot.step != 9 || s.boot.resets.any (·.covers .partitionWide) then s
  else
    ((s.askReset (s.runOf .partitionWide ps (s.boundTo ps) [])).setFld F.BOOT_STATUS_STATE 6).setFld
      F.BOOT_STATUS_LAST_RESET 6

/-! ## Warm reset (R471, R473, R474) -/

/-- What a warm reset keeps of a register: all of it in the TIME, Coluz, BOOT and LC blocks; RWS fields; the RO
fields of the package's profile, power and management; and retirements. -/
def warmKept (a x : Nat) : Nat :=
  match regAt a with
  | none => x
  | some (r, _, _) =>
    if (0x1000 ≤ a && a < 0x2000) || (0xA0000 ≤ a && a < 0xC0000) || (0xC000 ≤ a && a < 0xE000) then x
    else
      let ro := a = 0x8200 || (0xE000 ≤ a && a < 0xF000) || (0xA000 ≤ a && a < 0xB000)
      r.fields.foldl (fun v f =>
        if f.acc == .rws || (ro && f.acc == .ro) || f == F.RAS_BUCKET_RETIRED then f.put v (f.of x) else v) r.resetVal

/-- The stored registers after a warm reset. -/
def warmRegs (t : Tbl W32) : Tbl W32 :=
  t.filterMap fun p =>
    let x := warmKept p.1 p.2.toNat
    match regAt p.1 with
    | some (r, _, _) => if x = r.resetVal then none else some (p.1, BitVec.ofNat 32 x)
    | none => none

/-- Whether a replica's island restarts at a warm reset: alcoves, fabrics, and concourse slices but the master's. -/
def State.islandRestarts (s : State) (k : Nat) : Bool := (256 ≤ k || k < 16) && k != s.master

/-- A controller as it restarts: bundle 0, with its data store wiped (R355, R471). -/
def HallCtl.restarted (c : HallCtl) : HallCtl :=
  { c with core := { Core.reset with state := .running }, dstore := [], dstorePoison := [], fault := none }

/-- A warm reset begins: everything stops at once, without records (R471, R473, R474). -/
def State.warmBegin (s : State) (cause : Nat) : State :=
  let chans := (List.range 256).filter s.channelUp
  let s1 : State := { s with
    regs := warmRegs s.regs, ic := .reset,
    ras := { s.ras with owed := [], folds := [], filters := [] },
    part := { s.part with allocs := [], regions := [], vfEnable := false, numVfs := 0, resetting := [],
                          bound := tset none [] 0 (s.viPart 0) },
    host := { s.host with msix := [], funcs := [], linkUp := false, translations := [] },
    mem := { MemSt.reset with routes := s.mem.routes, nextCopy := s.mem.nextCopy, nextInval := s.mem.nextInval,
                              engines := s.mem.engines.filterMap fun e =>
                                if e.2.retired then some (e.1, { CopyEngine.reset with retired := true }) else none },
    hbm := { s.hbm with retries := [], writebacks := [], gathers := [], wipes := [] },
    sync := { SyncSt.reset with trees := s.sync.trees },
    vst := .reset, inj := .reset, ann := [],
    sdc := { SdcSt.reset with base := s.sdc.base, packs := s.sdc.packs },
    alcoves := s.alcoves.map fun a => (a.1, { Alcove.reset with
      core := { Core.reset with state := if a.2.core.state = .retired then .retired
                                         else if a.2.core.state = .off then .off else .idle },
      spare := a.2.spare }),
    hcs := s.hcs.map fun c => (c.1, if c.1 = 8 || c.2.core.state = .off then c.2
      else { c.2.restarted with faults := [] }) }
  let s2 := s1.onTime fun t => { t with
    nowHi := t.nowHi.filter fun p => 264 ≤ p.1,
    replicas := t.replicas.map fun p =>
      if s.islandRestarts p.1 && (p.2.state == .locked || p.2.state == .holdover) then
        (p.1, { p.2 with state := .acquire, left := true, good := 0, bad := 0 })
      else p }
  let (s3, n) := s2.startWipe chans [] []
  ((s3.onBoot fun b => { b with
    resets := [{ s.runOf .warm [] [] [] with waiting := false, wipe := some n }], hallFaults := [] }).setFld
    F.BOOT_STATUS_STATE 6).setFld F.BOOT_STATUS_LAST_RESET cause

/-- A warm reset is asked for: absorbed by a cold or a warm one in progress. -/
def State.resetWarm (s : State) (cause : Nat) : State :=
  if s.boot.step != 9 || s.boot.resets.any (·.covers .warm) then s else s.warmBegin cause

/-! ## Completion -/

/-- `BOOT_STATUS`.STATE of a device in service, and the time since the reset began. -/
def State.readyAgain (s : State) (since : Nat) : State :=
  (s.setFld F.BOOT_STATUS_STATE (if s.boot.restricted then 4 else 3)).setReg .BOOT_READY_MS 0 0
    ((s.time.tick - since) / 1000000)

/-- Spares join, maps change and the retired-page table is loaded, for partitions that have been reset (R342). -/
def State.refreshParts (s : State) (parts : List Nat) : State :=
  let s1 := forEach (parts.flatMap s.halfHalls) s State.swapSpare
  (forEach parts (forEach parts s1 State.holdTests) State.remap).loadPages

/-- A reset whose wipe has finished completes (R471). -/
def State.finishReset (s : State) (r : ResetRun) : State :=
  let own := s.ownAllocs r.vis
  let s1 := forEach r.parts s State.destroyRegions
  let s2 := (s1.onPart fun p => { p with
      allocs := p.allocs.filter fun a => !own.contains a,
      resetting := p.resetting.filter fun v => !r.vis.contains v,
      bound := r.unbind.foldl (fun b v => tdel b v) p.bound }).onBoot fun b => { b with
    resets := b.resets.filter fun x => x.kind != r.kind }
  let s3 := forEach r.vis s2 fun s v => s.viEvent F.VI_EVENT_RESET_DONE v
  match r.kind with
  | .interface _ => s3
  | .partition _ => (s3.refreshParts r.parts).loadThresholds
  | _ => (s3.applyPending.refreshParts (List.range 16)).readyAgain r.since

/-- Whether a reset in progress has finished its wipe; a warm one waits for PERST_N too (R497). -/
def State.resetDone (s : State) (r : ResetRun) : Bool :=
  match r.wipe with
  | some n => !s.wiping n && (r.kind != .warm || s.pwr.pins.perstN)
  | none => false

/-- R471: a reset completes once its wipe has finished: the oldest whose wipe has. -/
def doResetWipeComplete (s : State) : State :=
  match s.boot.resets.find? s.resetDone with
  | some r => s.finishReset r
  | none => s

end Sys2Proof.Machine
end

