-- ==== Sys2Proof/Machine/Settle.lean ====
section
/-! DEFINITION. What falls in the cycle of a command that brought it about: the retirements of hard signatures (R429),
and the steps of admin commands and resets that waited for it (R289, R328, R342). -/

namespace Sys2Proof.Machine

/-- Carries out what a command has made due at once. -/
def State.settle (s : State) : State := (s.hardRetires (s.ras.owed.length + 64)).adminProgressAll.resetProgress

end Sys2Proof.Machine
end

