-- ==== Sys2Proof/Machine/CmdAdmin.lean ====
section
/-! DEFINITION. The commands of the admin queue (R285 to R343). -/

namespace Sys2Proof.Machine

/-- DOORBELL_WRITE (R291): A doorbell write names a ring whose record is read within 1 µs, or is dropped and
counted. -/
def execDoorbellWrite (fn : Fin 256) (offset : Nat) (size : Nat) (value : Nat) (record : Nat) (s : State) : Host.Outcome State Fault Refusal :=
  .next (doDoorbellWrite fn.val offset size value record s)

/-- NOTIFY_POLL (R291): In polled mode every POLL_US the vestibule reads the doorbell and tail records. -/
def execNotifyPoll (v : Fin 256) (record : Nat) (s : State) : Host.Outcome State Fault Refusal :=
  .next (doNotifyPoll v.val record s)

/-- ADMIN_COMMAND_FETCH (R285): The vestibule reads the next admin submission entry and processes it in ring
order. -/
def execAdminCommandFetch (v : Fin 256) (entry : List Nat) (s : State) : Host.Outcome State Fault Refusal :=
  .next (doAdminCommandFetch v.val entry s)

/-- ADMIN_RING_FULL_POLL (R285): While the admin completion ring is full the head record is reread every 1
µs. -/
def execAdminRingFullPoll (v : Fin 256) (head : Nat) (s : State) : Host.Outcome State Fault Refusal :=
  .next (doAdminRingFullPoll v.val head s)

/-- ADMIN_RESERVED_OPCODE (R286): A reserved admin opcode completes with ADMIN_INVALID. -/
def execAdminReservedOpcode (v : Fin 256) (s : State) : Host.Outcome State Fault Refusal :=
  .next (doAdminReservedOpcode v.val s)

/-- CREATE_QUEUE (R288): Creates a work queue and returns its queue number. -/
def execCreateQueue (v : Fin 256) (s : State) : Host.Outcome State Fault Refusal :=
  .next (doCreateQueue v.val s)

/-- DESTROY_QUEUE (R289): Stops a queue, waits for launched operations, abandons paused ones and frees it.
-/
def execDestroyQueue (v : Fin 256) (s : State) : Host.Outcome State Fault Refusal :=
  .next ((doDestroyQueue v.val s).settle)

/-- STOP_QUEUE (R289): Moves a queue to STOPPED_ADMIN and completes after its launched operations. -/
def execStopQueue (v : Fin 256) (s : State) : Host.Outcome State Fault Refusal :=
  .next ((doStopQueue v.val s).settle)

/-- RESTART_QUEUE (R289): Returns a stopped queue to ACTIVE, abandoning the rest of the interrupted buffer.
-/
def execRestartQueue (v : Fin 256) (s : State) : Host.Outcome State Fault Refusal :=
  .next (doRestartQueue v.val s)

/-- MAP_MEMORY (R327): Allocates a D, G or T range, or a shared region or mapping, to a virtual interface.
-/
def execMapMemory (v : Fin 256) (s : State) : Host.Outcome State Fault Refusal :=
  .next (doMapMemory v.val s)

/-- UNMAP_MEMORY (R328): Waits for earlier operations, wipes and frees an allocation. -/
def execUnmapMemory (v : Fin 256) (s : State) : Host.Outcome State Fault Refusal :=
  .next ((doUnmapMemory v.val s).settle)

/-- BIND_PARTITION (R329): Binds or unbinds a virtual interface to a partition. -/
def execBindPartition (v : Fin 256) (s : State) : Host.Outcome State Fault Refusal :=
  .next (doBindPartition v.val s)

/-- SET_PROFILE (R340): Checks a stored profile and records it as pending for the next partition-wide reset.
-/
def execSetProfile (v : Fin 256) (s : State) : Host.Outcome State Fault Refusal :=
  .next (doSetProfile v.val s)

/-- LIFT_QUARANTINE (R336): Optionally verifies a region and clears its quarantine so held operations
continue. -/
def execLiftQuarantine (v : Fin 256) (s : State) : Host.Outcome State Fault Refusal :=
  .next (doLiftQuarantine v.val s)

/-- QUERY (R330): Writes a device, partition, interface, profile, allocation or region record to host
memory. -/
def execQuery (v : Fin 256) (s : State) : Host.Outcome State Fault Refusal :=
  .next (doQuery v.val s)

/-- RETIRE_PAGE (R224): Adds a retired-page entry to both flash copies and applies it before completing. -/
def execRetirePage (v : Fin 256) (s : State) : Host.Outcome State Fault Refusal :=
  .next (doRetirePage v.val s)

/-- SYNC_CONFIG (R290): Carries a sync configuration command through the admin queue. -/
def execSyncConfig (v : Fin 256) (record : List Nat) (s : State) : Host.Outcome State Fault Refusal :=
  .next (doSyncConfig v.val record s)

/-- POOL_CREATE (R315): Creates a buffer pool, clears its tags and fills its free stack. -/
def execPoolCreate (v : Fin 256) (s : State) : Host.Outcome State Fault Refusal :=
  .next (doPoolCreate v.val s)

/-- POOL_DESTROY (R315): Destroys a pool, refused with POOL_BUSY while blocks are allocated. -/
def execPoolDestroy (v : Fin 256) (s : State) : Host.Outcome State Fault Refusal :=
  .next (doPoolDestroy v.val s)

/-- POOL_GRANT (R315): Grants or revokes a virtual interface's use of a pool. -/
def execPoolGrant (v : Fin 256) (s : State) : Host.Outcome State Fault Refusal :=
  .next (doPoolGrant v.val s)

/-- VERSION_OVERRIDE (R484): Ends restricted mode when the named versions match, setting the override and
UNVALIDATED. -/
def execVersionOverride (v : Fin 256) (s : State) : Host.Outcome State Fault Refusal :=
  .next (doVersionOverride v.val s)

/-- HOST_ACCESS_FAIL (R410): A failed host-memory access is logged and stops the admin queue or work queue
it served. -/
def execHostAccessFail (v : Fin 256) (access : Fin 5) (kind : Fin 5) (ring : Fin 16) (s : State) : Host.Outcome State Fault Refusal :=
  .next ((doHostAccessFail v.val access.val kind.val ring.val s).settle)

/-- QUARANTINE_VERIFY_DONE (R336): The verifying read of a quarantined region finishes and either clears the
flag, releasing held operations, or completes with REGION_POISONED. -/
def execQuarantineVerifyDone (s : State) : Host.Outcome State Fault Refusal :=
  .next (doQuarantineVerifyDone s)

end Sys2Proof.Machine
end

