-- ==== Sys2Proof/Machine/Operands.lean ====
section
/-! DEFINITION. Slot words and operand forms of the Stavan instruction set (R57, R84 to R111): fields,
opcodes, which fields each opcode uses, and the registers a slot reads and writes. -/

namespace Sys2Proof.Machine

/-- A 128-bit slot word (R85). -/
abbrev SlotWord := BitVec 128

def bitsAt (w : SlotWord) (lo n : Nat) : Nat := (w.extractLsb' lo n).toNat

def slotOp (w : SlotWord) : Nat := bitsAt w 0 12
def slotClass (w : SlotWord) : Nat := bitsAt w 8 4
def slotPred (w : SlotWord) : Nat := bitsAt w 12 4
def slotPneg (w : SlotWord) : Bool := bitsAt w 16 1 = 1
def slotRsv (w : SlotWord) : Nat := bitsAt w 17 3
def slotMod (w : SlotWord) : Nat := bitsAt w 20 12
def slotDst (w : SlotWord) : Nat := bitsAt w 32 8
def slotSrc1 (w : SlotWord) : Nat := bitsAt w 40 8
def slotSrc2 (w : SlotWord) : Nat := bitsAt w 48 8
def slotSrc3 (w : SlotWord) : Nat := bitsAt w 56 8
def slotImm (w : SlotWord) : Nat := bitsAt w 64 64

/-- Slot k of a bundle (R57). -/
def bundleSlot (b : BitVec 1024) (k : Nat) : SlotWord := b.extractLsb' (128 * k) 128

/-- A field of a slot word's IMM. -/
def immField (w : SlotWord) (lo n : Nat) : Nat := (slotImm w >>> lo) % 2 ^ n

/-- A field of MOD. -/
def modField (w : SlotWord) (lo n : Nat) : Nat := (slotMod w >>> lo) % 2 ^ n

/-- Sign extension of an n-bit number. -/
def signExt (n : Nat) (x : Nat) : Int :=
  let x := x % 2 ^ n
  if x ≥ 2 ^ (n - 1) then (x : Int) - (2 ^ n : Nat) else x

/-- The operations of R96, R100, R102, R104, R106, R108 and R111. -/
inductive Op
  | NOP
  | ADD | SUB | AND | OR | XOR | ANDN | SHL | SHR | SAR | MIN | MAX | MINU | MAXU | MUL | MULH | MULHU
  | DIV | DIVU | REM | REMU | CMP | PAND | POR | PXOR | PNOT | MOVGA | MOVAG | MOVGL | MOVLG | PTST
  | CSRR | CSRW
  | LD | ST | VLD | VST | ASET | ASTEP | VEXT | VINS | TWADV
  | VADD | VSUB | VMUL | VFMA | VMIN | VMAX | VABS | VNEG | VAND | VOR | VXOR | VSHL | VSHR | VSAR
  | VCMP | VSEL | VCVT | VRSUM | VRMAX | VRMIN | VPERM | VBCAST | VEXP2 | VLOG2 | VRCP | VRSQRT | VSQRT
  | VTANH | VSIGM | VERF
  | WSHIFT | WSWAP | MPASS | GANG | ACCRD | ACCWR | ACCZ
  | SBCAST | SWGT | SDRAIN | CPY | SFENCE
  | BR | BRC | BRI | CALL | CALLI | RET | LOOP | END | TRAP | IFENCE | TSIG | TWAIT | TTRY | LARR | LWAIT
  | LARW | CWAIT | CREAD | TNOW | TUNTIL | SWAIT
  | RLOAD | RSTORE | DLOAD | DSTORE | IRET | WFI | BKRD | BKWR
  deriving DecidableEq, Repr

/-- Opcodes of the scalar slots (R96). -/
def scalarOps : List (Nat × Op) :=
  [(0x100, .ADD), (0x101, .SUB), (0x102, .AND), (0x103, .OR), (0x104, .XOR), (0x105, .ANDN),
   (0x106, .SHL), (0x107, .SHR), (0x108, .SAR), (0x109, .MIN), (0x10A, .MAX), (0x10B, .MINU),
   (0x10C, .MAXU), (0x118, .MUL), (0x119, .MULH), (0x11A, .MULHU), (0x11C, .DIV), (0x11D, .DIVU),
   (0x11E, .REM), (0x11F, .REMU), (0x120, .CMP), (0x121, .PAND), (0x122, .POR), (0x123, .PXOR),
   (0x124, .PNOT), (0x128, .MOVGA), (0x129, .MOVAG), (0x12A, .MOVGL), (0x12B, .MOVLG), (0x12C, .PTST),
   (0x130, .CSRR), (0x131, .CSRW)]

/-- Opcodes of the M slot (R100, R111). -/
def memoryOps : List (Nat × Op) :=
  [(0x200, .LD), (0x201, .ST), (0x202, .VLD), (0x203, .VST), (0x208, .ASET), (0x209, .ASTEP),
   (0x20C, .VEXT), (0x20D, .VINS), (0x210, .TWADV), (0x700, .RLOAD), (0x701, .RSTORE), (0x702, .DLOAD),
   (0x703, .DSTORE)]

/-- Opcodes of the V slots (R102). -/
def vectorOps : List (Nat × Op) :=
  [(0x300, .VADD), (0x301, .VSUB), (0x302, .VMUL), (0x303, .VFMA), (0x304, .VMIN), (0x305, .VMAX),
   (0x306, .VABS), (0x307, .VNEG), (0x308, .VAND), (0x309, .VOR), (0x30A, .VXOR), (0x30C, .VSHL),
   (0x30D, .VSHR), (0x30E, .VSAR), (0x310, .VCMP), (0x311, .VSEL), (0x318, .VCVT), (0x320, .VRSUM),
   (0x321, .VRMAX), (0x322, .VRMIN), (0x328, .VPERM), (0x329, .VBCAST), (0x330, .VEXP2), (0x331, .VLOG2),
   (0x332, .VRCP), (0x333, .VRSQRT), (0x334, .VSQRT), (0x335, .VTANH), (0x336, .VSIGM), (0x337, .VERF)]

/-- Opcodes of the X and C slots (R104, R106). -/
def engineOps : List (Nat × Op) :=
  [(0x400, .WSHIFT), (0x401, .WSWAP), (0x402, .MPASS), (0x404, .GANG), (0x408, .ACCRD), (0x409, .ACCWR),
   (0x40A, .ACCZ), (0x500, .SBCAST), (0x501, .SWGT), (0x502, .SDRAIN), (0x508, .CPY), (0x510, .SFENCE)]

/-- Opcodes of the B slot (R108, R111). -/
def branchOps : List (Nat × Op) :=
  [(0x600, .BR), (0x601, .BRC), (0x602, .BRI), (0x603, .CALL), (0x604, .CALLI), (0x605, .RET),
   (0x606, .LOOP), (0x607, .END), (0x608, .TRAP), (0x609, .IFENCE), (0x610, .TSIG), (0x611, .TWAIT),
   (0x612, .TTRY), (0x614, .LARR), (0x615, .LWAIT), (0x616, .LARW), (0x618, .CWAIT), (0x619, .CREAD),
   (0x620, .TNOW), (0x621, .TUNTIL), (0x628, .SWAIT), (0x710, .IRET), (0x711, .WFI), (0x712, .BKRD),
   (0x713, .BKWR)]

/-- First entry of an association list. -/
def assoc (k : Nat) : List (Nat × Op) → Option Op
  | [] => none
  | (j, o) :: r => if j = k then some o else assoc k r

/-- The operation of an opcode; none where no table assigns it (R87). Opcode 0x000 is `NOP`. -/
def opOf (n : Nat) : Option Op :=
  if n = 0 then some .NOP
  else assoc n (scalarOps ++ memoryOps ++ vectorOps ++ engineOps ++ branchOps)

/-- Whether slot k offers the opcode's class (R57, R87), outside the slots a hall controller lacks. -/
def offered (k n : Nat) : Bool :=
  match n / 256 with
  | 0 => true
  | 1 => k = 0 || k = 1
  | 2 => k = 2
  | 3 => k = 3 || k = 4
  | 4 => k = 5
  | 5 => k = 6
  | 6 => k = 7
  | 7 => if n < 0x710 then k = 2 else if n < 0x720 then k = 7 else k = 2 || k = 7
  | _ => true

/-- How an opcode uses its fields: the file of each specifier, and masks of the MOD and IMM bits used. -/
structure Form where
  dst : Option RegFile
  s1 : Option RegFile
  s2 : Option RegFile
  s3 : Option RegFile
  modMask : Nat
  immMask : Nat
  deriving DecidableEq, Repr

def imm64 : Nat := 0xFFFFFFFFFFFFFFFF

/-- gD, gA, gB or immediate (R96). -/
def formScalar (w : SlotWord) (dst : RegFile) (modMask : Nat) : Form :=
  let imm := modField w 0 1 = 1
  { dst := some dst, s1 := some .g, s2 := if imm then none else some .g, s3 := none, modMask := modMask,
    immMask := if imm then imm64 else 0 }

/-- The address operands of R99. -/
def formAddress (w : SlotWord) (dst s3 : Option RegFile) (modMask : Nat) : Form :=
  let mode := modField w 3 2
  { dst := dst, s1 := if mode = 2 then none else some .a, s2 := if mode = 3 then some .g else none,
    s3 := s3, modMask := modMask, immMask := if mode = 0 ∨ mode = 2 then 0xFFFFFF else 0 }

/-- vD, vA, vB or g (R102). -/
def formVector (w : SlotWord) (s3 : Option RegFile) (immMask : Nat) (dst : RegFile) : Form :=
  { dst := some dst, s1 := some .v, s2 := some (if modField w 4 1 = 1 then .g else .v), s3 := s3,
    modMask := 0x0FF, immMask := immMask }

/-- vD, vA. -/
def formUnary (modMask : Nat) : Form :=
  { dst := some .v, s1 := some .v, s2 := none, s3 := none, modMask := modMask, immMask := 0 }

/-- A handle in SRC1 and, where `count`, a count from SRC2 or IMM[31:0] (R108). -/
def formSync (w : SlotWord) (dst : Option RegFile) (count : Bool) : Form :=
  let imm := modField w 0 1 = 1
  { dst := dst, s1 := some .g, s2 := if count ∧ ¬imm then some .g else none, s3 := none,
    modMask := if count then 1 else 0, immMask := if count ∧ imm then 0xFFFFFFFF else 0 }

def formOf (dst s1 s2 s3 : Option RegFile) (modMask immMask : Nat) : Form :=
  { dst := dst, s1 := s1, s2 := s2, s3 := s3, modMask := modMask, immMask := immMask }

/-- The form of an operation in a slot word. -/
def opForm (o : Op) (w : SlotWord) : Form :=
  match o with
  | .NOP => formOf none none none none 0 0
  | .ADD | .SUB | .AND | .OR | .XOR | .ANDN | .SHL | .SHR | .SAR | .MIN | .MAX | .MINU | .MAXU | .MUL
  | .MULH | .MULHU | .DIV | .DIVU | .REM | .REMU => formScalar w .g 0x001
  | .CMP => formScalar w .p 0x01F
  | .PAND | .POR | .PXOR => formOf (some .p) (some .p) (some .p) none 0 0
  | .PNOT => formOf (some .p) (some .p) none none 0 0
  | .MOVGA => formOf (some .a) (some .g) none none 0x0C0 0
  | .MOVAG => formOf (some .g) (some .a) none none 0x0C0 0
  | .MOVGL => formOf (some .lc) (some .g) none none 0 0
  | .MOVLG => formOf (some .g) (some .lc) none none 0 0
  | .PTST => formOf (some .p) (some .g) none none 0 0
  | .CSRR => formOf (some .g) none none none 0 0xFFF
  | .CSRW => formOf none (some .g) none none 0 0xFFF
  | .LD => formAddress w (some .g) none 0x01F
  | .ST => formAddress w none (some .g) 0x01B
  | .VLD => formAddress w (some .v) none 0x018
  | .VST => formAddress w none (some .v) 0x018
  | .ASET => formOf (some .a) (some .g) (some .g) none 0 0xFFFFFFFFFFFF
  | .ASTEP => formOf (some .a) none none none 0 0xFFFF
  | .VEXT => formOf (some .g) (some .v) none none 0x007 0x1FF
  | .VINS => formOf (some .v) (some .g) none none 0x003 0x1FF
  | .TWADV => formOf (some .g) none none none 0 0
  | .VADD | .VSUB | .VMUL | .VMIN | .VMAX | .VAND | .VOR | .VXOR | .VSHL | .VSHR | .VSAR =>
    formVector w none 0 .v
  | .VFMA => formVector w (some .v) 0 .v
  | .VCMP => formVector w none 0xF .p
  | .VSEL => formVector w (some .p) 0 .v
  | .VCVT => formUnary 0xFEF
  | .VABS | .VNEG | .VRSUM | .VRMAX | .VRMIN | .VEXP2 | .VLOG2 | .VRCP | .VRSQRT | .VSQRT | .VTANH
  | .VSIGM | .VERF => formUnary 0x0EF
  | .VPERM => formOf (some .v) (some .v) (some .v) none 0x0EF 0
  | .VBCAST => formOf (some .v) (some .g) none none 0x0EF 0
  | .WSHIFT => formOf none (some .g) none none 0xF40 0
  | .WSWAP => formOf none none none none 0 0
  | .MPASS => formOf (some .acc) (some .g) none none 0xF7F 0x1FF01FF
  | .GANG => formOf none none none none 0 3
  | .ACCRD => formOf (some .v) (some .acc) none none 0 0x1F
  | .ACCWR => formOf (some .acc) (some .v) none none 0 0x1F
  | .ACCZ => formOf (some .acc) none none none 0 0
  | .SBCAST | .SWGT => formOf (some .g) (some .a) none none 0x00F 0xFFFF
  | .SDRAIN =>
    formOf (some .g) (some .a) (some .acc) none 0x0FF
      (if modField w 4 1 = 1 then 0xFFFFFF0000007F else 0x7F)
  | .CPY => formOf (some .g) (some .g) none none 0 0
  | .SFENCE => formOf none none none none 0 0
  | .BR | .BRC | .CALL => formOf none none none none 0 0xFFF
  | .BRI | .CALLI => formOf none (some .g) none none 0 0
  | .RET | .END | .IFENCE | .IRET | .WFI => formOf none none none none 0 0
  | .LOOP =>
    if modField w 0 1 = 1 then formOf (some .lc) none none none 1 0xFFF0000FFFF
    else formOf (some .lc) (some .g) none none 1 0xFFF00000000
  | .TRAP => formOf none none none none 0 0xFFFF
  | .TSIG | .TWAIT | .CWAIT => formSync w none true
  | .TTRY => formSync w (some .p) true
  | .LARR | .LWAIT | .LARW => formSync w none false
  | .CREAD => formSync w (some .g) false
  | .TNOW => formOf (some .g) none none none 0 0
  | .TUNTIL =>
    if modField w 0 1 = 1 then formOf none none none none 1 imm64
    else formOf none (some .g) none none 1 0
  | .SWAIT =>
    if modField w 1 1 = 1 then formOf none none none none 2 0 else formOf none (some .g) none none 2 0
  | .RLOAD | .DLOAD => formOf (some .g) (some .g) none none 0 0
  | .RSTORE | .DSTORE => formOf none (some .g) (some .g) none 0 0
  | .BKRD => formOf (some .g) (some .gx) none none 0 0
  | .BKWR => formOf (some .gx) (some .g) none none 0 0

/-- Registers in a file (R58, R89). -/
def fileSize : RegFile → Nat
  | .g | .gx => 64
  | .v => 32
  | .a | .p | .acc => 16
  | .lc => 4
  | .ctl => 5

/-- A specifier is legal: within its file, or zero where unused (R89). -/
def specOk (f : Option RegFile) (x : Nat) : Bool :=
  match f with
  | some r => x < fileSize r
  | none => x = 0

/-- The formats an operation takes (R102). -/
def arithFormats : List Fmt := [.fp32, .bf16, .fp16, .e4m3, .e5m2, .int8, .uint8, .int32]

/-- FMT of a V-slot operation is one it offers (R102). -/
def vectorFormatOk (o : Op) (f : Fmt) : Bool :=
  match o with
  | .VADD | .VSUB | .VMUL | .VFMA | .VMIN | .VMAX | .VABS | .VNEG | .VCMP | .VRSUM | .VRMAX | .VRMIN =>
    arithFormats.contains f
  | .VAND | .VOR | .VXOR | .VSEL | .VPERM | .VBCAST => f.lanes?.isSome
  | .VSHL | .VSHR | .VSAR => f = .int8 || f = .uint8 || f = .int32
  | .VEXP2 | .VLOG2 | .VRCP | .VRSQRT | .VSQRT | .VTANH | .VSIGM | .VERF =>
    f = .fp32 || f = .bf16 || f = .fp16
  | _ => true

/-- Conditions of `VCMP` (R103): 10 to 15 are reserved, and the unsigned ones on floating formats. -/
def compareOk (f : Fmt) (c : Nat) : Bool :=
  c ≤ 9 && (f.isInt || !(c = 4 || c = 5 || c = 8 || c = 9))

/-- Block scaling is legal with codes 0x4 to 0x9 (R124). -/
def bsOk (code : Nat) (bs : Bool) : Bool := !bs || (4 ≤ code && code ≤ 9)

/-- What an opcode requires of its operand encoding beyond R89. -/
def opEncodingOk (o : Op) (w : SlotWord) : Bool :=
  match o with
  | .NOP => w = 0
  | .CMP => modField w 1 4 ≤ 9
  | .CSRR | .CSRW => immField w 0 12 ≤ 4
  | .VEXT | .VINS => modField w 0 2 ≠ 3 && immField w 0 9 < 512 / 2 ^ modField w 0 2
  | .TWADV => slotDst w % 4 = 0 && slotDst w ≠ 0
  | .VCMP =>
    match Fmt.ofCode? (modField w 0 4) with
    | some f => vectorFormatOk o f && compareOk f (immField w 0 4)
    | none => false
  | .VCVT => (Fmt.ofCode? (modField w 0 4)).isSome && (Fmt.ofCode? (modField w 8 4)).isSome
  | .VADD | .VSUB | .VMUL | .VFMA | .VMIN | .VMAX | .VABS | .VNEG | .VAND | .VOR | .VXOR | .VSHL | .VSHR
  | .VSAR | .VSEL | .VRSUM | .VRMAX | .VRMIN | .VPERM | .VBCAST | .VEXP2 | .VLOG2 | .VRCP | .VRSQRT
  | .VSQRT | .VTANH | .VSIGM | .VERF =>
    match Fmt.ofCode? (modField w 0 4) with
    | some f => vectorFormatOk o f
    | none => false
  | .WSHIFT =>
    let f := modField w 8 4
    slotDst w < 4 && f ≠ 0 && f < 0xD && bsOk f (modField w 6 1 = 1)
  | .WSWAP => slotDst w < 4
  | .MPASS =>
    let fa := modField w 0 4
    let fw := modField w 8 4
    let bs := modField w 6 1 = 1
    let rows := immField w 0 9
    let depth := immField w 16 9
    fa ≠ 0 && fa < 0xD && fw ≠ 0 && fw < 0xD && bsOk fa bs && bsOk fw bs &&
      rows ≠ 0 && rows ≤ 256 && depth ≠ 0 && depth ≤ 256
  | .SBCAST | .SWGT => immField w 0 16 ≠ 0 && modField w 0 4 < 0xE
  | .SDRAIN => immField w 0 7 ≠ 0 && immField w 0 7 ≤ 64 && modField w 0 4 < 0xE
  | .CPY => slotSrc1 w ≠ 0 && slotSrc1 w % 4 = 0
  | .BR => slotPred w = 0 && !slotPneg w
  | _ => true

/-- `WSHIFT` and `WSWAP` name a unit in DST, which is no register specifier. -/
def unitDst (o : Op) : Bool :=
  match o with
  | .WSHIFT | .WSWAP => true
  | _ => false

/-- The operand encoding of a slot word is legal for its opcode (R86, R89). A `LOOP` whose end lies below
PC + 1 is illegal too (R108). -/
def encodingOk (o : Op) (w : SlotWord) (pc : Nat) : Bool :=
  let f := opForm o w
  (unitDst o || specOk f.dst (slotDst w)) && specOk f.s1 (slotSrc1 w) && specOk f.s2 (slotSrc2 w) &&
    specOk f.s3 (slotSrc3 w) && (slotMod w &&& f.modMask) = slotMod w &&
    (slotImm w &&& f.immMask) = slotImm w && opEncodingOk o w &&
    (match o with
     | .LOOP => pc + 1 ≤ immField w 32 12
     | _ => true)

/-- The firmware-only operations (R111). -/
def isFirmware (o : Op) : Bool :=
  match o with
  | .RLOAD | .RSTORE | .DLOAD | .DSTORE | .IRET | .WFI | .BKRD | .BKWR => true
  | _ => false

/-- Register number of R90. -/
def regNumber (r : RegRef) : Nat :=
  (match r.file with
   | .g | .gx => 0 | .a => 1 | .v => 2 | .p => 3 | .acc => 4 | .lc => 5 | .ctl => 6) * 4096 + r.idx

/-- Tiles a pass writes (R122, R125, R128): the tiles it spans, in every unit where outputs land. -/
def passTiles (mode : Gang) (acc rows : Nat) : List Nat :=
  let n := acc % 4
  let span := (List.range ((rows + 63) / 64)).map (n + ·)
  let units :=
    match mode with
    | .quad => [acc / 4]
    | .wide => [0, 1, 2, 3]
    | .tall => [0]
    | .square => [0, 1]
  units.flatMap fun u => (span.filter (· < 4)).map (4 * u + ·)

/-- Registers a slot writes (R92): its destination, the four of `TWADV`, the a register of a post-stepping
access, and the tiles of a pass. g0 and p0 never count. -/
def slotWrites (mode : Gang) (o : Op) (w : SlotWord) : List RegRef :=
  let f := opForm o w
  let d := slotDst w
  let base : List RegRef :=
    match o with
    | .TWADV => [⟨.g, d⟩, ⟨.g, d + 1⟩, ⟨.g, d + 2⟩, ⟨.g, d + 3⟩]
    | .MPASS => (passTiles mode d (immField w 0 9)).map (⟨.acc, ·⟩)
    | .CSRW => [⟨.ctl, immField w 0 12⟩]
    | _ =>
      match f.dst with
      | some r => [⟨r, d⟩]
      | none => []
  let step : List RegRef :=
    match o with
    | .LD | .ST | .VLD | .VST => if modField w 3 2 = 1 then [⟨.a, slotSrc1 w⟩] else []
    | _ => []
  (base ++ step).filter fun r =>
    !((r.file = .g || r.file = .gx || r.file = .p) && r.idx = 0)

/-- Registers a slot reads besides its predicate. -/
def slotReads (o : Op) (w : SlotWord) : List RegRef :=
  let f := opForm o w
  let one (r : Option RegFile) (x : Nat) : List RegRef :=
    match r with
    | some r => [⟨r, x⟩]
    | none => []
  let base := one f.s1 (slotSrc1 w) ++ one f.s2 (slotSrc2 w) ++ one f.s3 (slotSrc3 w)
  match o with
  | .CPY => base ++ [⟨.g, slotSrc1 w + 1⟩, ⟨.g, slotSrc1 w + 2⟩, ⟨.g, slotSrc1 w + 3⟩]
  | .ASTEP => base ++ [⟨.a, slotDst w⟩]
  | .MOVGA => base ++ [⟨.a, slotDst w⟩]
  | .VINS => base ++ [⟨.v, slotDst w⟩]
  | .CSRR => base ++ [⟨.ctl, immField w 0 12⟩]
  | _ => base

/-- Cycles from issue to result of an operation of fixed latency (R64, R96, R100, R102, R108, R111). -/
def opLatency (o : Op) : Nat :=
  match o with
  | .MUL | .MULH | .MULHU => 3
  | .DIV | .DIVU | .REM | .REMU => 20
  | .LD | .VEXT | .VINS | .TWADV => 4
  | .VLD => 6
  | .VADD | .VSUB | .VMUL | .VFMA | .VMIN | .VMAX | .VABS | .VNEG | .VAND | .VOR | .VXOR | .VSHL | .VSHR
  | .VSAR | .VCMP | .VSEL | .VCVT | .VBCAST => 4
  | .VRSUM | .VRMAX | .VRMIN | .VPERM => 8
  | .VEXP2 | .VLOG2 | .VRCP | .VRSQRT | .VSQRT | .VTANH | .VSIGM | .VERF => 12
  | .TNOW => 2
  | .ACCRD | .ACCWR | .ACCZ => 4
  | _ => 1

end Sys2Proof.Machine
end

