-- ==== Sys2Proof/Machine/Transc.lean ====
section
/-! DEFINITION. The transcendental operations (R139). The exact result is computed in fixed point with 160
fraction bits; the operation answers an FP32 value within the error bound of R139, and which one of them is
`Config.approxPick` (the manual fixes the bound, not the value). -/

namespace Sys2Proof.Machine

/-- Fraction bits of the fixed-point computation. -/
def fixBits : Nat := 160

def fixOne : Int := (2 ^ fixBits : Nat)

/-- Product of two fixed-point numbers. -/
def fixMul (a b : Int) : Int := (a * b) >>> fixBits

/-- Quotient of two fixed-point numbers. -/
def fixDiv (a b : Int) : Int := (a * fixOne) / b

/-- Partial sum of e^x for a small fixed-point x: `n` terms, the first of them `t` with index `k`. -/
def expTerms (x : Int) : Nat → Nat → Int → Int
  | 0, _, _ => 0
  | n + 1, k, t => t + expTerms x n (k + 1) (fixMul t x / (k + 1 : Nat))

/-- e^x for a fixed-point x of magnitude at most 1. -/
def fixExp (x : Int) : Int := expTerms x 45 0 fixOne

/-- Partial sum of the odd powers of z over their index, with alternating sign where `alt`. -/
def oddTerms (alt : Bool) (z2 : Int) : Nat → Nat → Int → Int
  | 0, _, _ => 0
  | n + 1, k, p =>
    p / ((2 * k + 1 : Nat) : Int) +
      oddTerms alt z2 n (k + 1) (if alt then -(fixMul p z2) else fixMul p z2)

/-- Natural logarithm of a fixed-point x in [1, 2]. -/
def fixLn (x : Int) : Int :=
  let z := fixDiv (x - fixOne) (x + fixOne)
  2 * oddTerms false (fixMul z z) 60 0 z

def fixLn2 : Int := fixLn (2 * fixOne)

/-- A dyadic value as fixed point, rounded down. -/
def Val.toFix : Val → Int
  | .num neg m e =>
    let i : Int := if 0 ≤ e + fixBits then (m <<< (e + fixBits).toNat : Nat) else (m >>> (-(e + fixBits)).toNat : Nat)
    if neg then -i else i
  | _ => 0

/-- A fixed-point number times 2^k as an exact value. -/
def Val.ofFix (i : Int) (k : Int) : Val := .num (i < 0) i.natAbs (k - fixBits)

/-- 2^x: integer part k and 2^(x − k) in fixed point. -/
def fixExp2 (x : Int) : Int × Int :=
  let k := x >>> fixBits
  (k, fixExp (fixMul (x - k * fixOne) fixLn2))

/-- e^x for a fixed-point x of moderate size, in fixed point. -/
def fixExpAny (x : Int) : Int :=
  let (k, f) := fixExp2 (fixDiv x fixLn2)
  if 0 ≤ k then f * (2 ^ k.toNat : Nat) else f >>> (-k).toNat

/-- Terms of the error function: x^(2n+1) / (n! (2n+1)) with alternating sign. -/
def erfTerms (x2 : Int) : Nat → Nat → Int → Int
  | 0, _, _ => 0
  | n + 1, k, p => p / ((2 * k + 1 : Nat) : Int) + erfTerms x2 n (k + 1) (-(fixMul p x2 / (k + 1 : Nat)))

/-- π in fixed point by Machin's formula. -/
def fixPi : Int :=
  let a := fixOne / 5
  let b := fixOne / 239
  4 * (4 * oddTerms true (fixMul a a) 80 0 a - oddTerms true (fixMul b b) 40 0 b)

/-- Square root of a fixed-point number. -/
def natSqrtAux (n : Nat) : Nat → Nat → Nat
  | 0, r => r
  | k + 1, r => natSqrtAux n k (if (r + 2 ^ k) * (r + 2 ^ k) ≤ n then r + 2 ^ k else r)

/-- Integer square root of an n below 2^(2·bits). -/
def natSqrt (bits n : Nat) : Nat := natSqrtAux n bits 0

def fixErf (x : Int) : Int :=
  let s : Int := (natSqrt 400 ((fixPi * fixOne).toNat) : Nat)
  2 * fixDiv (erfTerms (fixMul x x) 140 0 x) s

/-- One unit in the last place of an FP32 result near an exact value (R139). -/
def ulpOf : Val → Val
  | .num _ m e =>
    let ex : Int := max ((Nat.log2 m : Int) + e) (-126)
    .num false 1 (ex - 23)
  | _ => .num false 1 (-149)

/-- Round toward a target: the FP32 grid point next to w on the side of r. -/
def roundToward (w r : Val) : Val :=
  match w with
  | .num neg m e =>
    if m = 0 then w
    else
      let u : Int := max ((Nat.log2 m : Int) + e - 23) (-149)
      if u ≤ e then w
      else
        let i : Int := if neg then -(m : Int) else m
        let k := (u - e).toNat
        let fl := i >>> k
        let j := if w.lt r then -((-i) >>> k) else fl
        .num (j < 0) j.natAbs u
  | v => v

/-- The FP32 value within `tol` of `r` that the free choice `pick` selects. -/
def pickWithin (r tol : Val) (pick : Nat) : Val :=
  let span := (tol.scale 1).mul (.num false (pick % 2 ^ 32) (-32))
  let w := ((r.sub tol).1.add span.1).1
  roundToward w r

def Val.max (a b : Val) : Val := if a.lt b then b else a

/-- The transcendental operations of R102, by opcode 0x330 + n. -/
inductive Transc
  | exp2 | log2 | rcp | rsqrt | sqrt | tanh | sigm | erf
  deriving DecidableEq, Repr

def Transc.index : Transc → Nat
  | .exp2 => 0 | .log2 => 1 | .rcp => 2 | .rsqrt => 3 | .sqrt => 4 | .tanh => 5 | .sigm => 6 | .erf => 7

/-- The square root with enough bits below FP32's for every rounding mode; the lowest bit is sticky. -/
def sqrtVal (m : Nat) (e : Int) : Val :=
  let (m, e) := if e % 2 = 0 then (m, e) else (2 * m, e - 1)
  let n := m <<< 160
  let s := natSqrt 200 n
  .num false (2 * s + (if s * s = n then 0 else 1)) (e / 2 - 81)

/-- The exact result of an operation on a finite nonzero input outside its special values, and its
tolerance; none where a special value of R139 applies. -/
def transcCore (op : Transc) (x : Val) : Option (Val × Val) :=
  match x with
  | .num neg m e =>
    let f := x.toFix
    let two : Val := .num false 2 0
    let tolTrig (r : Val) : Val := ((two.mul (ulpOf r)).1).max (.num false 1 (-24))
    match op with
    | .exp2 =>
      let (k, g) := fixExp2 f
      let r := Val.ofFix g k
      some (r, ulpOf r)
    | .log2 =>
      let n := Nat.log2 m
      let z : Int := if n ≤ fixBits then (m <<< (fixBits - n) : Nat) else (m >>> (n - fixBits) : Nat)
      let r := Val.ofFix (fixDiv (fixLn z) fixLn2 + ((n : Int) + e) * fixOne) 0
      let inMid := !Val.lt x (.num false 1 (-1)) && !Val.lt (.num false 2 0) x
      some (r, if inMid then .num false 1 (-22) else ulpOf r)
    | .rcp =>
      let r : Val := .num neg (2 ^ 300 / m) (-300 - e)
      some (r, ulpOf r)
    | .rsqrt =>
      let (m, e) := if e % 2 = 0 then (m, e) else (2 * m, e - 1)
      let r : Val := .num false (natSqrt 300 (2 ^ 500 / m)) (-250 - e / 2)
      some (r, ulpOf r)
    | .sqrt => some (sqrtVal m e, .zero)
    | .tanh =>
      let ex := fixExpAny (2 * (if f < 0 then -f else f))
      let a := fixOne - fixDiv (2 * fixOne) (ex + fixOne)
      let r := Val.ofFix (if neg then -a else a) 0
      some (r, tolTrig r)
    | .sigm =>
      let r := Val.ofFix (fixDiv fixOne (fixOne + fixExpAny (-f))) 0
      some (r, tolTrig r)
    | .erf =>
      let r := Val.ofFix (fixErf f) 0
      some (r, tolTrig r)
  | _ => none

/-- The special values of R139 for an FP32 input after flushing: the result and its flags. -/
def transcSpecial (op : Transc) (x : Val) : Option (Val × Nat) :=
  match x with
  | .nan => some (.nan, 0)
  | .inf n =>
    match op with
    | .exp2 => some (if n then .zero else .inf false, 0)
    | .log2 => some (if n then (.nan, flagNV) else (.inf false, 0))
    | .rcp => some (.num n 0 0, 0)
    | .rsqrt => some (if n then (.nan, flagNV) else (.zero, 0))
    | .sqrt => some (if n then (.nan, flagNV) else (.inf false, 0))
    | .tanh | .erf => some (.num n 1 0, 0)
    | .sigm => some (if n then .zero else .one, 0)
  | .num n m _ =>
    match op with
    | .exp2 =>
      if m = 0 then some (.one, 0)
      else if x.lt (.num true 150 0) then some (.zero, flagOUTF ||| flagUF ||| flagNX)
      else if !x.lt (.num false 129 0) then some (.num false 1 200, 0)
      else none
    | .log2 =>
      if m = 0 then some (.inf true, 0) else if n then some (.nan, flagNV)
      else if x.eqv .one then some (.zero, 0) else none
    | .rcp => if m = 0 then some (.inf n, 0) else none
    | .rsqrt => if m = 0 then some (.inf n, 0) else if n then some (.nan, flagNV) else none
    | .sqrt => if m = 0 then some (.num n 0 0, 0) else if n then some (.nan, flagNV) else none
    | .tanh =>
      if m = 0 then some (x, 0) else if !x.abs.lt (.num false 9 0) then some (.num n 1 0, flagNX) else none
    | .sigm =>
      if !x.lt (.num false 17 0) then some (.one, flagNX)
      else if !Val.lt (.num true 88 0) x then some (.zero, flagNX)
      else none
    | .erf =>
      if m = 0 then some (x, 0) else if !x.abs.lt (.num false 4 0) then some (.num n 1 0, flagNX) else none

/-- A BF16 or FP16 input widened to FP32: a value in the FP32 subnormal range is flushed (R143). -/
def widenFlush (v : Val) : Val × Nat :=
  match v with
  | .num n m _ => if m ≠ 0 ∧ v.abs.lt (.num false 1 (-126)) then (.num n 0 0, flagDENF) else (v, 0)
  | v => (v, 0)

/-- The FP32 result of an operation on a widened input, before its rounding, and its flags. -/
def transcResult (op : Transc) (v : Val) : Val × Nat :=
  match transcSpecial op v with
  | some p => p
  | none =>
    match transcCore op v with
    | some (res, tol) =>
      match op with
      | .sqrt => (res, 0)
      | _ =>
        let x := (writeFloat Fmt.fp32 Rnd.nearest false 0 v).1
        (pickWithin res tol (Config.approxPick op.index x), flagNX)
    | none => (.nan, 0)

/-- One lane of a transcendental operation: computed in FP32, rounded once to FMT (R139). -/
def laneTransc (op : Transc) (f : Fmt) (mode : Rnd) (sat : Bool) (r a : Nat) : Nat × Nat :=
  let p0 : Val × Nat := readOperand f a
  let p1 : Val × Nat := if f = Fmt.fp32 then (p0.1, 0) else widenFlush p0.1
  let p2 : Val × Nat := transcResult op p1.1
  let p3 : Nat × Nat := writeFloat Fmt.fp32 mode (sat && decide (f = Fmt.fp32)) r p2.1
  let fl := p0.2 ||| p1.2 ||| p2.2 ||| p3.2
  if f = Fmt.fp32 then (p3.1, fl)
  else
    let p4 : Nat × Nat := writeFloat f mode sat r (readFloat .fp32 p3.1)
    (p4.1, fl ||| p4.2)

end Sys2Proof.Machine
end

