-- ==== Sys2Proof/Machine/Vector.lean ====
section
/-! DEFINITION. Vector registers as packed lanes, and the V-slot operations on whole registers (R102, R103,
R138, R147). A register is a 4,096-bit number, lane 0 in its lowest bits. -/

namespace Sys2Proof.Machine

/-- Element `i` of width `w` in a packed register (R146). -/
def lane (w : Nat) (v i : Nat) : Nat := (v >>> (w * i)) % 2 ^ w

/-- Pack `n` elements of width `w`, element 0 lowest. -/
def packLanes (w : Nat) (f : Nat → Nat) (n : Nat) : Nat :=
  (List.range n).foldr (fun i acc => (acc <<< w) + f i % 2 ^ w) 0

/-- The result of a vector operation: the register and the flags it sets. -/
structure VecResult where
  value : Nat
  flags : Nat
  deriving DecidableEq, Repr

/-- What a V-slot operation is given: its format, rounding mode, saturation, lane enables, draws, and its
source registers. -/
structure VecCtx where
  fmt : Fmt
  mode : Rnd
  sat : Bool
  /-- lane enables as a bit mask -/
  enable : Nat
  /-- the draw of lane i (R152) -/
  seed : Nat
  pos : Nat
  deriving DecidableEq, Repr

def VecCtx.on (c : VecCtx) (i : Nat) : Bool := c.enable.testBit i

def VecCtx.drawOf (c : VecCtx) (i : Nat) : Nat := draw c.seed (c.pos + i)

/-- Apply a lane function to every enabled lane; disabled lanes keep their old element (R67). -/
def mapLanes (c : VecCtx) (old : Nat) (n : Nat) (f : Nat → Nat × Nat) : VecResult :=
  let w := c.fmt.bits
  let rs := (List.range n).map fun i => if c.on i then f i else (lane w old i, 0)
  { value := rs.foldr (fun p acc => (acc <<< w) + p.1 % 2 ^ w) 0
    flags := rs.foldl (fun acc p => acc ||| p.2) 0 }

/-- Values of a reduction tree combined pairwise: lane 2i with lane 2i + 1. -/
def pairUp {α : Type} (op : α → α → α × Nat) : List α → List α × Nat
  | a :: b :: r =>
    let (x, f) := op a b
    let (xs, g) := pairUp op r
    (x :: xs, f ||| g)
  | l => (l, 0)

/-- Combine levels until two values remain, `k` levels at most. -/
def reduceLevels {α : Type} (op : α → α → α × Nat) : Nat → List α → List α × Nat
  | 0, l => (l, 0)
  | k + 1, l =>
    if l.length ≤ 2 then (l, 0)
    else
      let (m, f) := pairUp op l
      let (r, g) := reduceLevels op k m
      (r, f ||| g)

/-- An addition of the tree other than the last: rounded to FP32, nearest even, flushed (R138). -/
def treeAdd (a b : Val) : Val × Nat :=
  let (s, f) := a.add b
  let (x, g) := writeFloat .fp32 .nearest false 0 s
  (readFloat .fp32 x, f ||| g)

/-- The element of an enabled lane as a tree value; `ident` for a disabled one. -/
def treeLeaf (c : VecCtx) (ident : Val) (v i : Nat) : Val × Nat :=
  if c.on i then
    let (x, f) := readOperand c.fmt (lane c.fmt.bits v i)
    let (y, g) := if c.fmt = .fp32 ∨ c.fmt.isInt then (x, 0) else widenFlush x
    (y, f ||| g)
  else (ident, 0)

/-- `VRSUM` on a floating format. -/
def reduceSumFloat (c : VecCtx) (n v : Nat) : Nat × Nat :=
  let leaves := (List.range n).map (treeLeaf c .negZero v)
  let f0 := leaves.foldl (fun a p => a ||| p.2) 0
  let (two, f1) := reduceLevels treeAdd 10 (leaves.map (·.1))
  let (s, f2) :=
    match two with
    | [a, b] => a.add b
    | [a] => (a, 0)
    | _ => (.zero, 0)
  let (x, f3) := writeFloat c.fmt c.mode c.sat (c.drawOf 0) s
  (x, f0 ||| f1 ||| f2 ||| f3)

/-- `VRSUM` on an integer format: carried in 32 bits, wrapping or saturating. -/
def reduceSumInt (c : VecCtx) (n v : Nat) : Nat × Nat :=
  let leaf i : Int := if c.on i then readInt c.fmt (lane c.fmt.bits v i) else 0
  let step (a b : Int) : Int × Nat := accIntStep c.sat (a + b)
  let (two, f1) := reduceLevels step 10 ((List.range n).map leaf)
  let (s, f2) :=
    match two with
    | [a, b] => step a b
    | [a] => (a, 0)
    | _ => (0, 0)
  let (x, f3) := writeIntFromInt c.fmt c.sat s
  (x, f1 ||| f2 ||| f3)

/-- `VRMAX` and `VRMIN`: the steps follow R103 and round nothing. -/
def reduceMinMax (wantMax : Bool) (c : VecCtx) (n v : Nat) : Nat × Nat :=
  if c.fmt.isInt then
    let ident : Int := if wantMax then c.fmt.intRange.1 else c.fmt.intRange.2
    let leaf i : Int := if c.on i then readInt c.fmt (lane c.fmt.bits v i) else ident
    let r := ((List.range n).map leaf).foldl (fun a b => if wantMax then max a b else min a b) ident
    (intBits c.fmt r, 0)
  else
    let leaf i : Val × Nat :=
      if c.on i then readOperand c.fmt (lane c.fmt.bits v i) else (.inf wantMax, 0)
    let ls := (List.range n).map leaf
    let f0 := ls.foldl (fun a p => a ||| p.2) 0
    let r := (ls.map (·.1)).foldl (valMinMax wantMax) (.inf wantMax)
    let (x, f1) := writeFloat c.fmt c.mode c.sat 0 r
    (x, f0 ||| f1)

/-- `VCVT` (R147): lane count of the wider format; packed sides take the low bytes. -/
def vecConvert (c : VecCtx) (src : Fmt) (old v : Nat) : VecResult :=
  let n := cvtLanes c.fmt src
  let w := c.fmt.bits
  let rs := (List.range n).map fun i =>
    if c.on i then convert src c.fmt c.mode c.sat (c.drawOf i) (lane src.bits v i) else (lane w old i, 0)
  { value := rs.foldr (fun p acc => (acc <<< w) + p.1 % 2 ^ w) 0
    flags := rs.foldl (fun acc p => acc ||| p.2) 0 }
where
  cvtLanes (a b : Fmt) : Nat :=
    let w := max a.bits b.bits
    if w ≤ 8 then 512 else 4096 / w

/-- Lane count of `VCVT` (R147). -/
def convertLanes (a b : Fmt) : Nat := vecConvert.cvtLanes a b

/-- Result register of `VCMP`: disabled lanes keep their bit, bits at or above the lane count clear. -/
def vecCompare (c : VecCtx) (cond n oldP a : Nat) (b : Nat → Nat) : VecResult :=
  let w := c.fmt.bits
  let rs := (List.range n).map fun i =>
    if c.on i then laneCmp c.fmt cond (lane w a i) (b i) else (oldP.testBit i, 0)
  { value := rs.foldr (fun p acc => 2 * acc + (if p.1 then 1 else 0)) 0
    flags := rs.foldl (fun acc p => acc ||| p.2) 0 }

end Sys2Proof.Machine
end

