-- ==== Sys2Proof/Machine/Bundle.lean ====
section
/-! DEFINITION. Bundles at issue (R57, R63, R64, R67, R84 to R94): the registers of a core, predicates, illegal
bundles, decode faults, and what each slot reads and writes. -/

namespace Sys2Proof.Machine

/-! ## Registers of a core (R58, R79) -/

/-- The register that a specifier reaches: registers of bank 1 have keys 64 higher; g0 and p0 are shared. -/
def Core.key (c : Core) (r : RegRef) : RegRef :=
  match r.file with
  | .g => { r with idx := if r.idx = 0 then 0 else r.idx + 64 * c.bank }
  | .gx => { file := .g, idx := if r.idx = 0 then 0 else r.idx + 64 * (1 - c.bank) }
  | .p => { r with idx := if r.idx = 0 then 0 else r.idx + 64 * c.bank }
  | .a => { r with idx := r.idx + 64 * c.bank }
  | .v => r
  | .acc => r
  | .lc => r
  | .ctl => r

/-- A g register; g0 reads zero. -/
def Core.gReg (c : Core) (i : Nat) : Scalar :=
  if i = 0 then .zero else tget .zero c.g (c.key { file := .g, idx := i }).idx

/-- A g register of the bank not in use (`BKRD`). -/
def Core.gOther (c : Core) (i : Nat) : Scalar :=
  if i = 0 then .zero else tget .zero c.g (c.key { file := .gx, idx := i }).idx

def Core.aReg (c : Core) (i : Nat) : AddrReg := tget .zero c.a (c.key { file := .a, idx := i }).idx

def Core.vReg (c : Core) (i : Nat) : VecReg := tget .zero c.v i

/-- A p register; p0 reads all ones. -/
def Core.pReg (c : Core) (i : Nat) : PredReg :=
  if i = 0 then { bits := BitVec.allOnes 512, poison := false }
  else tget .zero c.p (c.key { file := .p, idx := i }).idx

def Core.lcReg (c : Core) (i : Nat) : Nat := (tget 0 c.lc i).toNat

/-- Writes a register by its key; writes of g0 and p0 are discarded. -/
def Core.write (c : Core) (k : RegRef) (v : RegVal) : Core :=
  match v with
  | .g x => if k.idx = 0 then c else { c with g := tset .zero c.g k.idx x }
  | .a x => { c with a := tset .zero c.a k.idx x }
  | .v x => { c with v := tset .zero c.v k.idx x }
  | .p x => if k.idx = 0 then c else { c with p := tset .zero c.p k.idx x }
  | .lc x => { c with lc := tset 0 c.lc k.idx x }

/-- A control register (R158). -/
def Core.csr (c : Core) (i : Nat) : W64 :=
  match i with
  | 0 => c.round
  | 1 => c.sat
  | 2 => c.fstat
  | 3 => c.rngSeed
  | _ => c.rngPos

/-- A `CSRW` (R158): reserved bits are ignored, and a new seed sets the position to 0. -/
def Core.csrWrite (c : Core) (i : Nat) (x : W64) : Core :=
  match i with
  | 0 => { c with round := x &&& 3 }
  | 1 => { c with sat := x &&& 7 }
  | 2 => { c with fstat := x &&& 0xFF }
  | 3 => { c with rngSeed := x, rngPos := 0 }
  | _ => { c with rngPos := x }

/-- Sets sticky flags of FSTAT. -/
def Core.flags (c : Core) (f : Nat) : Core := { c with fstat := c.fstat ||| BitVec.ofNat 64 f }

/-- Advances the generator (R152). -/
def Core.drawn (c : Core) (n : Nat) : Core := { c with rngPos := c.rngPos + BitVec.ofNat 64 n }

/-- Whether a register's poison mark is set. -/
def Core.poisoned (c : Core) (r : RegRef) : Bool :=
  match r.file with
  | .g => (c.gReg r.idx).poison
  | .gx => (c.gOther r.idx).poison
  | .v => (c.vReg r.idx).poison
  | .p => (c.pReg r.idx).poison
  | .a => false
  | .acc => false
  | .lc => false
  | .ctl => false

/-! ## Predicates (R67, R94) -/

/-- The predicate of a slot word after negation, as a mask. -/
def Core.predBits (c : Core) (w : SlotWord) : Nat :=
  let b := (c.pReg (slotPred w)).bits
  (if slotPneg w then ~~~b else b).toNat

def Core.predPoison (c : Core) (w : SlotWord) : Bool := (c.pReg (slotPred w)).poison

/-- Lane count of a V-slot operation (R95, R147). -/
def vectorLanes (o : Op) (w : SlotWord) : Nat :=
  match Fmt.ofCode? (modField w 0 4) with
  | some f =>
    match o with
    | .VCVT => ((Fmt.ofCode? (modField w 8 4)).map (convertLanes f)).getD 0
    | _ => f.lanes?.getD 0
  | none => 0

/-- Whether a slot is on: some lane or column for a vector operation and an accumulator move, bit 0 for a scalar one.
The other matrix operations have no column to disable, or claim their rows whatever it holds (R122; log 56). -/
def Core.slotOn (c : Core) (o : Op) (w : SlotWord) : Bool :=
  match slotClass w with
  | 3 => c.predBits w % 2 ^ vectorLanes o w != 0
  | 4 =>
    match o with
    | .ACCRD | .ACCWR | .ACCZ => c.predBits w % 2 ^ 64 != 0
    | _ => true
  | _ => c.predBits w % 2 == 1

/-! ## Illegal bundles (R64, R79, R87, R88, R91) -/

/-- Whether slot `k` of a core offers a slot word. -/
def coreOffers (hc : Bool) (k : Nat) (w : SlotWord) : Bool :=
  offered k (slotOp w) && !(hc && (k == 3 || k == 4 || k == 5 || k == 6) && w != 0)

/-- The lowest set bit of the reserved field [19:17], as a bit of the slot word. -/
def reservedBit (rsv : Nat) : Nat := if rsv % 2 = 1 then 17 else if rsv % 4 = 2 then 18 else 19

/-- What makes slot `k` illegal by itself. -/
def slotIllegal (hc : Bool) (k : Nat) (w : SlotWord) : Option Nat :=
  if slotRsv w != 0 then some (128 * k + reservedBit (slotRsv w))
  else if !coreOffers hc k w then some (2 ^ 30 + k)
  else none

/-- The registers that slot `k` claims to write (R91, R92). -/
def slotClaims (hc : Bool) (mode : Gang) (k : Nat) (w : SlotWord) : List RegRef :=
  if (slotIllegal hc k w).isSome then []
  else
    match opOf (slotOp w) with
    | some o => slotWrites mode o w
    | none => []

/-- The detail of `ILLEGAL_BUNDLE`, of the lowest slot with a case. -/
def bundleIllegal (hc : Bool) (mode : Gang) (b : BitVec 1024) : Option Nat :=
  (List.range 8).findSome? fun k =>
    (slotIllegal hc k (bundleSlot b k)).or
      (((slotClaims hc mode k (bundleSlot b k)).find? fun r =>
        (List.range k).any fun j => (slotClaims hc mode j (bundleSlot b j)).contains r).map fun r => 2 ^ 31 + regNumber r)

/-! ## Decode faults (R86, R87, R89, R93) -/

/-- Operations of the M slot that a hall controller has no registers or walker for (R79, R176). -/
def lacksInController (o : Op) : Bool :=
  match o with
  | .VLD | .VST | .VEXT | .VINS | .TWADV => true
  | _ => false

/-- Whether a slot word raises `ILLEGAL_OPCODE` whatever the state of its engines. -/
def opcodeIllegal (hc : Bool) (pc : Nat) (w : SlotWord) : Bool :=
  match opOf (slotOp w) with
  | some o => !encodingOk o w pc || (hc && lacksInController o)
  | none => true

/-- The registers whose poison steers control (R74, R103; log 57). -/
def controlRegs (o : Op) (w : SlotWord) : List RegRef :=
  let s1 : RegRef := { file := .g, idx := slotSrc1 w }
  let s2 : RegRef := { file := .g, idx := slotSrc2 w }
  match o with
  | .BRI | .CALLI | .MOVGA | .MOVGL | .CSRW | .TSIG | .TWAIT | .TTRY | .LARR | .LWAIT | .LARW | .CWAIT | .CREAD
  | .RLOAD | .RSTORE | .DLOAD | .DSTORE => [s1]
  | .LOOP => if modField w 0 1 = 1 then [] else [s1]
  | .ASET => [s1, s2]
  | .LD | .ST | .VLD | .VST => if modField w 3 2 = 3 then [s2] else []
  | .VSEL => [{ file := .p, idx := slotSrc3 w }]
  | .CPY => (List.range 4).map fun i => { file := .g, idx := slotSrc1 w + i }
  | _ => []

/-- Steps 2 and 3 of R93 for a slot that is on. -/
def Core.earlyFault (c : Core) (hc : Bool) (o : Op) (w : SlotWord) : Option (Nat × Nat) :=
  if isFirmware o && !hc then some (0x03, slotOp w)
  else if c.predPoison w then some (0x08, regNumber { file := .p, idx := slotPred w })
  else ((controlRegs o w).find? c.poisoned).map fun r => (0x08, regNumber r)

/-! ## Results of the scalar slots (R96 to R98) -/

/-- A result on its way: the register's key, its value, the cycles it takes, the flags it brings, and whether FSTAT is
busy until then. -/
structure Result where
  reg : RegRef
  val : RegVal
  latency : Nat
  flags : Nat
  flagged : Bool

def gResult (c : Core) (i : Nat) (v : W64) (poison : Bool) (latency : Nat) : Result :=
  { reg := c.key { file := .g, idx := i }, val := .g { val := v, poison := poison }, latency := latency, flags := 0,
    flagged := false }

def pResult (c : Core) (i : Nat) (b : BitVec 512) (poison : Bool) : Result :=
  { reg := c.key { file := .p, idx := i }, val := .p { bits := b, poison := poison }, latency := 1, flags := 0,
    flagged := false }

def aResult (c : Core) (i : Nat) (x : AddrReg) : Result :=
  { reg := c.key { file := .a, idx := i }, val := .a x, latency := 1, flags := 0, flagged := false }

def lcResult (i : Nat) (x : BitVec 32) : Result :=
  { reg := { file := .lc, idx := i }, val := .lc x, latency := 1, flags := 0, flagged := false }

/-- The second operand of a scalar operation. -/
def Core.operandB (c : Core) (w : SlotWord) : Scalar :=
  if modField w 0 1 = 1 then { val := BitVec.ofNat 64 (slotImm w), poison := false } else c.gReg (slotSrc2 w)

/-- High 64 bits of a product of integers. -/
def mulHigh (x : Int) : W64 := BitVec.ofInt 64 (x / (2 ^ 64 : Nat))

/-- The scalar arithmetic of R96 and R97. -/
def scalarAlu (o : Op) (a b : W64) : Option W64 :=
  let k := b.toNat % 64
  match o with
  | .ADD => some (a + b)
  | .SUB => some (a - b)
  | .AND => some (a &&& b)
  | .OR => some (a ||| b)
  | .XOR => some (a ^^^ b)
  | .ANDN => some (a &&& ~~~b)
  | .SHL => some (a <<< k)
  | .SHR => some (a >>> k)
  | .SAR => some (a.sshiftRight k)
  | .MIN => some (if a.slt b then a else b)
  | .MAX => some (if a.slt b then b else a)
  | .MINU => some (if a.ult b then a else b)
  | .MAXU => some (if a.ult b then b else a)
  | .MUL => some (a * b)
  | .MULH => some (mulHigh (a.toInt * b.toInt))
  | .MULHU => some (mulHigh ((a.toNat : Int) * (b.toNat : Int)))
  | .DIV => some (if b = 0 then BitVec.allOnes 64 else a.sdiv b)
  | .DIVU => some (if b = 0 then BitVec.allOnes 64 else a / b)
  | .REM => some (if b = 0 then a else a.srem b)
  | .REMU => some (if b = 0 then a else a % b)
  | _ => none

/-- A field of an a register: 0 ADDR, 1 STRIDE, 2 LOW, 3 HIGH. -/
def AddrReg.getField (x : AddrReg) (i : Nat) : BitVec 24 :=
  match i with
  | 0 => x.addr
  | 1 => x.stride
  | 2 => x.low
  | _ => x.high

def AddrReg.setField (x : AddrReg) (i : Nat) (v : BitVec 24) : AddrReg :=
  match i with
  | 0 => { x with addr := v }
  | 1 => { x with stride := v }
  | 2 => { x with low := v }
  | _ => { x with high := v }

/-- All 512 bits equal. -/
def allBits (b : Bool) : BitVec 512 := if b then BitVec.allOnes 512 else 0

/-- The result of a scalar operation other than `CSRW`. -/
def Core.scalarResult (c : Core) (o : Op) (w : SlotWord) : List Result :=
  let d := slotDst w
  let a := c.gReg (slotSrc1 w)
  let b := c.operandB w
  let pa := c.pReg (slotSrc1 w)
  let pb := c.pReg (slotSrc2 w)
  match scalarAlu o a.val b.val with
  | some v => [gResult c d v (a.poison || b.poison) (opLatency o)]
  | none =>
    match o with
    | .CMP =>
      [pResult c d (allBits (condInt (modField w 1 4) a.val.toInt b.val.toInt a.val.toNat b.val.toNat))
        (a.poison || b.poison)]
    | .PAND => [pResult c d (pa.bits &&& pb.bits) (pa.poison || pb.poison)]
    | .POR => [pResult c d (pa.bits ||| pb.bits) (pa.poison || pb.poison)]
    | .PXOR => [pResult c d (pa.bits ^^^ pb.bits) (pa.poison || pb.poison)]
    | .PNOT => [pResult c d (~~~pa.bits) pa.poison]
    | .MOVGA => [aResult c d ((c.aReg d).setField (modField w 6 2) (a.val.truncate 24))]
    | .MOVAG =>
      let f := modField w 6 2
      let x := (c.aReg (slotSrc1 w)).getField f
      [gResult c d (if f = 1 then x.signExtend 64 else x.zeroExtend 64) false 1]
    | .MOVGL => [lcResult d (a.val.truncate 32)]
    | .MOVLG => [gResult c d (BitVec.ofNat 64 (c.lcReg (slotSrc1 w))) false 1]
    | .PTST => [pResult c d (allBits a.poison) false]
    | .CSRR => [gResult c d (c.csr (immField w 0 12)) false 1]
    | _ => []

/-! ## Addresses and register results of the M slot (R59, R60, R99 to R101) -/

/-- The effective address of R99. -/
def Core.address (c : Core) (w : SlotWord) : Nat :=
  let a := (c.aReg (slotSrc1 w)).addr.toNat
  match modField w 3 2 with
  | 0 => (a + immField w 0 24) % 2 ^ 24
  | 1 => a
  | 2 => immField w 0 24
  | _ => (a + (c.gReg (slotSrc2 w)).val.toNat) % 2 ^ 24

/-- Bytes of a load or store. -/
def accessBytes (o : Op) (w : SlotWord) : Nat :=
  match o with
  | .LD | .ST => 2 ^ modField w 0 2
  | _ => 512

/-- Bytes of the store that the M slot reaches. -/
def storeLimit (hc : Bool) : Nat := if hc then 0x80000 else 0x180000

/-- The faults of an M-slot access (R59, R60, R99). -/
def Core.accessFault (c : Core) (hc : Bool) (o : Op) (w : SlotWord) : Option (Nat × Nat) :=
  let e := c.address w
  let n := accessBytes o w
  let r := c.aReg (slotSrc1 w)
  if storeLimit hc < e + n then some (0x06, e)
  else if modField w 3 2 != 2 && !(r.low.toNat ≤ e && e + n ≤ r.high.toNat) then some (0x05, e)
  else if e % (if n = 512 then 64 else n) != 0 then some (0x07, e)
  else none

/-- Alignment of a firmware access (R112). -/
def Core.firmwareFault (c : Core) (n : Nat) (w : SlotWord) : Option (Nat × Nat) :=
  let a := (c.gReg (slotSrc1 w)).val.toNat
  if a % n != 0 then some (0x07, a % 2 ^ 32) else none

/-- Own faults of an M-slot operation. -/
def Core.memoryFault (c : Core) (hc : Bool) (o : Op) (w : SlotWord) : Option (Nat × Nat) :=
  match o with
  | .LD | .ST | .VLD | .VST => c.accessFault hc o w
  | .RLOAD | .RSTORE => c.firmwareFault 4 w
  | .DLOAD | .DSTORE => c.firmwareFault 8 w
  | _ => none

/-- The step of a post-stepping access. -/
def Core.postStep (c : Core) (w : SlotWord) : List Result :=
  if modField w 3 2 = 1 then
    let x := c.aReg (slotSrc1 w)
    [aResult c (slotSrc1 w) { x with addr := x.addr + x.stride }]
  else []

/-- A loaded scalar. -/
def loadedValue (w : SlotWord) (n : Nat) : W64 :=
  let bits := 8 * 2 ^ modField w 0 2
  if modField w 2 1 = 1 then BitVec.ofInt 64 (signExt bits n) else BitVec.ofNat 64 (n % 2 ^ bits)

/-- Replaces lane `i` of width `w`. -/
def putLane (w v i x : Nat) : Nat := v - (lane w v i <<< (w * i)) + ((x % 2 ^ w) <<< (w * i))

/-- Results of the M-slot operations that reach no store and no walker. -/
def Core.moveResult (c : Core) (o : Op) (w : SlotWord) : List Result :=
  let d := slotDst w
  match o with
  | .ASET =>
    [aResult c d
      { addr := (c.gReg (slotSrc1 w)).val.truncate 24, stride := (c.gReg (slotSrc2 w)).val.truncate 24,
        low := BitVec.ofNat 24 (immField w 0 24), high := BitVec.ofNat 24 (immField w 24 24) }]
  | .ASTEP =>
    let x := c.aReg d
    [aResult c d { x with addr := x.addr + BitVec.ofInt 24 (x.stride.toInt * signExt 16 (immField w 0 16)) }]
  | .VEXT =>
    let v := c.vReg (slotSrc1 w)
    let bits := 8 * 2 ^ modField w 0 2
    [gResult c d (loadedValue w (lane bits v.bits.toNat (immField w 0 9))) v.poison (opLatency o)]
  | .VINS =>
    let v := c.vReg d
    let g := c.gReg (slotSrc1 w)
    let bits := 8 * 2 ^ modField w 0 2
    [{ reg := { file := .v, idx := d }, latency := opLatency o, flags := 0, flagged := false,
       val := .v { bits := BitVec.ofNat 4096 (putLane bits v.bits.toNat (immField w 0 9) g.val.toNat),
                   poison := v.poison || g.poison } }]
  | _ => []

/-! ## Results of the V slots (R102, R103, R138, R139, R147, R152) -/

/-- The lane operation of a V-slot operation on elements a, b and c with draw r: the element and its flags. -/
def laneOp (o : Op) (f : Fmt) (mode : Rnd) (sat : Bool) (r a b c : Nat) : Option (Nat × Nat) :=
  match o with
  | .VADD => some (laneAdd f mode sat r a b)
  | .VSUB => some (laneSub f mode sat r a b)
  | .VMUL => some (laneMul f mode sat r a b)
  | .VFMA => some (laneFma f mode sat r a b c)
  | .VMIN => some (laneMinMax false f mode sat r a b)
  | .VMAX => some (laneMinMax true f mode sat r a b)
  | .VABS => some (laneAbs f mode sat r a)
  | .VNEG => some (laneNeg f mode sat r a)
  | .VAND => some (a &&& b, 0)
  | .VOR => some (a ||| b, 0)
  | .VXOR => some (a ^^^ b, 0)
  | .VSHL => some (laneShl f a b, 0)
  | .VSHR => some (laneShr f a b, 0)
  | .VSAR => some (laneSar f a b, 0)
  | .VEXP2 => some (laneTransc .exp2 f mode sat r a)
  | .VLOG2 => some (laneTransc .log2 f mode sat r a)
  | .VRCP => some (laneTransc .rcp f mode sat r a)
  | .VRSQRT => some (laneTransc .rsqrt f mode sat r a)
  | .VSQRT => some (laneTransc .sqrt f mode sat r a)
  | .VTANH => some (laneTransc .tanh f mode sat r a)
  | .VSIGM => some (laneTransc .sigm f mode sat r a)
  | .VERF => some (laneTransc .erf f mode sat r a)
  | _ => none

/-- Whether a V-slot operation can set FSTAT flags (R98). -/
def setsFlags (o : Op) : Bool :=
  match o with
  | .VAND | .VOR | .VXOR | .VSHL | .VSHR | .VSAR | .VSEL | .VPERM | .VBCAST => false
  | _ => true

/-- The rounding context of a V-slot operation that takes its draws from position `pos`. -/
def Core.vecCtx (c : Core) (f : Fmt) (w : SlotWord) (pos : Nat) : VecCtx :=
  { fmt := f, mode := effectiveRnd (modField w 5 2) (c.round.toNat % 4),
    sat := modField w 7 1 = 1 || bit c.sat.toNat 2 == 1, enable := c.predBits w, seed := c.rngSeed.toNat, pos := pos }

/-- The draws of a V-slot operation (R152). -/
def Core.vectorDraws (c : Core) (o : Op) (w : SlotWord) : Nat :=
  if effectiveRnd (modField w 5 2) (c.round.toNat % 4) = .stochastic then vectorLanes o w else 0

/-- Whether a result replaces the whole register: a reduction, which has no lane of its own. -/
def reduces (o : Op) : Bool :=
  match o with
  | .VRSUM | .VRMAX | .VRMIN => true
  | _ => false

/-- The value and flags that a V-slot operation writes to v. -/
def Core.vectorValue (c : Core) (o : Op) (w : SlotWord) (x : VecCtx) : VecResult :=
  let n := vectorLanes o w
  let bits := x.fmt.bits
  let old := (c.vReg (slotDst w)).bits.toNat
  let a := (c.vReg (slotSrc1 w)).bits.toNat
  let g := (c.gReg (slotSrc2 w)).val.toNat % 2 ^ bits
  let vb := (c.vReg (slotSrc2 w)).bits.toNat
  let b := fun i => if modField w 4 1 = 1 then g else lane bits vb i
  let third := (c.vReg (slotSrc3 w)).bits.toNat
  let sel := (c.pReg (slotSrc3 w)).bits.toNat
  match o with
  | .VCVT =>
    match Fmt.ofCode? (modField w 8 4) with
    | some src => vecConvert x src old a
    | none => { value := old, flags := 0 }
  | .VRSUM =>
    let r := if x.fmt.isInt then reduceSumInt x n a else reduceSumFloat x n a
    { value := r.1 % 2 ^ bits, flags := r.2 }
  | .VRMAX =>
    let r := reduceMinMax true x n a
    { value := r.1 % 2 ^ bits, flags := r.2 }
  | .VRMIN =>
    let r := reduceMinMax false x n a
    { value := r.1 % 2 ^ bits, flags := r.2 }
  | .VPERM => mapLanes x old n fun i => (lane bits a (lane bits vb i % n), 0)
  | .VBCAST =>
    let s := (c.gReg (slotSrc1 w)).val.toNat % 2 ^ bits
    mapLanes x old n fun _ => (s, 0)
  | .VSEL => mapLanes x old n fun i => (if sel.testBit i then lane bits a i else b i, 0)
  | o => mapLanes x old n fun i =>
      (laneOp o x.fmt x.mode x.sat (x.drawOf i) (lane bits a i) (b i) (lane bits third i)).getD (lane bits old i, 0)

/-- Whether some lane of a V-slot operation keeps its old value. -/
def Core.keepsLanes (c : Core) (o : Op) (w : SlotWord) : Bool :=
  !reduces o && c.predBits w % 2 ^ vectorLanes o w != 2 ^ vectorLanes o w - 1

/-- The result of a V-slot operation that is on. -/
def Core.vectorResult (c : Core) (o : Op) (w : SlotWord) (pos : Nat) : List Result :=
  match Fmt.ofCode? (modField w 0 4) with
  | none => []
  | some f =>
    let x := c.vecCtx f w pos
    let srcs := (slotReads o w).any c.poisoned
    let d := slotDst w
    match o with
    | .VCMP =>
      let bits := f.bits
      let g := (c.gReg (slotSrc2 w)).val.toNat % 2 ^ bits
      let vb := (c.vReg (slotSrc2 w)).bits.toNat
      let old := c.pReg d
      let r := vecCompare x (immField w 0 4) (vectorLanes o w) old.bits.toNat (c.vReg (slotSrc1 w)).bits.toNat
        fun i => if modField w 4 1 = 1 then g else lane bits vb i
      [{ reg := c.key { file := .p, idx := d }, latency := opLatency o, flags := r.flags, flagged := setsFlags o,
         val := .p { bits := BitVec.ofNat 512 r.value, poison := srcs || (c.keepsLanes o w && old.poison) } }]
    | _ =>
      let r := c.vectorValue o w x
      [{ reg := { file := .v, idx := d }, latency := opLatency o, flags := r.flags, flagged := setsFlags o,
         val := .v { bits := BitVec.ofNat 4096 r.value, poison := srcs || (c.keepsLanes o w && (c.vReg d).poison) } }]

end Sys2Proof.Machine
end

