-- ==== Sys2Proof/Machine/Matrix.lean ====
section
/-! DEFINITION. The arithmetic of matrix passes, drains and exponent histograms (R121 to R130, R134, R146, R148, R149,
R156, R157, R161, R162). -/

namespace Sys2Proof.Machine

/-! ## Rows (R121, R146) -/

/-- The format of a code that decoding has accepted. -/
def fmtOf (code : Nat) : Fmt := (Fmt.ofCode? code).getD .fp32

/-- Bytes of `n` packed elements, and of a row with its scale bytes. -/
def elemBytes (f : Fmt) (n : Nat) : Nat := (n * f.bits + 7) / 8

def rowBytes (f : Fmt) (n : Nat) (bs : Bool) : Nat := elemBytes f n + if bs then (n + 31) / 32 else 0

/-- Address of row `r` of a stream. -/
def Stream.rowStart (t : Stream) (r : Nat) : Nat := (t.window.addr.toNat + r * t.window.stride.toNat) % 2 ^ 24

/-- How many of the `len` bytes of row `r` lie below HIGH and inside the store. -/
def Stream.rowInside (t : Stream) (r len : Nat) : Nat := min len (min t.window.high.toNat 0x180000 - t.rowStart r)

/-- Row `r` of a stream as a packed number, and whether it carries poison: bytes beyond the window are poisoned zeros,
and `extra` are granules that the read found poisoned. -/
def Stream.readRow (t : Stream) (extra : List Nat) (r len : Nat) : Nat × Bool :=
  let a := t.rowStart r
  let n := t.rowInside r len
  (leNat ((List.range n).map fun i => (tget 0 t.snap (a + i)).toNat),
    decide (n < len) || (List.range n).any fun i =>
      tget false t.snapPoison ((a + i) / 32) || extra.contains ((a + i) / 32))

/-! ## Units of a pass (R125, R126) -/

def maxDepth : Gang → Nat
  | .quad => 64 | .wide => 64 | .tall => 256 | .square => 128

/-- Whether a mode gangs the units. -/
def Gang.ganged (m : Gang) : Bool := m != .quad

/-- Units that hold some K below DEPTH. -/
def usedUnits (m : Gang) (u depth : Nat) : List Nat :=
  match m with
  | .quad => [u]
  | .wide => [0, 1, 2, 3]
  | .tall => (List.range 4).filter fun j => 64 * j < depth
  | .square => if 64 < depth then [0, 1, 2, 3] else [0, 1]

/-- Units where outputs land. -/
def landUnits (m : Gang) (u : Nat) : List Nat :=
  match m with
  | .quad => [u]
  | .wide => [0, 1, 2, 3]
  | .tall => [0]
  | .square => [0, 1]

/-- Units whose partial sums reach destination unit `d`, in chain order. -/
def chainUnits (m : Gang) (u d depth : Nat) : List Nat :=
  let l := match m with
    | .quad => [u]
    | .wide => [d]
    | .tall => [3, 2, 1, 0]
    | .square => [2 + d, d]
  l.filter fun j => (usedUnits m u depth).contains j

/-- The first K that unit `j` holds. -/
def unitBase (m : Gang) (j : Nat) : Nat :=
  match m with
  | .quad => 0
  | .wide => 0
  | .tall => 64 * j
  | .square => 64 * (j / 2)

/-- The first output column of destination unit `d`. -/
def columnBase (m : Gang) (d : Nat) : Nat :=
  match m with
  | .quad => 0
  | .wide => 64 * d
  | .tall => 0
  | .square => 64 * d

/-- Output columns of a mode. -/
def outputColumns : Gang → Nat
  | .quad => 64 | .wide => 256 | .tall => 64 | .square => 128

/-! ## One element (R124, R156, R157) -/

/-- What a pass computes with. `free` is the first free value when a plane that it uses holds nothing valid. -/
structure PassArgs where
  fa : Fmt
  fw : Fmt
  bs : Bool
  add : Bool
  depth : Nat
  rnd : Rnd
  accFp : Bool
  accInt : Bool
  free : Option Nat

/-- Whether a pass accumulates in INT32. -/
def PassArgs.int (a : PassArgs) : Bool := a.fa.isInt && a.fw.isInt && !a.bs

/-- One addition, rounded to FP32. -/
def PassArgs.addFloat (a : PassArgs) (x y : Val) : Val × Nat :=
  let s := x.add y
  let r := accStep a.rnd a.accFp s.1
  (r.1, s.2 ||| r.2)

def PassArgs.addInt (a : PassArgs) (x y : Int) : Int × Nat := accIntStep a.accInt (x + y)

/-- Terms added in order, each with the flags it brings. -/
def chain {α : Type} (zero : α) (add : α → α → α × Nat) : List (α × Nat) → α × Nat
  | [] => (zero, 0)
  | p :: ps => ps.foldl (fun acc x =>
      let r := add acc.1 x.1
      (r.1, acc.2 ||| x.2 ||| r.2)) p

/-- The k below DEPTH of group `g` of a unit whose first K is `base`, counted in the unit. -/
def PassArgs.groupKs (a : PassArgs) (base g : Nat) : List Nat :=
  upTo (32 * g) (min 32 (min 64 (a.depth - base) - 32 * g))

/-- Number of groups of a unit. -/
def PassArgs.groups (a : PassArgs) (base : Nat) : Nat := (min 64 (a.depth - base) + 31) / 32

/-- A group's sum with its block scales, before it is rounded (R148). -/
def PassArgs.scaled (a : PassArgs) (base g act row : Nat) (s : Val) : Val × Nat :=
  if a.bs then
    let sa := lane 8 act (elemBytes a.fa a.depth + base / 32 + g)
    let sw := lane 8 row (elemBytes a.fw 64 + g)
    if sa = 255 || sw = 255 then (.nan, flagNV) else (s.scale ((sa : Int) + (sw : Int) - 254), 0)
  else (s, 0)

/-- A group's sum, rounded to FP32. -/
def PassArgs.groupFloat (a : PassArgs) (base act row g : Nat) : Val × Nat :=
  let terms := (a.groupKs base g).map fun k =>
    let x := readOperand a.fa (lane a.fa.bits act (base + k))
    let y := readOperand a.fw (lane a.fw.bits row k)
    let p := x.1.mul y.1
    (p.1, x.2 ||| y.2 ||| p.2)
  let s := sumVals (terms.map (·.1))
  let t := a.scaled base g act row s.1
  let r := accStep a.rnd a.accFp t.1
  (r.1, terms.foldl (fun f p => f ||| p.2) 0 ||| s.2 ||| t.2 ||| r.2)

def PassArgs.groupInt (a : PassArgs) (base act row g : Nat) : Int × Nat :=
  accIntStep a.accInt (((a.groupKs base g).map fun k =>
    readInt a.fa (lane a.fa.bits act (base + k)) * readInt a.fw (lane a.fw.bits row k)).foldl (· + ·) 0)

/-- The products of an element with their block scales, exact: what a check compares with (R134). -/
def PassArgs.products (a : PassArgs) (act : Nat) (parts : List (Nat × Nat)) : List Val :=
  parts.flatMap fun p => (List.range (a.groups p.1)).flatMap fun g => (a.groupKs p.1 g).map fun k =>
    let x := lane a.fa.bits act (p.1 + k)
    let y := lane a.fw.bits p.2 k
    if a.int then .ofInt (readInt a.fa x * readInt a.fw y)
    else (a.scaled p.1 g act p.2 ((readOperand a.fa x).1.mul (readOperand a.fw y).1).1).1

/-- A pass's own contribution to an element and the element it writes, as bits, and its flags. `parts` are the first K
and the plane row of the chained units; `old` is the tile's element. -/
def PassArgs.element (a : PassArgs) (act : Nat) (parts : List (Nat × Nat)) (old : Nat) : Nat × Nat × Nat :=
  if a.int then
    let c := chain 0 a.addInt (parts.map fun p =>
      chain 0 a.addInt ((List.range (a.groups p.1)).map (a.groupInt p.1 act p.2)))
    let r := if a.add then a.addInt (readInt .int32 old) c.1 else (c.1, 0)
    (ofInt 32 c.1, ofInt 32 r.1, c.2 ||| r.2)
  else
    let c := chain Val.zero a.addFloat (parts.map fun p =>
      chain Val.zero a.addFloat ((List.range (a.groups p.1)).map (a.groupFloat p.1 act p.2)))
    if a.add then
      let o := readOperand .fp32 old
      let r := a.addFloat c.1 o.1
      (accBits c.1, accBits r.1, c.2 ||| o.2 ||| r.2)
    else (accBits c.1, accBits c.1, c.2)

/-! ## Tiles and checks (R122, R134, R136) -/

/-- An element that a pass writes. -/
structure PassElem where
  row : Nat
  col : Nat
  part : Nat
  value : Nat
  flags : Nat
  /-- the products behind it -/
  terms : List Val

/-- The elements that a pass writes to tile group `t` of destination unit `d`: `act` is activation row i and `plane`
plane row c of a unit. -/
def PassArgs.elements (a : PassArgs) (m : Gang) (u d t rows cols : Nat) (act : Nat → Nat) (plane : Nat → Nat → Nat)
    (old : AccTile) : List PassElem :=
  (upTo (64 * t) (min 64 (rows - 64 * t))).flatMap fun i =>
    ((List.range 64).filter fun c => bit cols (columnBase m d + c) == 1).map fun c =>
      let parts := (chainUnits m u d a.depth).map fun j => (unitBase m j, plane j c)
      match a.free with
      | some n =>
        let v := Config.freeValue (n + (d * 256 + i) * 64 + c) % 2 ^ 32
        { row := i, col := c, part := v, value := v, flags := 0,
          terms := [if a.int then .ofInt (readInt .int32 v) else readFloat .fp32 v] }
      | none =>
        let e := a.element (act i) parts (tget 0 old.elems (64 * (i % 64) + c)).toNat
        { row := i, col := c, part := e.1, value := e.2.1, flags := e.2.2, terms := a.products (act i) parts }

/-- A tile after a pass: `bad` when a poisoned plane or row fed it. -/
def passTile (old : AccTile) (es : List PassElem) (rows cols : Nat) (add int bad : Bool) : AccTile :=
  if es.isEmpty then old
  else
    let full := rows = 64 && cols = 2 ^ 64 - 1
    { elems := es.foldl (fun t e => tset 0 t (64 * (e.row % 64) + e.col) (BitVec.ofNat 32 e.value)) old.elems,
      int := int, poison := bad || ((add || !full) && old.poison),
      clean := if bad || full then 0 else old.clean }

/-- Whether a contribution is infinite or NaN. -/
def notFinite (int : Bool) (x : Nat) : Bool := !int && 255 ≤ bits x 30 23

/-- Whether a value is infinite or NaN. -/
def Val.special : Val → Bool
  | .nan => true
  | .inf _ => true
  | .num _ _ _ => false

/-- The exact sum of contributions. -/
def outputSum (int : Bool) (l : List PassElem) : Val :=
  (sumVals (l.map fun e => if int then .ofInt (readInt .int32 e.part) else readFloat .fp32 e.part)).1

/-- An integral value mod 2^32. -/
def wordOf : Val → Nat
  | .num s m e => ofInt 32 (if s then -((m * 2 ^ e.toNat : Nat) : Int) else ((m * 2 ^ e.toNat : Nat) : Int))
  | .nan => 0
  | .inf _ => 0

/-- Whether the sum of contributions fails its comparison with the sum of their products (R134). Sum, check and S are
taken exact (log 58). -/
def checkFails (int : Bool) (tol : Nat) (l : List PassElem) : Bool :=
  let s := outputSum int l
  let ts := l.flatMap (·.terms)
  let c := (sumVals ts).1
  if int then wordOf s != wordOf c
  else (((sumVals (ts.map Val.abs)).1).scale (-(tol : Int))).lt (s.sub c).1.abs

/-- The sum of contributions as a record states it. -/
def checkSum (int : Bool) (l : List PassElem) : Nat :=
  let s := outputSum int l
  if int then wordOf s else accBits (accStep .nearest false s).1

/-- The checks of a tile group: the sums compared, and how many columns and rows are not. `plane` and `row` tell of
poison in a used plane and in an activation row. -/
def groupChecks (m : Gang) (d : Nat) (int plane : Bool) (tol : Nat) (row : Nat → Bool) (es : List PassElem) :
    List Check × Nat :=
  let cols := (es.map (·.col)).eraseDups
  let rows := (es.map (·.row)).eraseDups
  let line := fun (kind index : Nat) (l : List PassElem) (bad : Bool) =>
    if bad || plane || l.any (fun e => notFinite int e.part || e.terms.any Val.special) then none
    else some { unit := d, kind := kind, index := index, sum := checkSum int l, bad := checkFails int tol l : Check }
  let all := (cols.map fun c => line 0 (columnBase m d + c) (es.filter (·.col == c)) (rows.any row)) ++
    rows.map fun r => line 1 r (es.filter (·.row == r)) (row r)
  (all.filterMap id, (all.filter (·.isNone)).length)

/-! ## Accumulator moves (R104, R129) -/

/-- Element `i` of a pair of rows as lane `i`. -/
def pairLane (t : AccTile) (pair i : Nat) : Nat := (tget 0 t.elems (128 * pair + i)).toNat

/-- What `ACCRD` writes: rows of the tile in the enabled columns. -/
def accRead (old : VecReg) (t : AccTile) (pair cols : Nat) : VecReg :=
  let keeps := cols % 2 ^ 64 != 2 ^ 64 - 1
  { bits := BitVec.ofNat 4096 (packLanes 32 (fun i =>
      if bit cols (i % 64) = 1 then pairLane t pair i else lane 32 old.bits.toNat i) 128),
    poison := t.poison || (keeps && old.poison) }

/-- A tile after `ACCWR` of a row pair. -/
def accWrite (t : AccTile) (pair cols : Nat) (x : VecReg) : AccTile :=
  let on := (List.range 128).filter fun i => bit cols (i % 64) == 1
  let elems := on.foldl (fun e i => tset 0 e (128 * pair + i) (BitVec.ofNat 32 (lane 32 x.bits.toNat i))) t.elems
  let clean := if t.poison && !x.poison && cols % 2 ^ 64 = 2 ^ 64 - 1 then t.clean ||| (3 <<< (2 * pair)) else t.clean
  if x.poison then { t with elems := elems, poison := true, clean := 0 }
  else if clean = 2 ^ 64 - 1 then { t with elems := elems, poison := false, clean := 0 }
  else { t with elems := elems, clean := clean }

/-- A tile after `ACCZ`. -/
def accZero (t : AccTile) (cols : Nat) : AccTile :=
  if cols % 2 ^ 64 = 2 ^ 64 - 1 then .zero
  else { t with elems := t.elems.filter fun p => bit cols (p.1 % 64) != 1 }

/-! ## Drains (R130, R152) -/

/-- Row `r` of a drain: its 64 elements as written, and the flags. -/
def Stream.drainRow (t : Stream) (r : Nat) : List Nat × Nat :=
  let src := if t.tile.int then Fmt.int32 else .fp32
  let es := (List.range 64).map fun j =>
    convert src (fmtOf t.fmt) t.rnd t.sat (draw t.seed ((t.pos + 64 * r + j) % 2 ^ 64)) (tget 0 t.tile.elems (64 * r + j)).toNat
  (es.map (·.1), es.foldl (fun f e => f ||| e.2) 0)

/-- The bytes of a row of elements. -/
def packRow (f : Fmt) (es : List Nat) : List Nat :=
  toBytes (elemBytes f es.length) (es.foldr (fun x acc => (acc <<< f.bits) + x % 2 ^ f.bits) 0)

/-! ## Exponent histograms (R161, R162) -/

/-- Where a value is counted. -/
inductive HistClass
  | zero | subnormal | inf | nan | bin (e : Int)
  deriving DecidableEq, Repr

/-- The class of an element in its final form. -/
def histClass (f : Fmt) (x : Nat) : HistClass :=
  if f.isInt then
    let v := (readInt f x).natAbs
    if v = 0 then .zero else .bin (Nat.log2 v)
  else
    match readFloat f x with
    | .nan => .nan
    | .inf _ => .inf
    | .num _ m e => if m = 0 then .zero else if isSubnormal f x then .subnormal else .bin ((Nat.log2 m : Int) + e)

def HistClass.exponent? : HistClass → Option Int
  | .bin e => some e
  | .zero => none
  | .subnormal => none
  | .inf => none
  | .nan => none

/-- The bin of an exponent. -/
def histBin (e : Int) : Nat := (max (-64) (min 63 e) + 64).toNat

/-- A counter of 32 bits that saturates. -/
def count32 (n : Nat) : List Nat := toBytes 4 (min 0xFFFFFFFF n)

/-- The 576-byte record of a drain. -/
def histRecord (t : Stream) (elems : List Nat) (tread : Nat) : List Nat :=
  let n := elems.length
  let cs := if t.tile.poison then [] else elems.map (histClass (fmtOf t.fmt))
  let es := cs.filterMap HistClass.exponent?
  let count := fun (c : HistClass) => count32 ((cs.filter (· == c)).length)
  [t.fmt, if t.tile.poison && n != 0 then 1 else 0] ++ toBytes 2 t.rows ++ toBytes 4 n ++
    count .zero ++ count .subnormal ++ count .inf ++ count .nan ++
    count32 (if t.tile.poison then n else 0) ++
    toBytes 2 (match es.min? with
      | some e => ofInt 16 e
      | none => 0x7FFF) ++
    toBytes 2 (match es.max? with
      | some e => ofInt 16 e
      | none => 0x8000) ++
    toBytes 8 tread ++ toBytes 2 t.pc ++ toBytes 2 t.tag ++ zeros 20 ++
    ((List.range 128).flatMap fun b => count32 ((es.filter fun e => histBin e == b).length))

end Sys2Proof.Machine
end

