-- ==== Sys2Proof/Machine/Boot.lean ====
section
/-! DEFINITION. Cold reset, boot, the PMC's watchdogs and the life cycle (R471 to R491). -/

namespace Sys2Proof.Machine

/-! ## Flash records (R477, R486) -/

/-- The copy in force of two: the valid one with the higher sequence number; whether it is copy B. -/
def inForce {α : Type} (seq : α → Nat) : Option α → Option α → Option (α × Bool)
  | some a, some b => if seq a < seq b then some (b, true) else some (a, false)
  | some a, none => some (a, false)
  | none, some b => some (b, true)
  | none, none => none

/-- The directory in force. -/
def BootSt.directoryNow (b : BootSt) : Directory × Bool :=
  (inForce Directory.sequence b.dirA b.dirB).getD (.default, false)

/-- The life-cycle record that flash holds; the next cold reset takes it up. -/
def BootSt.recordNow (b : BootSt) : LcRecord × Bool := (inForce LcRecord.sequence b.lcA b.lcB).getD (.blank, false)

/-- Rewrites the directory in its other copy. -/
def BootSt.putDirectory (b : BootSt) (d : Directory) : BootSt :=
  let (old, inB) := b.directoryNow
  let x := { d with sequence := old.sequence + 1 }
  if inB then { b with dirA := some x, directory := x } else { b with dirB := some x, directory := x }

/-- Rewrites the life-cycle record in its other copy. -/
def BootSt.putRecord (b : BootSt) (r : LcRecord) : BootSt :=
  let (old, inB) := b.recordNow
  let x := { r with sequence := old.sequence + 1 }
  if inB then { b with lcA := some x } else { b with lcB := some x }

/-! ## Cold reset (R471, R473, R476) -/

/-- What flash, fuses, pins and the queue hold through a cold reset; everything else is at reset. -/
def State.coldBase (s : State) : State :=
  { State.reset with
    pending := s.pending, order := s.order, out := s.out, drawn := s.drawn,
    pwr := { PwrSt.reset with pins := s.pwr.pins, tripped := s.pwr.tripped, latchedFaults := s.pwr.latchedFaults },
    host := { HostSt.reset with
      profiles := s.host.profiles, pagesA := s.host.pagesA, pagesB := s.host.pagesB, jtag := s.host.jtag,
      boundary := s.host.boundary },
    boot := { BootSt.init with
      dirA := s.boot.dirA, dirB := s.boot.dirB, lcA := s.boot.lcA, lcB := s.boot.lcB, retireA := s.boot.retireA,
      retireB := s.boot.retireB, pmcBanks := s.boot.pmcBanks, hallBanks := s.boot.hallBanks, compat := s.boot.compat,
      lcDone := s.boot.lcDone, serial := s.boot.serial },
    ras := { RasSt.reset with store := s.ras.store, nextSlot := s.ras.nextSlot },
    sdc := { SdcSt.reset with base := s.sdc.base, packs := s.sdc.packs } }

/-- Boot steps 1 to 3: straps, the watchdog, the flash records and the management endpoint (R479). -/
def State.bootBegin (s : State) : State :=
  let p := s.pwr.pins
  let s1 := s.onPwr fun x => { x with
    profile := p.strapProfile % 4, mgtAddr := p.strapMgtAddr % 4, refSel := p.strapRefSel % 2 }
  let s2 := s1.onBoot fun b => { b with
    step := 3, began := s.time.tick, watchdog := true, directory := b.directoryNow.1, record := b.recordNow.1 }
  let s3 := s2.onRas fun r => { r with lastId := ((r.store.filterMap (·.2)).map (·.recordId)).max?.getD 0 }
  (s3.setFld F.TIME_CTRL_REF_FREQ (p.strapRefSel % 2)).setFld F.BOOT_STATUS_STATE 1

/-- A cold reset with its cause in `LAST_RESET` and what `BOOT_PMC_FAULT` keeps. Boot begins unless a trip or the
supplies hold the device in reset (R502, R509). -/
def State.coldReset (s : State) (cause : Nat) (fault : Nat := 0) : State :=
  let s1 := (s.coldBase.setFld F.BOOT_STATUS_LAST_RESET cause).setReg .BOOT_PMC_FAULT 0 0 fault
  if s1.pwr.pins.pwrOk && !s1.pwr.tripped then s1.bootBegin else s1

/-- R471: PWR_OK_IN rises. -/
def doColdReset (s : State) : State :=
  if s.pwr.pins.pwrOk && (s.boot.step != 0 || s.pwr.tripped) then s
  else (s.onPwr fun p => { p with pins := { p.pins with pwrOk := true }, tripped := false }).coldReset 0

/-- A write to `BOOT_CTRL`: the highest-ranked reset named acts alone (R472). -/
def State.bootCtrlWritten (s : State) (x : Nat) : State :=
  if F.BOOT_CTRL_COLD.of x = 1 then s.coldReset 1
  else if F.BOOT_CTRL_WARM.of x = 1 then s.resetWarm 5
  else if F.BOOT_CTRL_PART_ALL.of x = 1 then s.resetWide
  else s

/-- R497: PERST_N is asserted, for at least 1 µs. -/
def doPerstNAssert (s : State) : State :=
  if s.pwr.pins.perstN then (s.onPwr fun p => { p with pins := { p.pins with perstN := false } }).resetWarm 4 else s

/-- R497: PERST_N is deasserted. -/
def doPerstNDeassert (s : State) : State := s.onPwr fun p => { p with pins := { p.pins with perstN := true } }

/-! ## Images (R478, R479) -/

/-- Bytes of an image bank (R418). -/
def bankBytes (component : Nat) : Nat := if component = 1 then 2 ^ 22 else 2 ^ 21

/-- The SVN floor of a component in force; FIELD and RETURN enforce floors (R488). -/
def State.svnFloor (s : State) (component : Nat) : Nat :=
  if s.boot.record.state < 2 then 0 else if component = 1 then s.boot.record.pmcFloor else s.boot.record.hallFloor

/-- Whether an image is valid for a bank of a component. -/
def State.imageValid (s : State) (component : Nat) (x : Image) : Bool :=
  x.signed && x.component == component && x.stepping == 0xB0 && x.bytes ≤ bankBytes component &&
    s.svnFloor component ≤ x.svn

/-- The bank that boot takes: bank, image, whether it fell back, and whether it is the pending one; none when both are
invalid. -/
def State.pickBank (s : State) (component : Nat) (banks : Tbl (Option Image)) (active : Nat) (pending : Option Nat)
    (tried : Bool) : Option (Nat × Image × Bool × Bool) :=
  let good := fun (b : Nat) => (tget none banks b).filter (s.imageValid component)
  let trying := pending.isSome && !tried
  let b := if trying then pending.getD active else active
  match good b, good (1 - b) with
  | some x, _ => some (b, x, false, trying)
  | none, some x => some (1 - b, x, true, false)
  | none, none => none

/-- PENDING and TRIED once a bank has been tried: a pending bank that was tried before or is invalid is cleared. -/
def pendingAfter (pending : Option Nat) (tried good : Bool) : Option Nat × Bool :=
  if pending.isSome && !tried && good then (pending, true) else (none, false)

/-- The boot ends in RECOVERY (R480); the watchdog stops (log 52). -/
def State.enterRecovery (s : State) : State :=
  (s.onBoot fun b => { b with watchdog := false }).setFld F.BOOT_STATUS_STATE 5

/-- Whether boot stands after step `n` and goes on. -/
def State.bootAt (s : State) (n : Nat) : Bool := s.boot.step == n && s.fld F.BOOT_STATUS_STATE != 5

/-- Applies a channel of the retirement list before bring-up (R429, R479). -/
def State.applyRetired (s : State) (ch : Nat) : State :=
  let i := chanIndex ch
  if !isChannel ch then s
  else
    let s1 := s.setFld F.RAS_BUCKET_RETIRED 1 0 ch
    match chanKind ch with
    | 1 => s1.onPort i fun x => { x with state := .retired }
    | 2 =>
      let x := s1.channel (i / 2)
      s1.setChannel (i / 2) (if i % 2 = 0 then { x with pc0Retired := true } else { x with pc1Retired := true })
    | 3 => s1.setChannel i { Channel.reset with
        state := .retired, pc0Retired := true, pc1Retired := true, excluded := true }
    | 4 => if i < 256 then s1.onAlcove i fun x => { x with core := { x.core with state := .retired } } else s1
    | 6 => s1.setEngine i { CopyEngine.reset with retired := true }
    | _ => s1

/-- Step 6: the halls and stacks are powered, latched regulator faults are reported, and bring-up begins (R501, R511). -/
def State.powerHalls (s : State) : State :=
  let s1 := forEach (List.range 8) s fun s h =>
    s.onPwr fun p => { p with halls := tset .reset p.halls h { tget .reset p.halls h with powered := true, running := 1000 } }
  let s2 := ((s1.onPwr fun p => { p with seqEn := true, latchedFaults := 0 }).setFld F.PWR_RAILS_GOOD 0xFFFF).setFld
    F.BOOT_STATUS_HALLS_UP 0xFF
  let s3 := s2.setFld F.PWR_RAILS_FAULTED s.pwr.latchedFaults
  let s4 := if s.pwr.latchedFaults != 0 then s3.raise F.PWR_EVENT_RAIL_FAULT 110 else s3
  forEach (List.range 256) s4 fun s c =>
    let x := s.channel c
    if x.state = .off then s.setChannel c { x with state := .training } else s

/-- R479: steps 4 to 6. -/
def doBootPmcImageVerified (s : State) : State :=
  if !s.bootAt 3 then s
  else
    let d := s.boot.directory
    let pick := s.pickBank 1 s.boot.pmcBanks d.pmcActive d.pmcPending d.triedPmc
    let used := match pick with
      | some (_, _, _, p) => p
      | none => false
    let (pend, tried) := pendingAfter d.pmcPending d.triedPmc used
    let s1 := if d.pmcPending.isSome then
        s.onBoot fun b => b.putDirectory { d with pmcPending := pend, triedPmc := tried }
      else s
    match pick with
    | none => s1.enterRecovery
    | some (bank, x, fell, _) =>
      let s2 := s1.onBoot fun b => { b with step := 6, pmcImage := some x, triedPmc := if used then some bank else none }
      let s3 := ((s2.setReg .BOOT_PMC_VER 0 0 x.version).setFld F.BOOT_STATUS_PMC_FALLBACK (if fell then 1 else 0)).onHc 8
        fun c => { c with
          istore := (x.bundles.mapIdx fun i b => (i, b)).filter (·.2 != 0), core := { Core.reset with state := .running } }
      let s4 := forEach (s3.boot.retireA ++ s3.boot.retireB).eraseDups s3 State.applyRetired
      (s4.reroute.loadPages.powerHalls).setFld F.BOOT_STATUS_STATE 2

/-- Whether the running pairing is tested (R483). -/
def BootSt.tested (b : BootSt) (pmc hall : Image) : Bool :=
  (b.compat ++ pmc.compat ++ hall.compat).any fun e =>
    e.stepping == 0xB0 && e.pmcMin ≤ pmc.version && pmc.version ≤ e.pmcMax && e.hallMin ≤ hall.version &&
      hall.version ≤ e.hallMax

/-- R479: step 7. -/
def doBootHallImageVerified (s : State) : State :=
  if !s.bootAt 6 then s
  else
    let d := s.boot.directory
    let pick := s.pickBank 2 s.boot.hallBanks d.hallActive d.hallPending d.triedHall
    let used := match pick with
      | some (_, _, _, p) => p
      | none => false
    let (pend, tried) := pendingAfter d.hallPending d.triedHall used
    let s1 := if d.hallPending.isSome then
        s.onBoot fun b => b.putDirectory { d with hallPending := pend, triedHall := tried }
      else s
    match pick, s.boot.pmcImage with
    | some (bank, x, fell, _), some pmc =>
      let s2 := s1.onBoot fun b => { b with
        step := 7, hallImage := some x, triedHall := if used then some bank else none,
        untested := !b.tested pmc x, restricted := !b.tested pmc x }
      (s2.setReg .BOOT_HALL_VER 0 0 x.version).setFld F.BOOT_STATUS_HALL_FALLBACK (if fell then 1 else 0)
    | _, _ => s1.enterRecovery

/-- A hall controller with its stores loaded from the hall image, at bundle 0. -/
def HallCtl.loaded (c : HallCtl) (x : Image) : HallCtl :=
  { c with core := { Core.reset with state := .running }, dstore := storeBytes [] 0 x.data, dstorePoison := [],
           istore := (x.bundles.mapIdx fun i b => (i, b)).filter (·.2 != 0), fault := none }

/-- R479: step 8 begins. The controllers start, the profile of the strap applies (R340), and links come up. -/
def doBootHallStart (s : State) : State :=
  match s.bootAt 7, s.boot.hallImage with
  | true, some x =>
    let up := (List.range 8).filter fun h => !s.boot.unpowered.contains h
    let s1 := forEach up (s.onBoot fun b => { b with step := 8 }) fun s h => s.onHc h fun c => c.loaded x
    let s2 := forEach (up.flatMap fun h => upTo (32 * h) 32) s1 fun s n =>
      if (s.alcove n).core.state = .off then s.setAlcove n { Alcove.reset with core := { Core.reset with state := .idle } }
      else s
    let s3 := (s2.onPwr fun p => { p with
      boardCap := 2100,
      halls := p.halls.map fun h => (h.1, { h.2 with hallCap := 2100, thermalCap := 2100, pinCap := 2100 }) }).applyProfile
      s.pwr.profile
    let s4 := s3.onPart fun p => { p with bound := tset none [] 0 (some p.profile.vi0Part) }
    let s5 := forEach (up.flatMap fun h => [2 * h, 2 * h + 1]) s4 State.swapSpare
    forEach (up.flatMap fun h => upTo (8 * h) 8) s5 fun s p =>
      if s.part.profile.portRole.getD p 0 = 0 then s
      else (s.setFld F.CLZ_PORT_CTRL_ENABLE 1 p).portCtrlWritten p 0 0
  | _, _ => s

/-- A tried pending bank is committed; in FIELD its SVN becomes the floor (R479, R488). -/
def State.commitBanks (s : State) : State :=
  let b := s.boot
  let d0 := b.directory
  let d1 := match b.triedPmc with
    | some k => { d0 with pmcActive := k, pmcPending := none, triedPmc := false }
    | none => d0
  let d2 := match b.triedHall with
    | some k => { d1 with hallActive := k, hallPending := none, triedHall := false }
    | none => d1
  let svn := fun (tried : Option Nat) (x : Option Image) (old : Nat) =>
    match tried, x with
    | some _, some i => max old i.svn
    | _, _ => old
  let r := b.recordNow.1
  let pf := svn b.triedPmc b.pmcImage r.pmcFloor
  let hf := svn b.triedHall b.hallImage r.hallFloor
  let s1 := if b.triedPmc.isSome || b.triedHall.isSome then
      s.onBoot fun b => { b.putDirectory d2 with triedPmc := none, triedHall := none }
    else s
  if r.state = 2 && (pf != r.pmcFloor || hf != r.hallFloor) then
    s1.onBoot fun b => { b.putRecord { r with pmcFloor := pf, hallFloor := hf } with
      record := { b.record with pmcFloor := pf, hallFloor := hf } }
  else s1

/-- The PMC_RESET record of R476, from `BOOT_PMC_FAULT`. -/
def State.pmcResetRecord (s : State) : State :=
  if s.fld F.BOOT_PMC_FAULT_VALID = 1 then
    (s.record { RasRecord.blank with
      kind := kindPmcReset, detector := 0x19,
      flags := if s.fld F.BOOT_PMC_FAULT_INJECTED = 1 then flagInjected else 0,
      location := [s.fld F.BOOT_PMC_FAULT_CODE, s.fld F.BOOT_PMC_FAULT_SLOT] ++ toBytes 2 (s.fld F.BOOT_PMC_FAULT_PC) ++
        [s.fld F.BOOT_PMC_FAULT_TIMER] }).1
  else s

/-- R479: step 9. -/
def doBootReady (s : State) : State :=
  let up := (List.range 256).all fun c =>
    (s.channel c).state == .ready || (s.channel c).state == .retired || s.boot.unpowered.contains (c / 32)
  if !(s.bootAt 8 && up) then s
  else
    let s1 := (s.onBoot fun b => { b with step := 9, watchdog := false, service := some s.time.tick }).commitBanks
    let s2 := (forEach (List.range 16) s1 State.remap).loadPages
    let s3 := s2.readyAgain s.boot.began
    let s4 := s3.raise (if s.boot.restricted then F.BOOT_EVENT_RESTRICTED else F.BOOT_EVENT_READY) 109
    let s5 := if s.boot.lcDone then (s4.onBoot fun b => { b with lcDone := false }).raise F.BOOT_EVENT_LC_DONE 109 else s4
    s5.pmcResetRecord.packsVerified

/-- R479: the boot watchdog expires 2 s after step 1. -/
def doBootWatchdogExpire (s : State) : State :=
  if s.boot.watchdog && 2000000000 ≤ s.time.tick - s.boot.began then s.coldReset 2 else s

/-! ## The PMC in service (R475, R476) -/

/-- R476: the PMC's service timer expires 100 ms after its last restart. -/
def doPmcServiceTimerExpire (s : State) : State :=
  match s.boot.service with
  | some t =>
    if 100000000 ≤ s.time.tick - t then
      let f := F.BOOT_PMC_FAULT_TIMER.put (F.BOOT_PMC_FAULT_VALID.put 0 1) 1
      s.coldReset 7 (F.BOOT_PMC_FAULT_INJECTED.put f (if s.inj.timerStopped then 1 else 0))
    else s
  | none => s

/-- R476: the PMC has faulted in service. -/
def doPmcFault (s : State) : State :=
  match (s.hc 8).fault, s.boot.step == 9 with
  | some (code, slot, pc), true =>
    let f := F.BOOT_PMC_FAULT_CODE.put (F.BOOT_PMC_FAULT_VALID.put 0 1) code
    s.coldReset 7 (F.BOOT_PMC_FAULT_PC.put (F.BOOT_PMC_FAULT_SLOT.put f slot) pc)
  | _, _ => s

/-- A hall is left unpowered for this boot; H0 ends it in RECOVERY (R481). -/
def State.loseHall (s : State) (h : Nat) : State :=
  if h = 0 then s.enterRecovery
  else
    let s1 := s.onBoot fun b => { b with unpowered := if b.unpowered.contains h then b.unpowered else b.unpowered ++ [h] }
    let s2 := s1.setHallPower h { HallPower.reset with temp := (s1.hallPower h).temp }
    let s3 := (s2.setFld F.BOOT_STATUS_DEGRADED 1).setFld F.BOOT_STATUS_HALLS_UP (clearBit (s2.fld F.BOOT_STATUS_HALLS_UP) h)
    let s4 := forEach (upTo (32 * h) 32) s3 fun s n => s.onAlcove n fun x =>
      { x with core := { x.core with state := if x.core.state = .retired then .retired else .off } }
    (forEach (upTo (8 * h) 8) s4 fun s p => if (s.port p).state = .retired then s else s.portEnter p .off).setHc h .reset

/-- `ALC_HC_CTRL`.RESTART of controller `h` (R355, R471). -/
def State.restartHc (s : State) (h : Nat) : State :=
  (s.onHc h HallCtl.restarted).dropTarget h

/-- R475, R481: the PMC restarts a faulted hall controller, or leaves it. -/
def doHcAutoRestart (h : Nat) (s : State) : State :=
  let c := s.hc h
  if c.core.state != .faulted then s
  else
    let reload := fun (s : State) => (s.onHc h fun c => { c with istore := match s.boot.hallImage with
      | some x => (x.bundles.mapIdx fun i b => (i, b)).filter (·.2 != 0)
      | none => c.istore }).restartHc h
    if s.boot.step = 8 then
      let n := tget 0 s.boot.hallFaults h + 1
      let s1 := s.onBoot fun b => { b with hallFaults := tset 0 b.hallFaults h n }
      if n < 3 then reload s1 else s1.loseHall h
    else
      let recent := s.time.tick :: c.faults.filter fun t => s.time.tick - t < 3600000000000
      let s1 := s.onHc h fun c => { c with faults := recent }
      if recent.length < 3 then reload s1
      else
        let s2 := s1.onHc h fun c => { c with core := { c.core with state := .halted } }
        (s2.record { RasRecord.blank with kind := kindPermanent, detector := 0x0F, location := [h] }).1.raise
          F.BOOT_EVENT_HC_HALTED 109

/-! ## Restricted mode by management (R484) -/

/-- A write to `BOOT_OVERRIDE`. -/
def State.bootOverrideWritten (s : State) (x : Nat) : State :=
  if s.boot.restricted && x = (s.reg .BOOT_PMC_VER ^^^ s.reg .BOOT_HALL_VER) then s.overrideNow else s

/-! ## Life cycle (R486 to R491) -/

/-- Whether a transition is in the table of R489, and whether management alone commands it. -/
def lcTransition (from_ next : Nat) : Option Bool :=
  match from_, next with
  | 0, 1 => some true
  | 1, 2 => some false
  | 2, 3 => some false
  | 3, 1 => some true
  | 1, 0 => some true
  | 3, 0 => some true
  | _, _ => none

/-- The management side of R490: the management bus and the register bridge. -/
def Agent.isManagement : Agent → Bool
  | .mgt => true
  | .bridge => true
  | _ => false

/-- A transition is committed (R489). -/
def State.lcCommit (s : State) (next : Nat) : State :=
  let old := s.boot.recordNow.1
  let new : LcRecord := { old with
    state := next, transitions := old.transitions + 1,
    deviceId := if next = 0 then 0 else if old.state = 0 then s.fld F.LC_NEXT_ID_NEXT else old.deviceId,
    pmcFloor := if next = 0 then 0 else old.pmcFloor, hallFloor := if next = 0 then 0 else old.hallFloor }
  let boundary := nextRecordId s.ras.lastId
  let s1 := s.onBoot fun b =>
    { (b.putRecord new).putDirectory { b.directory with rasBoundary := boundary } with
      retireA := [], retireB := [], lcDone := true }
  let s2 := if next = 0 then
      ((s1.onHost fun h => { h with pagesA := [], pagesB := [] }).onSdc fun x => { x with packs := [] }).onRas fun r =>
        { r with store := [], nextSlot := 0 }
    else s1
  s2.coldReset 3

/-- Whether a PLDM update or a flash write is running (R490). -/
def State.flashBusy (s : State) : Bool := !s.host.flashQueue.isEmpty || s.host.update != 0

/-- `LC_STATUS`.RESULT. -/
def State.lcResult (s : State) (r : Nat) : State := s.setFld F.LC_STATUS_RESULT r

/-- A write to `LC_CMD` by an agent (R490, R491). -/
def State.lcCmdWritten (s : State) (a : Agent) (x : Nat) : State :=
  let target := F.LC_CMD_TARGET.of x
  let matched := F.LC_CMD_TARGET_N.of x == 3 - target
  match F.LC_CMD_OP.of x with
  | 1 =>
    if matched then (s.onBoot fun b => { b with lcArm := some { target := target, since := s.time.tick } }).lcResult 0
    else s.lcResult 1
  | 2 =>
    let armed := match s.boot.lcArm with
      | some arm => matched && arm.target == target && s.time.tick - arm.since ≤ 1000000000
      | none => false
    let legal := match lcTransition s.boot.recordNow.1.state target with
      | some mgtOnly => !mgtOnly || a.isManagement
      | none => false
    if !(armed && legal) then s.lcResult 1
    else if s.flashBusy then s.lcResult 2
    else s.lcCommit target
  | 3 =>
    if s.boot.recordNow.1.state = 0 then s.lcResult 1
    else
      ((s.onBoot fun b => b.putRecord { b.recordNow.1 with deviceId := s.fld F.LC_NEXT_ID_NEXT }).setFld
        F.LC_NEXT_ID_PENDING 1).lcResult 0
  | _ => s

/-- R490: an ARM lapses after 1 s. -/
def doLcArmLapse (s : State) : State :=
  match s.boot.lcArm with
  | some arm => if 1000000000 < s.time.tick - arm.since then s.onBoot fun b => { b with lcArm := none } else s
  | none => s

end Sys2Proof.Machine
end

