-- ==== Sys2Proof/Machine/Host.lean ====
section
/-! DEFINITION. The PCIe and management interfaces, firmware update, flash operations and boundary scan (R396 to
R422). -/

namespace Sys2Proof.Machine

/-! ## The link (R397) -/

/-- Sets the fields of `PCI_LINK`. -/
def State.pciLink (s : State) (rate width : Nat) (flit : Bool) : State :=
  ((s.setFld F.PCI_LINK_RATE rate).setFld F.PCI_LINK_WIDTH width).setFld F.PCI_LINK_FLIT (if flit then 1 else 0)

/-- R397: the link leaves L0; without PERST_N this is LINK_DOWN. -/
def doPcieLinkDown (s : State) : State :=
  if s.host.linkUp then
    let s1 := ((s.onHost fun h => { h with linkUp := false }).pciLink 0 0 false).raise F.PCI_EVENT_LINK_CHANGE 107
    if s.pwr.pins.perstN then s1.raise F.PCI_EVENT_LINK_DOWN 107 else s1
  else s

/-- Whether the PCIe controller may train (R480, R481, R497). -/
def State.mayTrain (s : State) : Bool :=
  s.pwr.pins.perstN && (6 ≤ s.boot.step || s.fld F.BOOT_STATUS_STATE == 5)

/-- R396, R397: the link reaches L0 at a rate and a width. -/
def doPcieLinkUp (rate width : Nat) (flit : Bool) (s : State) : State :=
  if s.mayTrain && 1 ≤ rate && rate ≤ 6 && [1, 2, 4, 8, 16].contains width && (rate != 6 || flit) then
    ((s.onHost fun h => { h with linkUp := true }).pciLink rate width flit).raise F.PCI_EVENT_LINK_CHANGE 107
  else s

/-! ## Functions (R321, R398, R399) -/

/-- VF Enable is cleared: every VF is reset, disabled and unbound. -/
def doVfEnableClear (s : State) : State :=
  if s.part.vfEnable then
    let s1 := forEach (upTo 1 s.part.numVfs) s fun s v =>
      (s.resetVi v true).onHost fun h => { h with funcs := tdel h.funcs v }
    s1.onPart fun p => { p with vfEnable := false, numVfs := 0 }
  else s

/-- R321, R398: VF Enable is set with NumVFs; it has no effect in BLANK (R488), in RECOVERY or before READY (R480, R481). -/
def doVfEnableSet (num : Nat) (s : State) : State :=
  if s.inService && s.host.linkUp && !s.part.vfEnable && s.boot.record.state != 0 && num ≤ 255 then
    s.onPart fun p => { p with vfEnable := true, numVfs := num }
  else s

/-- R399: a function-level reset of a VF. -/
def doVfFlr (v : Nat) (s : State) : State :=
  if v != 0 && s.viEnabled v && s.host.linkUp then
    (s.resetVi v false).onHost fun h => { h with funcs := tdel h.funcs v }
  else s

/-- R399: a function-level reset of the PF. -/
def doPfFlr (s : State) : State :=
  if s.host.linkUp then
    (doVfEnableClear (s.resetVi 0 false)).onHost fun h => { h with funcs := tdel h.funcs 0 }
  else s

/-! ## MSI-X (R407) -/

/-- The package vector of entry `i` of function `v`; none beyond its range. -/
def State.msixVector (s : State) (v i : Nat) : Option Nat :=
  if i < s.fld F.VI_MSIX_COUNT v && s.fld F.VI_MSIX_BASE v + i < 2048 then some (s.fld F.VI_MSIX_BASE v + i) else none

def State.msixEntry (s : State) (pv : Nat) : MsixEntry := tget .reset s.host.msix pv

def State.setMsixEntry (s : State) (pv : Nat) (e : MsixEntry) : State :=
  s.onHost fun h => { h with msix := tset .reset h.msix pv e }

/-- Sends a pending message of function `v` that nothing masks any more. -/
def State.msixDeliver (s : State) (v pv : Nat) : State :=
  let e := s.msixEntry pv
  let c := s.host.func v
  if e.pending && !e.mask && c.msixEnable && !c.funcMask then
    (s.setMsixEntry pv { e with pending := false }).emit (.msix pv e.addr e.data)
  else s

/-- R407: the host clears the mask of a table entry of function `v`, or sets its MSI-X Enable and clears its Function
Mask. -/
def doMsixUnmask (v : Nat) (entry : Option Nat) (s : State) : State :=
  match entry with
  | some i =>
    match s.msixVector v i with
    | some pv => (s.setMsixEntry pv { s.msixEntry pv with mask := false }).msixDeliver v pv
    | none => s
  | none =>
    let s1 := s.onHost fun h => { h with
      funcs := tset none h.funcs v (some { h.func v with msixEnable := true, funcMask := false }) }
    forEach ((s1.host.msix.filter (·.2.pending)).map (·.1)) s1 fun s pv =>
      let base := s.fld F.VI_MSIX_BASE v
      if base ≤ pv && pv < base + s.fld F.VI_MSIX_COUNT v then s.msixDeliver v pv else s

/-- A host write of a 4-byte word of the MSI-X table of function `v`, at byte `off` of the table. -/
def State.msixWrite (s : State) (v off value : Nat) : State :=
  match s.msixVector v (off / 16) with
  | none => s
  | some pv =>
    let e := s.msixEntry pv
    match off % 16 / 4 with
    | 0 => s.setMsixEntry pv { e with addr := BitVec.ofNat 64 (putBits e.addr.toNat 31 0 value) }
    | 1 => s.setMsixEntry pv { e with addr := BitVec.ofNat 64 (putBits e.addr.toNat 63 32 value) }
    | 2 => s.setMsixEntry pv { e with data := BitVec.ofNat 32 value }
    | _ => (s.setMsixEntry pv { e with mask := bit value 0 == 1 }).msixDeliver v pv

/-- A host read of a word of the table. -/
def State.msixRead (s : State) (v off : Nat) : Nat :=
  match s.msixVector v (off / 16) with
  | none => if off % 16 = 12 then 1 else 0
  | some pv =>
    let e := s.msixEntry pv
    match off % 16 / 4 with
    | 0 => bits e.addr.toNat 31 0
    | 1 => bits e.addr.toNat 63 32
    | 2 => e.data.toNat
    | _ => if e.mask then 1 else 0

/-- A host read of word `w` of the pending bits of function `v`. -/
def State.pbaRead (s : State) (v w : Nat) : Nat :=
  (List.range 32).foldl (fun n i => match s.msixVector v (32 * w + i) with
    | some pv => if (s.msixEntry pv).pending then n + 2 ^ i else n
    | none => n) 0

/-! ## BAR4 (R404 to R406) -/

/-- Where a BAR4 offset of function `v` leads: space code and device offset or gallery byte. -/
def State.bar4Target (s : State) (v o : Nat) : Option (Nat × Nat) :=
  let z := 2 ^ (30 + (s.host.func v).bar4Log)
  let base := min 383 (s.fld F.PCI_BAR4_BASE_GIB 0 v) * 2 ^ 30
  if o < z - 2 ^ 30 then some (spaceD, base + o)
  else if o < z - 2 ^ 29 then some (spaceG, o + 2 ^ 30 - z)
  else none

/-- Whether an access of `len` bytes qualifies, with its target. -/
def State.bar4Access (s : State) (v o len : Nat) (write : Bool) : Option (Nat × Nat) :=
  match s.bar4Target v o, s.bar4Target v (o + len - 1) with
  | some (sp, a), some (sp2, b) =>
    let may := v = 0 || s.viMay v (gaMake s.deviceId sp a) len write
    if len != 0 && sp == sp2 && b + 1 == a + len && may then some (sp, a) else none
  | _, _ => none

/-- Logs a BAR error (R401, R406): KIND, ACCESS and the function. -/
def State.barErr (s : State) (kind access v : Nat) : State :=
  (s.logFirst F.PCI_BAR_ERR_VALID F.PCI_BAR_ERR_OVERRUN 0 0
    [(F.PCI_BAR_ERR_KIND, kind), (F.PCI_BAR_ERR_ACCESS, access), (F.PCI_BAR_ERR_RING, 0), (F.PCI_BAR_ERR_VI, v)]).raise
    F.PCI_EVENT_BAR_ERR 107

/-- A BAR4 access that does not reach memory (R406). -/
def State.bar4Refuse (s : State) (v : Nat) : State :=
  (s.onHost fun h => { h with
    funcs := tset none h.funcs v (some { h.func v with aerUr := (h.func v).aerUr + 1 }) }).barErr 0 2 v

/-- Whether a function's BARs answer. -/
def State.barOpen (s : State) (v : Nat) : Bool := s.host.linkUp && s.viEnabled v

/-- R405: a host read through BAR4. It waits while a stack cannot serve it. -/
def doBar4Read (v o len : Nat) (s : State) : State :=
  if !s.barOpen v then s
  else
    match s.bar4Access v o len false with
    | none => (s.bar4Refuse v).emit (.bar4Data v none)
    | some (sp, a) =>
      if sp = spaceD && s.dBlocked a len true then s
      else
        let r := if sp = spaceD then s.readD a len else s.readG a len
        r.st.emit (.bar4Data v (some (r.data, r.poison)))

/-- R405: a host write through BAR4; with EP every sector and word it touches carries poison. -/
def doBar4Write (v o : Nat) (bytes : List Nat) (ep : Bool) (s : State) : State :=
  if !s.barOpen v then s
  else
    let data := bytes.map (· % 256)
    match s.bar4Access v o data.length true with
    | none => s.bar4Refuse v
    | some (sp, a) =>
      if sp = spaceG then s.writeG a data (data.map fun _ => ep)
      else
        let s1 := s.writeDAll a data (if ep then 2 ^ (data.length / 32 + 1) - 1 else 0)
        if ep then
          forEach (upTo (a / 32) ((a + data.length + 31) / 32 - a / 32)) s1 fun s k =>
            match s.placeOf (32 * k) with
            | some p => if (s.bypass p.key).2 then s else s.onHbm fun h => { h with poison := tset false h.poison p.key true }
            | none => s
        else s1

/-! ## ATS (R409) -/

/-- R409: an Invalidate Request removes every matching entry; accesses are single commands, so none is under way. -/
def doAtsInvalidate (v : Nat) (pasid : Option Nat) (page pages : Nat) (s : State) : State :=
  if s.barOpen v then
    (s.onHost fun h => { h with translations := h.translations.filter fun t =>
      !(t.func == v && t.pasid == pasid && page ≤ t.page && t.page < page + pages) }).emit (.atsInvalidated v)
  else s

/-! ## Management (R412 to R415) -/

/-- Whether the management endpoint works (R412, R479). -/
def State.mgtUp (s : State) : Bool := 3 ≤ s.boot.step

def State.reply (s : State) (r : Reply) : State := s.emit (.reply r)

/-- R412: the bus owner assigns the endpoint ID; 0 to 7 and 255 are none (log 54). -/
def doSetEndpointId (eid : Nat) (s : State) : State :=
  if !s.mgtUp then s
  else if 8 ≤ eid && eid < 255 then
    (((s.onHost fun h => { h with eid := some eid }).setFld F.MGT_STATUS_EID eid).setFld F.MGT_STATUS_EID_VALID 1 |>.raise
      F.MGT_EVENT_EID_SET 108).reply (.ok [])
  else s.reply .wrongState

/-- R413: an MCTP message of a type; of PLDM, with its PLDM type. What a discovery answer says is DMTF's. -/
def doMctpControlMessage (type pldm : Nat) (s : State) : State :=
  if !s.mgtUp then s
  else
    let offered := type = 0 || type = 0x7E || (type = 1 && [0, 2, 4, 5].contains pldm)
    s.reply (if offered then .ok [] else .unsupported)

/-- The reading of a numeric or state sensor (R415). -/
def State.sensor (s : State) (id : Nat) : Option (List Nat) :=
  let powered := fun (h : Nat) => (s.hallPower h).powered
  if 1 ≤ id && id ≤ 8 then
    if powered (id - 1) then some (toBytes 2 (ofInt 16 (s.hallPower (id - 1)).temp)) else none
  else if 9 ≤ id && id ≤ 16 then
    if powered (id - 9) then some (toBytes 2 (ofInt 16 (tget 0 s.pwr.stackTemp (id - 9)))) else none
  else if id = 17 then if 6 ≤ s.boot.step then some (toBytes 2 (s.fld F.PWR_STATUS_BOARD_W)) else none
  else if 18 ≤ id && id ≤ 25 then
    if powered (id - 18) then some (toBytes 2 (s.hallPower (id - 18)).watts) else none
  else if id = 26 then if powered 0 then some [s.timeState.code] else none
  else some [(if s.boot.restricted then 1 else 0) + (if s.boot.override then 2 else 0)]

/-- R415: a PLDM type 2 request for a sensor. -/
def doGetSensorReading (id : Nat) (s : State) : State :=
  if !s.mgtUp then s
  else if id = 0 || 27 < id then s.reply .unsupported
  else
    match s.sensor id with
    | some d => s.reply (.ok d)
    | none => s.reply .unavailable

/-- R413: FRU data: order code, stepping and serial number. -/
def doFruDataRead (s : State) : State :=
  if s.mgtUp then
    s.reply (.ok ([(match s.order with
      | .l => 0
      | .e => 1), 0xB0] ++ toBytes 8 s.boot.serial.toNat))
  else s

/-! ## Firmware update (R416, R478) -/

/-- `MGT_STATUS`.UPDATE. -/
def State.setUpdate (s : State) (n : Nat) : State := (s.onHost fun h => { h with update := n }).setFld F.MGT_STATUS_UPDATE n

/-- R416: RequestUpdate. -/
def doRequestUpdate (s : State) : State :=
  if !s.mgtUp then s
  else if s.host.update != 0 then s.reply .alreadyUpdating
  else ((s.onHost fun h => { h with component := none, applied := [] }).setUpdate 1).reply (.ok [])

/-- Whether an image meets the SVN condition (R478). -/
def State.svnOk (s : State) : Payload → Bool
  | .pmc x => s.svnFloor 1 ≤ x.svn
  | .hall x => s.svnFloor 2 ≤ x.svn
  | _ => true

/-- R416: a downloaded component is verified; what fails leaves the flash as it was. -/
def doFirmwareComponentVerify (c : Payload) (s : State) : State :=
  if !s.mgtUp then s
  else if s.host.update = 0 || s.host.update = 5 || s.host.component.isSome then s.reply .wrongState
  else if !c.signed then ((s.raise F.MGT_EVENT_VERIFY_FAIL 108).setUpdate 2).reply .verifyFailed
  else if !s.svnOk c then (s.setUpdate 2).reply .verifyFailed
  else ((s.onHost fun h => { h with component := some c }).setUpdate 4).reply (.ok [])

/-- The bank that an image update writes. -/
def State.inactiveBank (s : State) : Payload → Nat
  | .pmc _ => 1 - s.boot.directory.pmcActive
  | .hall _ => 1 - s.boot.directory.hallActive
  | _ => 0

/-- R416: a verified component goes to the flash. Packs and the scan area go by commands of their own (R459, R460). -/
def doFirmwareComponentApply (s : State) : State :=
  match s.host.component, s.host.update with
  | some c, 4 =>
    match c with
    | .pack _ => s.setUpdate 5
    | .scan .. => s.setUpdate 5
    | _ => (s.onHost fun h => { h with flashQueue := h.flashQueue ++ [.component c (s.inactiveBank c)] }).setUpdate 5
  | _, _ => if s.mgtUp then s.reply .wrongState else s

/-- The apply step of the component in hand has ended. -/
def State.applied (s : State) (id : Nat) : State :=
  ((s.onHost fun h => { h with component := none, applied := h.applied ++ [id] }).setUpdate 2).reply (.ok [])

/-- R416: activation. Images become pending in the directory; a cold reset is required for components 1, 2 and 6. The
update ends (log 55). -/
def doActivateFirmware (s : State) : State :=
  if !s.mgtUp then s
  else if s.host.update = 0 || s.host.component.isSome then s.reply .wrongState
  else
    let l := s.host.applied
    let s1 := s.onBoot fun b =>
      let d := b.directory
      let d1 := if l.contains 1 then { d with pmcPending := some (1 - d.pmcActive), triedPmc := false } else d
      let d2 := if l.contains 2 then { d1 with hallPending := some (1 - d.hallActive), triedHall := false } else d1
      if l.contains 1 || l.contains 2 then b.putDirectory d2 else b
    let cold := [1, 2, 6].any l.contains
    (((s1.onHost fun h => { h with applied := [] }).setUpdate 0).raise F.MGT_EVENT_UPDATE_DONE 108).reply
      (.ok [if cold then 1 else 0])

/-! ## Flash operations (R417 to R420) -/

/-- A component's contents in flash. -/
def State.flashComponent (s : State) (c : Payload) (bank : Nat) : State :=
  match c with
  | .pmc x => s.onBoot fun b => { b with pmcBanks := tset none b.pmcBanks bank (some x) }
  | .hall x => s.onBoot fun b => { b with hallBanks := tset none b.hallBanks bank (some x) }
  | .profiles l _ => s.onHost fun h => { h with
      profiles := (l.take 4).mapIdx fun i b => (i, (padBytes 512 b).map (· % 256)) }
  | .compat l _ => s.onBoot fun b => { b with compat := l.take 2048 }
  | _ => s

/-- The index of the operation that goes next: retired-page writes first. -/
def nextFlashOp (l : List FlashOp) : Nat :=
  (l.findIdx? fun f => match f with
    | .retiredPage .. => true
    | _ => false).getD 0

/-- R419, R420, R455: the PMC performs one flash operation, a firmware-update write only when nothing goes before it;
one that fails leaves its area as it was and sets FLASH_ERR. -/
def doFlashOperation (ok : Bool) (s : State) : State :=
  let k := nextFlashOp s.host.flashQueue
  match s.host.flashQueue[k]? with
  | none => s
  | some f =>
    let waits := !s.updateMayWrite && match f with
      | .component .. => true
      | .retiredPage .. => false
    if waits then s else
    let s1 := s.onHost fun h => { h with flashQueue := h.flashQueue.eraseIdx k }
    let s2 := if ok then s1 else s1.raise F.MGT_EVENT_FLASH_ERR 108
    match f with
    | .retiredPage b i x =>
      if !ok then s2
      else if b then s2.onHost fun h => { h with pagesB := tset none h.pagesB i (some x) }
      else s2.onHost fun h => { h with pagesA := tset none h.pagesA i (some x) }
    | .component c bank =>
      if ok then (s2.flashComponent c bank).applied c.id
      else ((s2.onHost fun h => { h with component := none }).setUpdate 2).reply .wrongState

/-! ## Boundary scan (R421) -/

/-- Llynio's JEP106 identity is not given. -/
def State.idcode (s : State) : Nat :=
  2 ^ 28 + (match s.order with
    | .l => 0x5A10
    | .e => 0x5A11) * 2 ^ 12 + Config.jep106 % 2 ^ 11 * 2 + 1

def State.selectJtag (s : State) (i : JtagInstr) : State := s.onHost fun h => { h with jtag := i }

/-- R421: IDCODE. -/
def doIdcode (s : State) : State := (s.selectJtag .idcode).emit (.tdo s.idcode)

/-- R421: SAMPLE/PRELOAD shifts out what the pins show, which the manual gives no order, and takes `value`. -/
def doSamplePreload (value : Nat) (s : State) : State :=
  let (s1, pins) := s.draw
  ((s1.selectJtag .sample).onHost fun h => { h with boundary := value }).emit (.tdo pins)

/-- R421: EXTEST drives the pins from the boundary register. -/
def doExtest (s : State) : State := s.selectJtag .extest

/-- R421: CLAMP holds the pins, with the bypass register selected. -/
def doClamp (s : State) : State := s.selectJtag .clamp

/-- R421: HIGHZ floats the outputs. -/
def doHighz (s : State) : State := s.selectJtag .highz

/-- R421: IJTAG_SEL places the IEEE 1687 network between TDI and TDO. -/
def doIjtagSel (s : State) : State := s.selectJtag .ijtag

/-- R421: BYPASS and every other code. -/
def doBypass (s : State) : State := s.selectJtag .bypass

end Sys2Proof.Machine
end

