-- ==== Sys2Proof/Machine/Sdc.lean ====
section
/-! DEFINITION. The silent-error defence: the shadow alcoves, structural scan, pattern packs and focus packs
(R446 to R463). -/

namespace Sys2Proof.Machine

/-! ## Sets and packs (R458, R459, R461) -/

/-- Whether a header's values are legal (R458); STEPPING decides whether a pack applies, not whether it is legal. -/
def ScanSet.legal (x : ScanSet) : Bool :=
  x.header.length == 128 && x.fld 0x00 2 == 1 && x.fld 0x02 1 < 2 && x.fld 0x03 1 < 2 && x.target < 4 &&
    x.fld 0x15 1 < 4 && x.fld 0x17 1 == 0 && (x.header.drop 0x2C).all (· == 0) &&
    (if x.focus then x.target == 0 && x.fld 0x18 4 == 0 && x.fld 0x20 1 ≤ 24 else 64 ≤ x.fld 0x18 4) &&
    x.bytes == 128 + x.fld 0x18 4 + 96

/-- Whether a base set is legal in the scan area. -/
def ScanSet.legalBase (x : ScanSet) : Bool := x.legal && !x.focus && x.packId == 0 && x.fld 0x16 1 == 0xB0

/-- Whether a set applies to this device (R459). -/
def State.applicable (s : State) (x : ScanSet) : Bool :=
  bit (x.fld 0x15 1) (match s.order with
    | .l => 0
    | .e => 1) == 1 && x.fld 0x16 1 == 0xB0

/-- `SDC_PACK_STATE`.STATE. -/
def State.packState (s : State) (slot : Nat) : Nat :=
  match s.pack slot with
  | none => 0
  | some p => if !s.applicable p.set then 2 else if p.expired then 3 else 1

/-- A hall's temperature, rail voltage and clock as a record carries them: eight bytes (R462). -/
def State.conditions (s : State) (h : Nat) : List Nat :=
  let x := s.hallPower h
  [(x.temp % 256).toNat, 0] ++ toBytes 2 x.mv ++ toBytes 2 x.running ++ [0, 0]

/-- Active focus packs whose temperature condition holds in hall `h`, by slot. -/
def State.focusPacks (s : State) (h : Nat) : List ScanSet :=
  (List.range 16).filterMap fun k =>
    match s.pack k with
    | some p =>
      let t := p.set.fld 0x21 1
      if s.packState k == 1 && p.set.focus && (t == 0 || decide ((t : Int) ≤ (s.hallPower h).temp)) then some p.set
      else none
    | none => none

/-- The rate that software asks for. -/
def State.ownRate (s : State) (h : Nat) : Nat := min 24 (s.fld F.SDC_SH_CTRL_RATE 0 h)

/-- The effective rate and the forced formats of every hall. -/
def State.focusNow (s : State) : State :=
  forEach (List.range 8) s fun s h =>
    let l := s.focusPacks h
    let rate := l.foldl (fun r x => min r (x.fld 0x20 1)) (s.ownRate h)
    let mask := l.foldl (fun m x => m ||| x.fld 0x22 2) 0
    s.onSdc fun d => { d with rate := tset 10 d.rate h rate, mask := tset 0 d.mask h mask }

def State.sampleRate (s : State) (h : Nat) : Nat := tget 10 s.sdc.rate h
def State.forcedFormats (s : State) (h : Nat) : Nat := tget 0 s.sdc.mask h

/-- PACK_ID of the lowest focus pack that forces a format, or that lowers the rate. -/
def State.checkPack (s : State) (h fmt : Nat) : Nat :=
  (((s.focusPacks h).find? fun x => bit (x.fld 0x22 2) fmt == 1).map (·.packId)).getD 0

def State.samplePack (s : State) (h : Nat) : Nat :=
  (((s.focusPacks h).find? fun x => x.fld 0x20 1 < s.ownRate h).map (·.packId)).getD 0

/-- R461: the rates and masks are evaluated, one millisecond of operation counts, and packs expire. -/
def doFocusPackEvaluate (s : State) : State :=
  let s1 := forEach (List.range 16) s fun s k =>
    match s.pack k with
    | none => s
    | some p =>
      let p1 := { p with ms := p.ms + 1 }
      let hours := p.set.fld 0x1C 4
      let ends := p.set.focus && hours != 0 && hours * 3600000 ≤ p1.ms && !p.expired
      let s1 := s.onSdc fun d => { d with packs := tset none d.packs k (some { p1 with expired := p.expired || ends }) }
      if ends && s.applicable p.set then s1.packRecord p.set k 4 else s1
  s1.focusNow

/-! ## Rounds (R455, R456) -/

/-- The set list: key, set and slot, in the order that rounds take them. -/
def State.setList (s : State) : List (Nat × ScanSet × Option Nat) :=
  let base := s.sdc.base.mapIdx fun i x => (16 * x.target + i, x, none)
  let kinds := (List.range 4).flatMap fun t =>
    base.filter fun p => p.2.1.target == t && bit (s.fld F.SDC_CTRL_KINDS) t == 1
  let packs := (List.range 16).filterMap fun k =>
    match s.pack k with
    | some p => if s.packState k == 1 && !p.set.focus then some (256 + k, p.set, some k) else none
    | none => none
  kinds ++ packs

def State.scanOf (s : State) (h : Nat) : Option ScanRun := tget none s.sdc.scans h

/-- Whether a shadow alcove follows or judges a tile of alcove `n`. -/
def State.underShadow (s : State) (n : Nat) : Bool :=
  s.sdc.shadows.any fun p =>
    p.2.alcove == n && (p.2.state == .shadowing || (p.2.state == .selfTest && p.2.judging))

/-- Whether a target is idle (R454). -/
def State.scanIdle (s : State) (h ch : Nat) : Bool :=
  let i := chanIndex ch
  if ch = 0xFFFF then
    let x := tget .reset s.sdc.shadows h
    x.state == .idle || x.state == .disabled
  else !s.retired ch && match chanKind ch with
    | 4 =>
      if i < 256 then s.alcoveWorks i && s.alcoveIdle i && !s.underShadow i
      else !(alcoveChannels i).any s.retired && !s.part.spares.any fun p => p.2 == some (i - 256)
    | 6 => (s.engine i).running.isNone && (s.engine i).queue.isEmpty
    | _ => (s.annRun i).isNone

/-- The targets of a kind in hall `h`, lowest channel ID first (R454). -/
def scanTargets (kind h : Nat) : List Nat :=
  match kind with
  | 0 => (upTo (32 * h) 32 ++ upTo (256 + 2 * h) 2).map (channelId 4)
  | 1 => (upTo (8 * h) 8).map (channelId 6)
  | 2 => [channelId 8 h]
  | _ => [0xFFFF]

/-- Key of a target in the table of last scans; the shadow alcoves of the halls are told apart. -/
def scannedKey (h ch key : Nat) : Nat := (if ch = 0xFFFF then 0x10000 + h else ch) * 512 + key

/-- The idle target scanned longest ago with a set. -/
def State.scanChoice (s : State) (h : Nat) (x : ScanSet) (key : Nat) : Option Nat :=
  let when := fun (ch : Nat) => tget 0 s.sdc.scanned (scannedKey h ch key)
  ((scanTargets x.target h).filter (s.scanIdle h)).foldl (fun (best : Option Nat) ch =>
    match best with
    | some b => if when ch < when b then some ch else some b
    | none => some ch) none

/-- R455: a round starts with the next set of the list, on the idle target of each powered hall. -/
def doScanRoundStart (s : State) : State :=
  let since := match s.sdc.lastRound with
    | some t => s.time.tick - t
    | none => s.time.tick
  let waitMs := max 40 (s.fld F.SDC_CTRL_ROUND_MS)
  let list := s.setList
  if !s.inService || s.fld F.SDC_CTRL_SCAN_EN = 0 || s.openRound.isSome || since < waitMs * 1000000 then s
  else
    let next := match s.sdc.lastSet with
      | some k => (list.find? fun p => k < p.1).or list.head?
      | none => list.head?
    match next with
    | none => s
    | some (key, x, slot) =>
      let s1 := s.onSdc fun d => { d with
        round := some { key := key, set := x, slot := slot, since := s.time.tick, chunks := 0 },
        lastRound := some s.time.tick, lastSet := some key }
      forEach ((List.range 8).filter fun h => !s.boot.unpowered.contains h) s1 fun s h =>
        match s.scanChoice h x key with
        | none => s
        | some ch => (s.wipeTarget ch).onSdc fun d => { d with
            scans := tset none d.scans h (some { target := ch, retest := none, forced := 0, mark := .natural }) }

/-- R455: the PMC reads a chunk, after the retired-page and record writes that wait. -/
def doScanChunkDeliver (s : State) : State :=
  match s.openRound with
  | some r =>
    let waits := !s.ras.unstored.isEmpty || s.host.flashQueue.any fun f => match f with
      | .retiredPage .. => true
      | .component .. => false
    if waits || r.set.chunks ≤ r.chunks then s
    else s.onSdc fun d => { d with round := some { r with chunks := r.chunks + 1 } }
  | none => s

/-- The domains of a target that can fail (R457). -/
def scanDomains (ch : Nat) : Nat := if ch != 0xFFFF && chanKind ch = 4 then 0xFF else 1

/-- The channel of a failing domain. -/
def domainChannel (ch d : Nat) : Nat :=
  if chanKind ch = 4 && 1 ≤ d && d ≤ 4 then channelId 5 (4 * chanIndex ch + d - 1) else ch

/-- The lowest domain of a mask. -/
def lowestDomain (mask : Nat) : Nat := ((List.range 8).find? fun d => bit mask d == 1).getD 0

/-- A scan of hall `h` is over: the target is wiped, and scanned last. -/
def State.scanOver (s : State) (h : Nat) (r : Round) (x : ScanRun) : State :=
  (s.onSdc fun d => { d with
    scans := tset none d.scans h none,
    scanned := tset 0 d.scanned (scannedKey h x.target r.key) (s.time.tick + 1) }).wipeTarget x.target

/-- What a scan's record says beside its kind and channel (R462). -/
def State.scanRecord (s : State) (h : Nat) (r : Round) (x : ScanRun) (mask result pattern diff : Nat) : RasRecord :=
  { RasRecord.blank with
    detector := if r.slot.isSome then 0x24 else 0x23,
    location := toBytes 2 x.target ++ [mask, result] ++ toBytes 4 pattern,
    signature := toBytes 4 r.set.packId ++ toBytes 4 r.set.sequence ++ s.conditions h ++
      (r.set.header.drop 0x0C).take 8 ++ toBytes 8 diff }

/-- A target passed. -/
def State.scanPass (s : State) (h : Nat) (r : Round) (x : ScanRun) : State :=
  let s1 := (s.scanOver h r x).wrapFld F.SDC_SCAN_PASS_COUNT 1
  if x.target = 0xFFFF then
    s1.onSdc fun d => { d with shadows := tmod .reset d.shadows h fun y =>
      { y with state := if y.state = .disabled then .idle else y.state } }
  else s1

/-- R457: the signatures of the target of hall `h` are compared. `mask` are the domains in which the hardware
fails, and a shot adds its own (R468). -/
def doScanRoundEnd (h mask : Nat) (s : State) : State :=
  match s.openRound, s.scanOf h with
  | some r, some x =>
    if x.retest.isSome || r.chunks < r.set.chunks then s
    else
      let (s1, forced, again, m) := match s.shoot (if r.slot.isSome then 0x24 else 0x23) x.target with
        | some (s1, store, p, m) => (s1, p, if store then p else 0, m)
        | none => (s, 0, 0, Mark.natural)
      let bad := (mask ||| forced) &&& scanDomains x.target
      if bad = 0 then s1.scanPass h r x
      else s1.onSdc fun d => { d with
        scans := tset none d.scans h (some { x with retest := some bad, forced := again, mark := m }) }
  | _, _ => s

/-- A retest that passed: a transient failure, charged to the first failing domain. -/
def State.scanTransient (s : State) (h : Nat) (r : Round) (x : ScanRun) (first pattern diff : Nat) : State :=
  let base := s.scanRecord h r x first 1 pattern diff
  let s1 := if x.target = 0xFFFF then
      (s.record { base with kind := kindScanTransient, flags := if x.mark.injected then flagInjected else 0 }).1
    else (s.charge (domainChannel x.target (lowestDomain first)) .tue base x.mark).1
  (((s1.scanOver h r x).wrapFld F.SDC_SCAN_PASS_COUNT 1).addFld F.SDC_SCAN_FAIL_TRANSIENT 1).raise F.SDC_EVENT_SCAN_FAIL
    (source h 95) 0 h

/-- A retest that failed: the channels of its failing domains are retired, the shadow alcove is disabled. -/
def State.scanHard (s : State) (h : Nat) (r : Round) (x : ScanRun) (bad pattern diff : Nat) : State :=
  let shadow := x.target == 0xFFFF
  let ch := if shadow then 0xFFFF else domainChannel x.target (lowestDomain bad)
  let hard := !shadow && !x.mark.nocharge
  let (s1, id) := s.record { s.scanRecord h r x bad 2 pattern diff with
    kind := kindScanFail, channel := ch,
    flags := (if x.mark.injected then flagInjected else 0) ||| (if hard then flagHard else 0) }
  let s2 := ((s1.scanOver h r x).addFld F.SDC_SCAN_FAIL_RETIRED 1).raise F.SDC_EVENT_SCAN_FAIL (source h 95) 0 h
  if shadow then
    s2.onSdc fun d => { d with shadows := tmod .reset d.shadows h fun y => { y with state := .disabled } }
  else
    forEach ((List.range 8).filter fun d => bit bad d == 1) s2 fun s d =>
      s.hardSignature (domainChannel x.target d) (if r.slot.isSome then 0x24 else 0x23) id x.mark

/-- R457: the retest of hall `h` ends. `mask` are the domains in which the hardware fails, `pattern` the first
failing pattern and `diff` the wrong bits of the lowest failing domain's signature. -/
def doScanRetestEnd (h mask pattern diff : Nat) (s : State) : State :=
  match s.openRound, s.scanOf h with
  | some r, some x =>
    match x.retest with
    | some first =>
      let bad := (mask ||| x.forced) &&& scanDomains x.target
      if bad = 0 then s.scanTransient h r x first pattern diff else s.scanHard h r x bad pattern diff
    | none => s
  | _, _ => s

/-! ## Packs and the scan area (R459, R460) -/

/-- Where a pack goes (R459): slot, action and contents; none where it is refused. -/
def State.packPlace (s : State) (x : ScanSet) : Option (Nat × Nat × Option Pack) :=
  let held := (List.range 16).find? fun k => (s.pack k).any fun p => p.set.packId == x.packId
  let newer := match held with
    | some k => (s.pack k).any fun p => p.set.sequence < x.sequence
    | none => false
  let fresh := some { set := x, ms := 0, expired := false }
  if !x.legal || x.packId = 0 || 2 ^ 20 < x.bytes then none
  else match held with
    | some k => if !newer then none else if x.withdraw then some (k, 2, none) else some (k, 1, fresh)
    | none =>
      if x.withdraw then none
      else ((List.range 16).find? fun k => (s.pack k).isNone).map fun k => (k, 0, fresh)

/-- An apply step that fails as an incompatible component. -/
def State.updateRefused (s : State) : State :=
  ((s.onHost fun h => { h with component := none }).setUpdate 2).reply .incompatible

/-- R459: a verified pack is placed, withdrawn or refused. A write to a slot under scan waits for the round. -/
def doPackInstall (s : State) : State :=
  match s.host.component, s.host.update with
  | some (.pack x), 5 =>
    match s.packPlace x with
    | none => ((s.packRecord x 0xFF 3).raise F.SDC_EVENT_PACK_CHANGE 95).updateRefused
    | some (k, action, p) =>
      let busy := match s.openRound with
        | some r => r.slot == some k
        | none => false
      if busy || !s.updateMayWrite then s
      else
        let s1 := s.onSdc fun d => { d with
          packs := tset none d.packs k p,
          scanned := d.scanned.filter fun q => q.1 % 512 != 256 + k }
        ((((s1.packRecord x k action).raise F.SDC_EVENT_PACK_CHANGE 95).focusNow).applied 4)
  | _, _ => s

/-- R460: a verified scan area replaces the base sets once no round reads it. An illegal set refuses the whole. -/
def doScanAreaUpdate (s : State) : State :=
  match s.host.component, s.host.update with
  | some (.scan l _), 5 =>
    if 8 < l.length || !l.all ScanSet.legalBase || 2 ^ 24 < (l.map (·.bytes)).sum then s.updateRefused
    else
      let busy := match s.openRound with
        | some r => r.slot.isNone
        | none => false
      if busy || !s.updateMayWrite then s
      else
        (s.onSdc fun d => { d with
          base := l, scanned := d.scanned.filter fun q => 256 ≤ q.1 % 512 }).applied 3
  | _, _ => s

/-! ## The shadow alcove (R449 to R453) -/

def State.shadowOf (s : State) (h : Nat) : Shadow := tget .reset s.sdc.shadows h

def State.onShadow (s : State) (h : Nat) (f : Shadow → Shadow) : State :=
  s.onSdc fun d => { d with shadows := tmod .reset d.shadows h f }

/-- Whether the shadow of its hall follows alcove `n`. -/
def State.shadows (s : State) (n : Nat) : Bool :=
  let x := s.shadowOf (n / 32)
  x.state == .shadowing && x.alcove == n

/-- Changes the shadow that follows alcove `n`, if it is followed. -/
def State.onShadowOf (s : State) (n : Nat) (f : Shadow → Shadow) : State :=
  if s.shadows n then s.onShadow (n / 32) f else s

/-- The shadow's planes and tiles become zero, and nothing of a tile is kept (R452). -/
def Shadow.cleared (x : Shadow) (state : ShadowState) : Shadow :=
  { Shadow.reset with state := state, delivered := x.delivered, tested := x.tested }

/-- A tile is delivered to alcove `n` (R449): operation, sequence index and ganging mode. -/
def State.tileDelivered (s : State) (n q i seq mode : Nat) : State :=
  let h := n / 32
  let x := s.shadowOf h
  let s1 := s.onShadow h fun x => { x with delivered := x.delivered + 1 }
  let samples := s.fld F.SDC_SH_CTRL_ENABLE 0 h = 1 && x.state != .disabled
  if samples && Sys2Proof.Machine.draw (s.reg .SDC_SH_SEED 0 h) x.delivered < 2 ^ (32 - s.sampleRate h) then
    if x.state = .idle && (s.scanOf h).all (fun r => r.target != 0xFFFF) then
      s1.onShadow h fun x => { x.cleared .shadowing with alcove := n, queue := q, op := i, seq := seq, mode := mode }
    else s1.addFld F.SDC_SH_EVENTS_MISSED 1 0 h
  else s1

/-- Shadowing of alcove `n` ends (R450, R452): abandoned, a match, or a mismatch that the self-test judges. -/
def State.shadowEnds (s : State) (n : Nat) (abandoned : Bool) : State :=
  if !s.shadows n then s
  else
    let h := n / 32
    if abandoned then s.onShadow h fun x => x.cleared .idle
    else if (s.shadowOf h).diff.isSome then
      s.onShadow h fun x => { x with state := .selfTest, judging := true, began := s.time.tick }
    else (s.onShadow h fun x => x.cleared .idle).wrapFld F.SDC_SH_TILES_COUNT 1 0 h

/-- A shift of unit `u` begins. -/
def State.shadowShift (s : State) (n u : Nat) : State :=
  s.onShadowOf n fun x => { x with shifts := u :: x.shifts.erase u }

/-- A shift of unit `u` completes: the shadow plane is known if it began during shadowing. -/
def State.shadowShifted (s : State) (n u : Nat) : State :=
  s.onShadowOf n fun x =>
    let p := x.planes.erase (2 * u + 1)
    { x with planes := if x.shifts.contains u then (2 * u + 1) :: p else p, shifts := x.shifts.erase u }

/-- The planes of unit `u` are exchanged. -/
def State.shadowSwap (s : State) (n u : Nat) : State :=
  s.onShadowOf n fun x => { x with planes := x.planes.map fun k => if k / 2 = u then 4 * u + 1 - k else k }

/-- Tile `t` becomes known or unknown. -/
def State.shadowTile (s : State) (n t : Nat) (known : Bool) : State :=
  s.onShadowOf n fun x => { x with
    tiles := if known then t :: x.tiles.erase t else x.tiles.erase t, rows := tdel x.rows t }

/-- A pass of some units writes some tiles. -/
def State.shadowPass (s : State) (n : Nat) (units tiles : List Nat) (add : Bool) : State :=
  let x := s.shadowOf (n / 32)
  let ok := units.all fun u => x.planes.contains (2 * u)
  tiles.foldl (fun s t => s.shadowTile n t (ok && (!add || x.tiles.contains t))) s

/-- `ACCWR` writes some rows of a tile, as a mask. -/
def State.shadowRows (s : State) (n t mask : Nat) : State :=
  s.onShadowOf n fun x =>
    let m := tget 0 x.rows t ||| mask
    if m = 2 ^ 64 - 1 then { x with tiles := t :: x.tiles.erase t, rows := tdel x.rows t }
    else { x with rows := tset 0 x.rows t m }

/-- The alcove reads out row `row` of tile `t` (R451): it is compared or skipped. -/
def State.shadowRow (s : State) (n t row : Nat) (vals : List Nat) (poison : Bool) : State :=
  if !s.shadows n then s
  else
    let h := n / 32
    if poison || !(s.shadowOf h).tiles.contains t then s.addFld F.SDC_SH_SKIPPED_COUNT 1 0 h
    else
      match s.shoot 0x21 h with
      | some (s1, _, _, m) =>
        let (s2, v) := s1.draw
        let col := v % vals.length
        let right := vals.getD col 0
        let d : ShadowDiff :=
          { unit := t / 4, tile := t % 4, row := row, col := col, count := 1,
            shadowVal := right ^^^ (1 + v / 64 % (2 ^ 32 - 1)), alcoveVal := right }
        s2.onShadow h fun x => { x with diff := x.diff.or (some d), mark := if x.diff.isSome then x.mark else m }
      | none => s

/-- A checksum event of unit `u` of alcove `n` has record `id` (R452). -/
def State.shadowChecksum (s : State) (n u id : Nat) : State :=
  s.onShadowOf n fun x => { x with checksums := x.checksums ++ [(u, id)] }

/-- Whether a second mismatch on a channel within 60 s completes a hard signature (R447). -/
def State.secondMismatch (s : State) (ch : Nat) : Bool :=
  s.sdc.mismatches.any fun p => p.1 == ch && decide (s.time.tick - p.2 ≤ 60 * 10 ^ 9)

/-- The self-test confirms a mismatch (R446, R447, R452). -/
def State.shadowCharge (s : State) (h : Nat) (x : Shadow) (d : ShadowDiff) : State :=
  let ganged := x.mode == 2 || x.mode == 3
  let ch := if ganged then channelId 4 x.alcove else channelId 5 (4 * x.alcove + d.unit)
  let root := (x.checksums.find? fun p => p.1 == d.unit).map (·.2)
  let (part, vi) := match s.queue x.queue with
    | some w => ((s.queuePart w).getD 0xFF, w.vi)
    | none => (0xFF, 0)
  let base : RasRecord := { RasRecord.blank with
    detector := 0x21, rootId := root.getD 0, partition := part, vi := vi, queue := x.queue, opIndex := x.op,
    location := toBytes 2 x.alcove ++ [if ganged then 0xFF else d.unit, x.mode] ++ toBytes 4 x.seq ++
      [d.tile, d.row, d.col, 0] ++ toBytes 2 d.count,
    signature := toBytes 4 d.shadowVal ++ toBytes 4 d.alcoveVal ++ s.conditions h ++ toBytes 4 (s.samplePack h) }
  match root with
  | some _ =>
    (s.record { base with
      kind := kindShadow, channel := ch, flags := if x.mark.injected then flagInjected else 0 }).1
  | none =>
    let hard := s.secondMismatch ch && !x.mark.nocharge
    let (s1, id) := s.charge ch .tue { base with flags := if hard then flagHard else 0 } x.mark
    let s2 := ((s1.addFld F.SDC_SH_EVENTS_MISMATCHES 1 0 h).raise F.SDC_EVENT_SHADOW_MISMATCH (source h 95) 0 h).onOp
      x.queue x.op fun o => { o.flag opChecksum with chk := o.chk + 1, ras := id }
    let s3 := if x.mark.nocharge then s2 else
      s2.onSdc fun y => { y with mismatches :=
        (y.mismatches.filter fun p => decide (s.time.tick - p.2 ≤ 60 * 10 ^ 9)) ++ [(ch, s.time.tick)] }
    if hard then s3.hardSignature ch 0x21 id x.mark else s3

/-- R453: the self-test of hall `h` ends after 50 µs, in success or at a failing step; a due shot makes it fail. -/
def doShadowSelftestComplete (h : Nat) (ok : Bool) (step : Nat) (s : State) : State :=
  let x := s.shadowOf h
  if x.state != .selfTest || s.time.tick - x.began < 50000 then s
  else
    let (s1, shot, m) := match s.shoot 0x22 h with
      | some (s1, _, _, m) => (s1, true, m)
      | none => (s, false, Mark.natural)
    let s2 := s1.onShadow h fun x => { x.cleared (if ok && !shot then .idle else .disabled) with tested := s.time.tick }
    if ok && !shot then
      match x.diff with
      | some d => if x.judging then s2.shadowCharge h x d else s2
      | none => s2
    else
      ((s2.record { RasRecord.blank with
        kind := kindShadowFault, detector := 0x22, location := [h], signature := toBytes 4 step,
        flags := if m.injected then flagInjected else 0 }).1).raise F.SDC_EVENT_SHADOW_FAULT (source h 95) 0 h

/-- Begins a self-test of an idle shadow that is not under scan. -/
def State.startSelfTest (s : State) (h : Nat) : State :=
  if (s.shadowOf h).state = .idle && (s.scanOf h).all (fun r => r.target != 0xFFFF) then
    s.onShadow h fun x => { x with state := .selfTest, judging := false, began := s.time.tick }
  else s

/-- R453: the shadow has been idle for its interval. -/
def doShadowSelftestTimer (h : Nat) (s : State) : State :=
  let ms := s.fld F.SDC_SH_CTRL_SELFTEST_MS 0 h
  if ms != 0 && ms * 1000000 ≤ s.time.tick - (s.shadowOf h).tested then s.startSelfTest h else s

/-! ## Checksum mismatches (R447, R448) -/

/-- A checksum mismatch of unit `u` of alcove `n`: check KIND and INDEX, what the record says, and its mark. The
answer is the record's ID. -/
def State.checksumEvent (s : State) (n u kind index : Nat) (base : RasRecord) (m : Mark) : State × Nat :=
  let unit := 4 * n + u
  let ch := channelId 5 unit
  let tag := kind * 65536 + index
  let recent := s.sdc.checksums.filter fun p => decide (s.time.tick - p.2.2 ≤ 10 ^ 9)
  let hard := !m.nocharge && 2 ≤ (recent.filter fun p => p.1 == unit && p.2.1 == tag).length
  let (s1, id) := s.charge ch .tue { base with
    detector := 0x20, flags := base.flags ||| (if hard then flagHard else 0) } m
  let s2 := if m.nocharge then s1 else s1.onSdc fun d => { d with checksums := recent ++ [(unit, tag, s.time.tick)] }
  let s3 := s2.shadowChecksum n u id
  (if hard then s3.hardSignature ch 0x20 id m else s3, id)

end Sys2Proof.Machine
end

