-- ==== Sys2Proof/Machine/Alcoves.lean ====
section
/-! DEFINITION. Alcoves beside issue (R55, R63, R70 to R77, R80, R82, R109, R113 to R136, R163, R173, R175): faults,
waits, results, matrix units, streams, drains, save points and completion. -/

namespace Sys2Proof.Machine

/-! ## Cores by number: alcove n, or 256 + h for controller h (8 is the PMC) -/

def coreParty (n : Nat) : Party := if n < 256 then .alcove n else .hallController (n - 256)

def State.coreAt (s : State) (n : Nat) : Core := if n < 256 then (s.alcove n).core else (s.hc (n - 256)).core

def State.onCoreAt (s : State) (n : Nat) (f : Core → Core) : State := s.onCore (coreParty n) f

/-- The replica that a core reads (R49). -/
def coreReplica (n : Nat) : Nat := if n < 256 then 256 + n else if n = 264 then 40 else 32 + (n - 256)

/-- Tags of the C-slot commands in flight. -/
def Alcove.liveTags (x : Alcove) : List Nat :=
  ((x.streams.filter (·.kind != .fence)).map (·.tag)) ++ x.copies.map (·.tag)

/-! ## Faults (R75, R76, R80) -/

/-- FAULT of a completion record (R311). -/
def faultWord (code slot pc n : Nat) : Nat := code * 2 ^ 24 + slot * 2 ^ 21 + pc * 2 ^ 8 + n

/-- The fault registers of alcove `n`: a later fault overwrites the record (R76). -/
def State.faultRegs (s : State) (n code slot pc detail : Nat) : State :=
  let s0 := if s.fld F.ALC_FAULT_VALID n = 1 then s.setFld F.ALC_FAULT_OVERRUN 1 n else s
  ((((s0.setFld F.ALC_FAULT_VALID 1 n).setFld F.ALC_FAULT_SLOT slot n).setFld F.ALC_FAULT_CODE code n).setFld
    F.ALC_FAULT_PC pc n).setFld F.ALC_FAULT_DETAIL_DETAIL detail n

/-- A core that faults stops: its waits are over and no `TTRY` answers it. -/
def Core.stopped (c : Core) (state : CoreState) : Core :=
  { c with state := state, wait := none, granted := false, haltReq := false, stepOne := false,
           busy := c.busy.filter fun r => r.file != .p }

/-- The streams in flight are closed (R120). -/
def Alcove.closeStreams (x : Alcove) : Alcove := { x with streams := x.streams.map fun t => { t with closed := true } }

/-- Alcove `n` faults: its registers, its source, and state FAULTED. -/
def State.alcoveFault (s : State) (n code slot detail : Nat) : State :=
  let pc := (s.alcove n).core.pc
  let s1 := (s.faultRegs n code slot pc detail).fire (source (n / 32) (n % 32))
  let s2 := s1.onAlcove n fun x =>
    { x.closeStreams with core := x.core.stopped .faulted, pausePending := false, saving := false, abortBy := none }
  (s2.cancelParties (· == .alcove n)).shadowEnds n true

/-- The other alcoves of a faulted group are to stop (R75). -/
def State.abortGroup (s : State) (n : Nat) (g : Grant) : State :=
  match s.op? g.queue g.op with
  | some o =>
    (o.ranks.filter fun r => r.alcove != n && !r.reported && !r.retired && r.saved.isNone).foldl (fun s r =>
      s.onAlcove r.alcove fun x =>
        if x.ended || x.core.state == .faulted then x
        else { x with abortBy := x.abortBy.or (some n), pausePending := false, saving := false }) s
  | none => s

/-- R75: alcove `n` faults as the first of its group or independently. The completion names the first fault, and a
retirement governs it (R77); a pause of the operation lapses (R82). -/
def State.kernelFault (s : State) (n code slot detail : Nat) : State :=
  let x := s.alcove n
  let s1 := s.alcoveFault n code slot detail
  match x.grant with
  | some g =>
    let s2 := s1.onOp g.queue g.op fun o =>
      let o1 := { o with pauseWanted := false }
      if o.status = 0 && o.retiredCount = 0 then
        { o1 with status := stKernelFault, fault := faultWord code slot x.core.pc n }
      else o1
    ((s2.abortGroup n g).freeSlots g.queue g.op).dropVictim g.queue g.op
  | none => s1

/-- R80: a fault halts controller `h`, or the PMC. -/
def State.controllerFault (s : State) (h code slot detail : Nat) : State :=
  let pc := (s.hc h).core.pc
  let s1 := (s.onHc h fun c => { c with core := c.core.stopped .faulted, fault := some (code, slot, pc) }).cancelParties
    (· == .hallController h)
  let s2 := if h < 8 then
      let s0 := if s1.fld F.ALC_HC_FAULT_VALID h = 1 then s1.setFld F.ALC_HC_FAULT_OVERRUN 1 h else s1
      (((((s0.setFld F.ALC_HC_FAULT_VALID 1 h).setFld F.ALC_HC_FAULT_SLOT slot h).setFld F.ALC_HC_FAULT_CODE code
        h).setFld F.ALC_HC_FAULT_PC pc h).setFld F.ALC_HC_FAULT_DETAIL_DETAIL detail h).fire (source h 73)
    else s1
  s2.dropTarget h

/-- A fault of core `n`. -/
def State.coreFault (s : State) (n code slot detail : Nat) : State :=
  if n < 256 then s.kernelFault n code slot detail else s.controllerFault (n - 256) code slot detail

/-- R75: an alcove whose group has faulted stops at its next bundle boundary. -/
def doGroupAbort (n : Nat) (s : State) : State :=
  let x := s.alcove n
  match x.abortBy with
  | some m =>
    if x.core.state == .running || x.core.state == .waiting || x.core.state == .halted then s.alcoveFault n 0x30 0 m
    else s.onAlcove n fun x => { x with abortBy := none }
  | none => s

/-! ## Results and waits (R63, R109) -/

/-- R63: the `k`-th result on its way in core `n` is written, and its flags with it. -/
def doResultWriteback (n k : Nat) (s : State) : State :=
  match (s.coreAt n).wb[k]? with
  | some w => s.onCoreAt n fun c => ({ c with wb := c.wb.eraseIdx k }.write w.reg w.val).flags w.flags
  | none => s

/-- Whether what core `n` waits for holds. -/
def State.waitHolds (s : State) (n : Nat) (c : Core) : Bool :=
  match c.wait with
  | some .sync => c.granted
  | some (.counter h i v) => v ≤ (s.counter h i).count.toNat
  | some (.until t) => t ≤ s.now (coreReplica n)
  | some (.tags ts) => n < 256 && ts.all fun t => !(s.alcove n).liveTags.contains t
  | some .interrupt => false
  | none => false

/-- R109: a core in WAITING goes on once its condition holds. -/
def doAlcoveWaitRelease (n : Nat) (s : State) : State :=
  let c := s.coreAt n
  if c.state == .waiting && s.waitHolds n c then
    s.onCoreAt n fun c => { c with state := .running, wait := none, granted := false }
  else s

/-! ## Held instruction-store writes (R55) -/

/-- A held packet is written whole: it is counted and answered. -/
def State.heldDone (s : State) (w : HeldWrite) : State :=
  let s1 : State := match s.job? w.copy with
    | some (_, j) =>
      match j.packets.find? (·.idx == w.packet) with
      | some p =>
        if bit j.req.counter 15 = 1 then s.countPacket (bits j.req.counter 14 12) (bits j.req.counter 11 0) p.len else s
      | none => s
    | none => s
  s1.onMem fun m => { m with acks := m.acks ++ [{ origin := .engine w.engine w.copy w.packet, status := statusApplied }] }

/-- R55: one held bundle is written once no shift is incomplete. -/
def doHeldIstoreWriteApply (n : Nat) (s : State) : State :=
  let x := s.alcove n
  match x.held with
  | w :: rest =>
    if x.shifting then s
    else
      let s1 := s.setAlcove n ({ x with held := rest }.applyHeld w)
      if w.last then s1.heldDone w else s1
  | [] => s

/-! ## Streams (R106, R119 to R121) -/

/-- Whether a fence stands before the `k`-th stream command. -/
def Alcove.fenced (x : Alcove) (k : Nat) : Bool := (x.streams.take k).any (·.kind == .fence)

/-- The place and contents of the stream with a tag. -/
def Alcove.streamAt (x : Alcove) (tag : Nat) : Option (Nat × Stream) :=
  match x.streams.zipIdx.find? fun p => p.1.kind != .fence && p.1.tag == tag with
  | some (t, k) => some (k, t)
  | none => none

/-- Fences that nothing precedes are gone. -/
def dropFences : List Stream → List Stream
  | t :: r => if t.kind = .fence then dropFences r else t :: r
  | [] => []

/-- The `k`-th stream command is complete. -/
def Alcove.dropStream (x : Alcove) (k tag : Nat) : Alcove :=
  { x with streams := dropFences (x.streams.eraseIdx k), walker := x.walker.tagDone tag }

/-- Whether an operation consumes a stream. -/
def XOp.uses (tag : Nat) : XOp → Bool
  | .wshift t _ _ _ => t == tag
  | .mpass _ t _ _ _ _ _ _ _ _ _ _ _ _ _ => t == tag
  | _ => false

/-- Whether claimed rows of a stream are still to be delivered. -/
def Alcove.undelivered (x : Alcove) (tag : Nat) : Bool :=
  (List.range 4).any fun u => (x.unit u).queue.any (·.uses tag) || (x.unit u).shift.any (·.uses tag)

/-- Whether every opened cursor, or the shifts, have claimed all rows (R120). -/
def Stream.claimedAll (t : Stream) : Bool :=
  match t.kind with
  | .sbcast => !t.cursors.isEmpty && t.cursors.all fun c => c.2 == t.rows
  | .swgt => t.claimed == t.rows
  | .sdrain => false
  | .fence => false

/-- R120: the `k`-th stream command of alcove `n` completes. -/
def doStreamComplete (n k : Nat) (s : State) : State :=
  let x := s.alcove n
  match x.streams[k]? with
  | some t =>
    let feeds := t.kind == .sbcast || t.kind == .swgt
    if feeds && !x.fenced k && !x.undelivered t.tag && (t.closed || t.claimedAll) then s.setAlcove n (x.dropStream k t.tag)
    else s
  | none => s

/-- Reads rows of a stream from the store, with what the reads meet. -/
def State.streamRows (s : State) (n : Nat) (t : Stream) (first len : Nat) : (count : Nat) → State × List (Nat × Bool)
  | 0 => (s, [])
  | k + 1 =>
    let inside := t.rowInside first len
    let r := if inside = 0 then (s, []) else s.storeEvents n (t.rowStart first) inside
    let rest := r.1.streamRows n t (first + 1) len k
    (rest.1, t.readRow r.2 first len :: rest.2)

/-! ## Weight shifts and exchanges (R115, R116, R127) -/

def Alcove.onUnit (x : Alcove) (u : Nat) (f : XUnit → XUnit) : Alcove := x.setUnit u (f (x.unit u))

/-- R116: the `WSHIFT` at the head of a unit's queue begins. -/
def doWeightShiftStart (n u : Nat) (s : State) : State :=
  let x := s.alcove n
  let y := x.unit u
  match y.queue with
  | .wshift tag first fmt bs :: rest =>
    match x.streamAt tag with
    | some (k, _) =>
      if y.shift.isSome || !x.held.isEmpty || x.fenced k then s
      else (s.setAlcove n (x.setUnit u { y with queue := rest, shift := some (.wshift tag first fmt bs) })).shadowShift n u
    | none => s
  | _ => s

/-- The plane that 64 rows fill. A unit that a forced write has made invalid stays invalid (R56). -/
def XUnit.filled (y : XUnit) (rows : List (Nat × Bool)) (fmt : Nat) (bs : Bool) : XUnit :=
  let p : Plane := { state := .valid, fmt := fmt, bs := bs, rows := rows.map (·.1), poison := rows.any (·.2) }
  { y with shift := none, shadow := if y.active.state = .invalid then { p with state := .invalid } else p }

/-- R115: the last plane row of a shift enters. -/
def doWeightShiftComplete (n u : Nat) (s : State) : State :=
  let x := s.alcove n
  match (x.unit u).shift with
  | some (.wshift tag first fmt bs) =>
    match x.streamAt tag with
    | some (_, t) =>
      let r := s.streamRows n t first (rowBytes (fmtOf fmt) 64 bs) 64
      (r.1.onAlcove n fun x => x.onUnit u fun y => y.filled r.2 fmt bs).shadowShifted n u
    | none => s
  | _ => s

/-- Whether a unit has nothing under way. -/
def XUnit.idle (y : XUnit) : Bool := y.shift.isNone && y.pipe.isEmpty

/-- The planes exchanged, and the operation at the head of the queue gone. -/
def XUnit.swapped (y : XUnit) : XUnit := { y with active := y.shadow, shadow := y.active, queue := y.queue.tail }

/-- R116, R126: a `WSWAP` exchanges planes; a ganged one those of all four units. -/
def doWswapExchange (n u : Nat) (s : State) : State :=
  let x := s.alcove n
  match (x.unit u).queue with
  | .wswap ganged :: _ =>
    let us := if ganged then List.range 4 else [u]
    if us.all fun v => (x.unit v).idle && (x.unit v).queue.head? == some (.wswap ganged) then
      us.foldl (fun s v => s.shadowSwap n v) (s.setAlcove n (us.foldl (fun x v => x.onUnit v XUnit.swapped) x))
    else s
  | _ => s

/-- R127: a mode change takes effect once all units are drained. -/
def doGangChange (n : Nat) (s : State) : State :=
  let x := s.alcove n
  match (x.unit 0).queue with
  | .gang m :: _ =>
    if (List.range 4).all fun v => (x.unit v).idle && (x.unit v).queue.head? == some (.gang m) then
      let x1 := (List.range 4).foldl (fun (x : Alcove) v => x.onUnit v fun y => { y with queue := y.queue.tail }) x
      s.setAlcove n { x1 with mode := m }
    else s
  | _ => s

/-! ## Passes (R119, R122 to R128, R132, R134 to R136) -/

def Alcove.tile (x : Alcove) (t : Nat) : AccTile := tget .zero x.tiles t

def Alcove.setTile (x : Alcove) (t : Nat) (y : AccTile) : Alcove := { x with tiles := tset .zero x.tiles t y }

/-- Half-cycles of a pass pipe for each row, by format (R131). -/
def rowHalfCycles (f : Fmt) : Nat :=
  match f with
  | .e2m1 | .int4 | .uint4 => 1
  | .bf16 | .fp16 => 4
  | .fp19 => 8
  | _ => 2

/-- What a pass does at one tile: the tile after, its flags, its checks and the lines not compared. -/
structure TileOut where
  index : Nat
  tile : AccTile
  flags : Nat
  checks : List Check
  skipped : Nat

/-- What a pass computes at tile group `t` of unit `d`. -/
def Alcove.passGroup (x : Alcove) (a : PassArgs) (m : Gang) (tol u acc rows cols : Nat) (acts : List (Nat × Bool))
    (d t : Nat) : TileOut :=
  let used := usedUnits m u a.depth
  let plane := used.any fun j => (x.unit j).active.poison
  let index := 4 * d + acc % 4 + t
  let old := x.tile index
  let es := a.elements m u d t rows cols (fun i => (acts.getD i (0, false)).1)
    (fun j c => (x.unit j).active.rows.getD c 0) old
  let k := min 64 (rows - 64 * t)
  let ch := groupChecks m d a.int plane tol (fun i => (acts.getD i (0, false)).2) es
  { index := index, tile := passTile old es k ((cols >>> columnBase m d) % 2 ^ 64) a.add a.int
      (plane || acts.any (·.2)),
    flags := es.foldl (fun f e => f ||| e.flags) 0, checks := ch.1, skipped := ch.2 }

/-- Whether every pass of alcove `n`, or a focus pack those of a format, is checked (R134, R448). -/
def State.forcesCheck (s : State) (n fmtW : Nat) : Bool :=
  s.fld F.XU_CHK_CTRL_FORCE n == 1 || bit (s.forcedFormats (n / 32)) fmtW == 1

/-- The tolerance exponent of alcove `n` (R140). -/
def State.tolerance (s : State) (n : Nat) : Nat := max 8 (min 20 (s.fld F.XU_CHK_CTRL_TOL n))

/-- An `MPASS` enters the array: its rows are delivered and its tiles computed. -/
def State.feedPass (s : State) (n u : Nat) (op : XOp) : State :=
  match op with
  | .mpass acc tag first rows depth fmtA fmtW add chk bs cols round sat _ m =>
    match (s.alcove n).streamAt tag with
    | some (_, t) =>
      let r := s.streamRows n t first (rowBytes (fmtOf fmtA) depth bs) rows
      let x := r.1.alcove n
      let used := usedUnits m u depth
      let open_ := used.any fun j => (x.unit j).active.state != .valid
      let a : PassArgs :=
        { fa := fmtOf fmtA, fw := fmtOf fmtW, bs := bs, add := add, depth := depth, rnd := accumulationRnd round,
          accFp := bit sat 0 == 1, accInt := bit sat 1 == 1, free := if open_ then some r.1.drawn else none }
      let groups := (rows + 63) / 64
      let outs := (landUnits m u).flatMap fun d => (List.range groups).map fun g => x.passGroup a m (s.tolerance n) u acc rows cols r.2 d g
      let checked := chk || s.forcesCheck n fmtW
      let fed := (rowHalfCycles a.fa * (rows + if checked then groups else 0) + 1) / 2
      let job : PassJob :=
        { op := op, tiles := outs.map fun o => (o.index, o.tile), flags := outs.foldl (fun f o => f ||| o.flags) 0,
          checks := if checked then outs.flatMap (·.checks) else [],
          skipped := if checked then (outs.map (·.skipped)).sum else 0, fed := fed * used.length, int := a.int }
      let s1 := if open_ then { r.1 with drawn := r.1.drawn + 65536 } else r.1
      s1.onAlcove n fun x => x.onUnit u fun y => { y with queue := y.queue.tail, pipe := y.pipe ++ [job] }
    | none => s
  | _ => s

/-- A pass-pipe operation other than a pass, with the tile it writes. -/
def XOp.plainJob (op : XOp) (tiles : List (Nat × AccTile)) : PassJob :=
  { op := op, tiles := tiles, flags := 0, checks := [], skipped := 0, fed := 0, int := false }

/-- R132: the operation at the head of a unit's queue enters its pass pipe. -/
def doPassStart (n u : Nat) (s : State) : State :=
  let x := s.alcove n
  let enter := fun (j : PassJob) =>
    s.setAlcove n (x.onUnit u fun y => { y with queue := y.queue.tail, pipe := y.pipe ++ [j] })
  match (x.unit u).queue with
  | op :: _ =>
    match op with
    | .mpass _ tag _ _ _ _ _ _ _ _ _ _ _ _ _ =>
      match x.streamAt tag with
      | some (k, _) => if x.fenced k then s else s.feedPass n u op
      | none => s
    | .accrd _ _ => enter (op.plainJob [])
    | .accwr acc pair cols v => enter (op.plainJob [(acc, accWrite (x.tile acc) pair cols v)])
    | .accz acc cols => enter (op.plainJob [(acc, accZero (x.tile acc) cols)])
    | .wshift _ _ _ _ => s
    | .wswap _ => s
    | .gang _ => s
  | [] => s

/-- The registers that a pass-pipe operation keeps busy (R128). -/
def XOp.busyRegs : XOp → List RegRef
  | .mpass acc _ _ rows _ _ _ _ _ _ _ _ _ _ m => (passTiles m acc rows).map fun t => { file := .acc, idx := t }
  | .accrd v _ => [{ file := .v, idx := v }]
  | .accwr acc _ _ _ => [{ file := .acc, idx := acc }]
  | .accz acc _ => [{ file := .acc, idx := acc }]
  | _ => []

/-- The channel of unit `u` of alcove `n`. -/
def unitChannel (n u : Nat) : Nat := channelId 5 (4 * n + u)

/-- A parity error in a tile (R136): the tile is poisoned and its unit charged. -/
def State.tileParity (s : State) (n t : Nat) (m : Mark := .natural) : State :=
  let s1 := s.onAlcove n fun x => x.setTile t { x.tile t with poison := true, clean := 0 }
  (s1.charge (unitChannel n (t / 4)) .tue { RasRecord.blank with detector := 0x10, location := toBytes 2 n ++ [t / 4, t % 4] }
    m).1

def doAccumulatorParityError (n t : Nat) (s : State) : State := s.tileParity n t

/-- What an operation does to the shadow alcove's knowledge (R450). -/
def State.shadowFollows (s : State) (n u : Nat) (op : XOp) : State :=
  match op with
  | .mpass acc _ _ rows depth _ _ add _ _ _ _ _ _ m => s.shadowPass n (usedUnits m u depth) (passTiles m acc rows) add
  | .accwr acc pair _ _ => s.shadowRows n acc (3 <<< (2 * pair))
  | .accz acc _ => s.shadowTile n acc true
  | _ => s

/-- A checksum mismatch of alcove `n` (R135, R448, R462). -/
def State.checksumMismatch (s : State) (n : Nat) (c : Check) (fmtW mode pc : Nat) (int : Bool) (m : Mark) : State :=
  let (s0, v) := if int then (s, c.sum) else s.draw
  let s1 := (s0.addFld F.XU_CHK_COUNT_MISMATCHES 1 n).logFirst F.XU_CHK_STATUS_MISMATCH F.XU_CHK_STATUS_OVERRUN n 0
    [(F.XU_CHK_STATUS_UNIT, c.unit), (F.XU_CHK_STATUS_KIND, c.kind), (F.XU_CHK_STATUS_INDEX, c.index),
     (F.XU_CHK_STATUS_PC, pc)]
  let s2 := if s1.fld F.XU_CHK_CTRL_IRQ_EN n = 1 then s1.fire (source (n / 32) (32 + n % 32)) else s1
  let (q, i, part, vi) := match (s.alcove n).grant with
    | some g =>
      match s.queue g.queue with
      | some w => (g.queue, g.op, (s.queuePart w).getD 0xFF, w.vi)
      | none => (g.queue, g.op, 0xFF, 0)
    | none => (0xFFFF, 0xFFFF, 0xFF, 0)
  let s3 := s2.onOp q i fun o => { o.flag opChecksum with chk := o.chk + 1 }
  (s3.checksumEvent n c.unit c.kind c.index { RasRecord.blank with
    partition := part, vi := vi, queue := q, opIndex := i,
    location := toBytes 2 n ++ [c.unit, c.kind] ++ toBytes 2 c.index ++ toBytes 2 pc ++ [fmtW, mode],
    signature := toBytes 4 c.sum ++ toBytes 4 (v % 2 ^ 32) ++ s.conditions (n / 32) ++
      toBytes 4 (s.checkPack (n / 32) fmtW) } m).1

/-- Mismatches of a pass that completes, with the shots of rows 0x10 and 0x20: the latter reverses one comparison (R468). -/
def State.passShots (s : State) (n u : Nat) (j : PassJob) : State :=
  match j.op with
  | .mpass _ _ _ _ depth _ fmtW _ _ _ _ _ _ pc m =>
    let s1 := (usedUnits m u depth).foldl (fun (s : State) d =>
      match j.tiles.find? fun t => t.1 / 4 == d with
      | some (t, _) =>
        match s.shoot 0x10 (unitChannel n d) with
        | some (s1, _, _, inj) => s1.tileParity n t inj
        | none => s
      | none => s) s
    (usedUnits m u depth).foldl (fun (s : State) d =>
      let cs := j.checks.filter (·.unit == d)
      let first := fun (p : Nat) => cs.find? (·.kind == bit p 0)
      let fails := fun (s : State) (l : List Check) => l.foldl (fun s c =>
        if c.bad then s.checksumMismatch n c fmtW m.code pc j.int .natural else s) s
      match s.shoot 0x20 (unitChannel n d) fun p => (first p).isSome with
      | some (s1, _, p, inj) =>
        match first p with
        | some c =>
          let s2 := if c.bad then s1 else s1.checksumMismatch n c fmtW m.code pc j.int inj
          fails s2 (cs.filter (· != c))
        | none => s1
      | none => fails s cs) s1
  | _ => s

/-- What counts for a completed pass (R134, R140). -/
def State.passCounts (s : State) (n : Nat) (j : PassJob) : State :=
  match j.op with
  | .mpass _ _ _ _ _ _ _ _ _ _ _ _ _ _ _ =>
    ((s.wrapFld F.XU_PASS_COUNT_COUNT 1 n).wrapFld F.XU_BUSY_CYCLES_COUNT j.fed n).addFld F.XU_CHK_COUNT_SKIPPED j.skipped n
  | _ => s

/-- The alcove after the first operation of a pass pipe. -/
def Alcove.passDone (x : Alcove) (u : Nat) (j : PassJob) : Alcove :=
  let x1 := j.tiles.foldl (fun x t => x.setTile t.1 t.2) (x.onUnit u fun y => { y with pipe := y.pipe.tail })
  let c := { x1.core with busy := x1.core.busy.filter fun r => !j.op.busyRegs.contains r }
  let c1 := match j.op with
    | .accrd v y => c.write { file := .v, idx := v } (.v y)
    | _ => c
  { x1 with core := c1.flags j.flags }

/-- R132: the oldest operation of a pass pipe completes. -/
def doPassComplete (n u : Nat) (s : State) : State :=
  let x := s.alcove n
  match (x.unit u).pipe with
  | j :: _ => (((s.setAlcove n (x.passDone u j)).shadowFollows n u j.op).passCounts n j).passShots n u j
  | [] => s

/-! ## Drains (R130, R160 to R163) -/

/-- The writes of a drain: address, bytes and whether they are poisoned; its histogram record comes last. -/
def Stream.writes (t : Stream) (rows : List (List Nat)) (tread : Nat) : List (Nat × List Nat × Bool) :=
  (rows.mapIdx fun r es => (t.rowStart r, packRow (fmtOf t.fmt) es, t.tile.poison)) ++
    (match t.hist with
     | some off => [(off, histRecord t (rows.flatMap id) tread, false)]
     | none => [])

/-- A later command behind a fence sees the drain's writes (R66, R106). -/
def Stream.sees (t : Stream) (w : Nat × List Nat × Bool) : Stream :=
  { t with snap := storeBytes t.snap w.1 w.2.1,
           snapPoison := markUnits t.snapPoison 32 w.1 (List.replicate w.2.1.length w.2.2) }

/-- R163: the `k`-th stream command of alcove `n`, a drain, completes. -/
def doSdrainComplete (n k : Nat) (s : State) : State :=
  let x := s.alcove n
  match x.streams[k]? with
  | some t =>
    if t.kind != .sdrain || (x.streams.take k).any (fun y => y.kind == .sdrain || y.kind == .fence) then s
    else
      let rs : List (List Nat × Nat) := (List.range t.rows).map t.drainRow
      let ws := t.writes (rs.map (·.1)) (s.now (256 + n))
      let s1 := ws.foldl (fun (s : State) w => s.writeS n w.1 w.2.1 (List.replicate w.2.1.length w.2.2)) s
      s1.onAlcove n fun x =>
        let y : Alcove := { x with streams := x.streams.mapIdx fun i u =>
          if k < i && (slice x.streams (k + 1) (i - k - 1)).any (·.kind == .fence) then ws.foldl Stream.sees u else u }
        { y.dropStream k t.tag with core := y.core.flags (rs.foldl (fun f r => f ||| r.2) 0) }
  | none => s

/-! ## The walker's done count (R173) -/

/-- R173: the done count rises for every advance whose commands are complete. -/
def doDoneCountUpdate (n : Nat) (s : State) : State :=
  s.onAlcove n fun x =>
    let w := x.walker
    { x with walker := { w with
        done := (w.notes.filter (·.tags.isEmpty)).foldl (fun d y => max d y.share) w.done,
        notes := w.notes.filter fun y => !y.tags.isEmpty } }

/-! ## Completion (R70, R75, R308) and the save point (R82, R175) -/

/-- Whether every engine command that an alcove has issued is complete. -/
def Alcove.quiet (x : Alcove) : Bool :=
  x.core.wb.isEmpty && x.streams.isEmpty && x.copies.isEmpty &&
    (List.range 4).all fun u => (x.unit u).idle && (x.unit u).queue.isEmpty

/-- What a rank brings to its operation when it reports. One that did not reach END in a `PARTIAL` operation reports
what it lost (R436). -/
def Operation.rankReports (o : Operation) (k : Nat) (x : Alcove) : Operation :=
  { o with
    ranks := o.ranks.mapIdx fun i r => if i = k then { r with reported := true, ended := x.ended } else r,
    fstat := if x.ended then o.fstat ||| x.core.fstat.toNat else o.fstat,
    lost := if !x.ended && o.status = stPartial then o.lost ++ x.walker.lost else o.lost }

/-- A rank reports: the vestibule counts it, and a pause of its operation may be complete. -/
def State.reportRank (s : State) (n : Nat) (g : Grant) : State :=
  (s.onOp g.queue g.op fun o => o.rankReports g.rank (s.alcove n)).maybePaused g.queue g.op

/-- R70: a drained alcove reports to the vestibule. -/
def doAlcoveReportCompletion (n : Nat) (s : State) : State :=
  let x := s.alcove n
  match x.grant with
  | some g =>
    let stopped := x.core.state == .draining || x.core.state == .faulted
    let waits := match s.op? g.queue g.op with
      | some o => o.ranks[g.rank]?.any fun r => !r.reported
      | none => false
    if !stopped || !x.quiet || !waits then s
    else
      let y := if x.ended then { x with walker := { x.walker with done := max x.walker.done x.walker.next, notes := [] } } else x
      let z := { y with
        copies := [], core := { y.core with state := if y.core.state == .faulted then .faulted else .idle, busy := [] } }
      (s.setAlcove n z).reportRank n g
  | none => s

/-- Whether the next bundle of an alcove holds `TWADV` and is no poisoned one (R101). -/
def Alcove.atAdvance (x : Alcove) : Bool :=
  let c := x.core
  let b := match c.prefetch.head? with
    | some f => if f.idx = c.pc then (f.bits, f.poison) else (tget 0 x.istore c.pc, tget false x.istorePoison c.pc)
    | none => (tget 0 x.istore c.pc, tget false x.istorePoison c.pc)
  opOf (slotOp (bundleSlot b.1 2)) == some .TWADV && !b.2

/-- Whether an alcove stands at its save point. -/
def Alcove.atSavePoint (x : Alcove) : Bool :=
  x.core.state == .running && x.pausePending && !x.saving && x.abortBy.isNone && x.atAdvance

/-- R82: an alcove at its save point issues no further bundle and closes its streams; once its commands have drained,
it hands over its state. A rank of an operation that has become `PARTIAL` reports what it lost instead (R436). -/
def doSavePoint (n : Nat) (s : State) : State :=
  let x := s.alcove n
  if !x.atSavePoint then s
  else
    let s1 := (s.setAlcove n x.closeStreams).shadowEnds n false
    if !x.quiet || !x.core.busy.isEmpty then s1
    else
      let w := { x.walker with done := max x.walker.done x.walker.next, notes := [] }
      match x.grant with
      | some g =>
        let partly := match s.op? g.queue g.op with
          | some o => o.status == stPartial
          | none => false
        if partly then
          (s1.onAlcove n fun y => { y with
            walker := w, pausePending := false, core := { y.core with state := .idle, prefetch := [] } }).reportRank n g
        else s1.onAlcove n fun y => { y with walker := w, saving := true, core := { y.core with prefetch := [] } }
      | none => s1

end Sys2Proof.Machine
end

