-- ==== Sys2Proof/Machine/CmdAlcoves.lean ====
section
/-! DEFINITION. The commands of alcoves and their engines (R51 to R177). -/

namespace Sys2Proof.Machine

/-- GROUP_ABORT (R75): The other alcoves of a faulted group stop at their next bundle boundary with
GROUP_ABORT. -/
def execGroupAbort (n : Fin 256) (s : State) : Host.Outcome State Fault Refusal :=
  .next ((doGroupAbort n.val s).settle)

/-- RESULT_WRITEBACK (R63): A result of fixed latency is written to its register and its busy mark clears.
-/
def execResultWriteback (n : Fin 265) (k : Nat) (s : State) : Host.Outcome State Fault Refusal :=
  .next (doResultWriteback n.val k s)

/-- ALCOVE_WAIT_RELEASE (R109): An alcove in WAITING resumes issue when its wait condition holds. -/
def execAlcoveWaitRelease (n : Fin 265) (s : State) : Host.Outcome State Fault Refusal :=
  .next (doAlcoveWaitRelease n.val s)

/-- ALCOVE_REPORT_COMPLETION (R70): After END, once all issued engine commands are complete, the alcove
reports completion to the vestibule. -/
def execAlcoveReportCompletion (n : Fin 256) (s : State) : Host.Outcome State Fault Refusal :=
  .next ((doAlcoveReportCompletion n.val s).settle)

/-- SAVE_POINT (R82): An alcove reaching TWADV with a pause pending stops issue, drains and hands its state
to the vestibule. -/
def execSavePoint (n : Fin 256) (s : State) : Host.Outcome State Fault Refusal :=
  .next ((doSavePoint n.val s).settle)

/-- HELD_ISTORE_WRITE_APPLY (R55): After the last incomplete shift completes, the held write is applied one
bundle per cycle. -/
def execHeldIstoreWriteApply (n : Fin 256) (s : State) : Host.Outcome State Fault Refusal :=
  .next (doHeldIstoreWriteApply n.val s)

/-- WEIGHT_SHIFT_START (R116): A queued WSHIFT enters the shift pipe once every earlier shift of the unit
has completed. -/
def execWeightShiftStart (n : Fin 256) (u : Fin 4) (s : State) : Host.Outcome State Fault Refusal :=
  .next (doWeightShiftStart n.val u.val s)

/-- WEIGHT_SHIFT_COMPLETE (R115): The 64th plane row enters and the shadow plane becomes valid with its
format. -/
def execWeightShiftComplete (n : Fin 256) (u : Fin 4) (s : State) : Host.Outcome State Fault Refusal :=
  .next ((doWeightShiftComplete n.val u.val s).settle)

/-- WSWAP_EXCHANGE (R116): Once every earlier operation of the unit has completed, the planes are exchanged
in one cycle. -/
def execWswapExchange (n : Fin 256) (u : Fin 4) (s : State) : Host.Outcome State Fault Refusal :=
  .next (doWswapExchange n.val u.val s)

/-- GANG_CHANGE (R127): Once all units are drained the ganging mode changes over 16 cycles. -/
def execGangChange (n : Fin 256) (s : State) : Host.Outcome State Fault Refusal :=
  .next (doGangChange n.val s)

/-- PASS_START (R132): A pass-pipe operation starts feeding once the previous one has fed its last row. -/
def execPassStart (n : Fin 256) (u : Fin 4) (s : State) : Host.Outcome State Fault Refusal :=
  .next ((doPassStart n.val u.val s).settle)

/-- PASS_COMPLETE (R132): 72 cycles after the last row plus mode latency the pass's tiles complete and their
busy marks clear. -/
def execPassComplete (n : Fin 256) (u : Fin 4) (s : State) : Host.Outcome State Fault Refusal :=
  .next ((doPassComplete n.val u.val s).settle)

/-- ACCUMULATOR_PARITY_ERROR (R136): A parity error in an accumulator tile poisons the tile and charges the
matrix unit. -/
def execAccumulatorParityError (n : Fin 256) (tile : Fin 16) (s : State) : Host.Outcome State Fault Refusal :=
  .next ((doAccumulatorParityError n.val tile.val s).settle)

/-- STREAM_COMPLETE (R120): A stream command completes when every row is delivered to every claimant and all
cursors have claimed all rows. -/
def execStreamComplete (n : Fin 256) (k : Nat) (s : State) : Host.Outcome State Fault Refusal :=
  .next (doStreamComplete n.val k s)

/-- SDRAIN_COMPLETE (R163): A drain completes after its last row and its histogram record are written. -/
def execSdrainComplete (n : Fin 256) (k : Nat) (s : State) : Host.Outcome State Fault Refusal :=
  .next ((doSdrainComplete n.val k s).settle)

/-- DONE_COUNT_UPDATE (R173): When the C-slot commands noted at an advance complete, the walker's done count
rises to that share index. -/
def execDoneCountUpdate (n : Fin 256) (s : State) : Host.Outcome State Fault Refusal :=
  .next (doDoneCountUpdate n.val s)

end Sys2Proof.Machine
end

