-- ==== Sys2Proof/Machine/CmdAnneal.lean ====
section
/-! DEFINITION. The commands of the annealers (R259 to R282). -/

namespace Sys2Proof.Machine

/-- ANNEAL_EPOCH_LOAD (R274): At each epoch start the annealer loads its block's spins from STATE. -/
def execAnnealEpochLoad (h : Fin 8) (s : State) : Host.Outcome State Fault Refusal :=
  .next (doAnnealEpochLoad h.val s)

/-- ANNEAL_CLAMP_PASS (R274): The clamp pass forms and stores clamp fields from cross entries via volatile
narrow reads. -/
def execAnnealClampPass (h : Fin 8) (s : State) : Host.Outcome State Fault Refusal :=
  .next (doAnnealClampPass h.val s)

/-- ANNEAL_EVALUATION_PASS (R269): The evaluation pass checks rows and sets each slot's running energy
exactly in FP64. -/
def execAnnealEvaluationPass (h : Fin 8) (s : State) : Host.Outcome State Fault Refusal :=
  .next (doAnnealEvaluationPass h.val s)

/-- ANNEAL_SWEEP (R266): A sweep updates every resident spin of every slot in index order with seeded
acceptance. -/
def execAnnealSweep (h : Fin 8) (s : State) : Host.Outcome State Fault Refusal :=
  .next (doAnnealSweep h.val s)

/-- ANNEAL_EXCHANGE_ROUND (R270): An exchange round tries alternate replica pairs and swaps accepted states
and energies. -/
def execAnnealExchangeRound (h : Fin 8) (s : State) : Host.Outcome State Fault Refusal :=
  .next (doAnnealExchangeRound h.val s)

/-- ANNEAL_SWEEP_POINT (R275): At an epoch end the block is written, sent to peers and the annealer arrives
at the landing. -/
def execAnnealSweepPoint (h : Fin 8) (s : State) : Host.Outcome State Fault Refusal :=
  .next (doAnnealSweepPoint h.val s)

/-- ANNEAL_SWEEP_POINT_RELEASE (R275): After the landing release and counter wait the annealer starts its
next epoch. -/
def execAnnealSweepPointRelease (h : Fin 8) (s : State) : Host.Outcome State Fault Refusal :=
  .next (doAnnealSweepPointRelease h.val s)

/-- ANNEAL_INITIAL_SWEEP_POINT (R276): Before epoch 0 the annealer initialises, writes and sends its blocks
and passes an initial sweep point. -/
def execAnnealInitialSweepPoint (h : Fin 8) (s : State) : Host.Outcome State Fault Refusal :=
  .next (doAnnealInitialSweepPoint h.val s)

/-- ANNEAL_END (R280): An annealer operation ends by completion, problem, poison, send failure or timeout,
writing state and summary. -/
def execAnnealEnd (h : Fin 8) (s : State) : Host.Outcome State Fault Refusal :=
  .next (doAnnealEnd h.val s)

end Sys2Proof.Machine
end

