-- ==== Sys2Proof/Machine/CmdBoot.lean ====
section
/-! DEFINITION. The commands of reset, boot and life cycle (R471 to R491). -/

namespace Sys2Proof.Machine

/-- HC_AUTO_RESTART (R475): PMC firmware restarts a faulted hall controller within 1 ms, or leaves it halted
after a third fault in 3,600 s. -/
def execHcAutoRestart (h : Fin 8) (s : State) : Host.Outcome State Fault Refusal :=
  .next (doHcAutoRestart h.val s)

/-- COLD_RESET (R471): PWR_OK_IN rising releases cold reset and boot begins from the PMC ROM. -/
def execColdReset (s : State) : Host.Outcome State Fault Refusal :=
  .next (doColdReset s)

/-- PERST_N_ASSERT (R497): PERST_N asserted outside a cold boot starts a warm reset; pulses below 1 µs are
ignored. -/
def execPerstNAssert (s : State) : Host.Outcome State Fault Refusal :=
  .next (doPerstNAssert s)

/-- PERST_N_DEASSERT (R497): PERST_N deasserted allows PCIe training and completion of the warm reset. -/
def execPerstNDeassert (s : State) : Host.Outcome State Fault Refusal :=
  .next (doPerstNDeassert s)

/-- RESET_WIPE_COMPLETE (R471): A reset completes once its wipe has finished. -/
def execResetWipeComplete (s : State) : Host.Outcome State Fault Refusal :=
  .next ((doResetWipeComplete s).settle)

/-- BOOT_PMC_IMAGE_VERIFIED (R479): The chosen PMC bank is read, hashed and verified, falling back or
entering RECOVERY. -/
def execBootPmcImageVerified (s : State) : Host.Outcome State Fault Refusal :=
  .next (doBootPmcImageVerified s)

/-- BOOT_HALL_IMAGE_VERIFIED (R479): The hall bank is verified and the version pairing decided under R483.
-/
def execBootHallImageVerified (s : State) : Host.Outcome State Fault Refusal :=
  .next (doBootHallImageVerified s)

/-- BOOT_HALL_START (R479): The PMC loads and starts the hall controllers, programs the IC and applies the
profile. -/
def execBootHallStart (s : State) : Host.Outcome State Fault Refusal :=
  .next (doBootHallStart s)

/-- BOOT_READY (R479): Once every HBM channel is READY or RETIRED the boot ends in READY or RESTRICTED and
commits pending banks. -/
def execBootReady (s : State) : Host.Outcome State Fault Refusal :=
  .next (doBootReady s)

/-- BOOT_WATCHDOG_EXPIRE (R479): The 2 s boot watchdog expiring before step 9 causes a cold reset. -/
def execBootWatchdogExpire (s : State) : Host.Outcome State Fault Refusal :=
  .next (doBootWatchdogExpire s)

/-- PMC_SERVICE_TIMER_EXPIRE (R476): The PMC's 100 ms service timer expiring causes a cold reset within 10
µs. -/
def execPmcServiceTimerExpire (s : State) : Host.Outcome State Fault Refusal :=
  .next (doPmcServiceTimerExpire s)

/-- PMC_FAULT (R476): A PMC fault causes a cold reset within 10 µs, keeping BOOT_PMC_FAULT. -/
def execPmcFault (s : State) : Host.Outcome State Fault Refusal :=
  .next (doPmcFault s)

/-- LC_ARM_LAPSE (R490): An ARM not committed within 1 s lapses. -/
def execLcArmLapse (s : State) : Host.Outcome State Fault Refusal :=
  .next (doLcArmLapse s)

end Sys2Proof.Machine
end

