-- ==== Sys2Proof/Machine/CmdClz.lean ====
section
/-! DEFINITION. The commands of Coluz ports (R362 to R395). -/

namespace Sys2Proof.Machine

/-- LANE_SIGNAL_DETECT (R364): Signal on the lanes moves a port from DETECT to TRAIN. -/
def execLaneSignalDetect (p : Fin 64) (s : State) : Host.Outcome State Fault Refusal :=
  .next (doLaneSignalDetect p.val s)

/-- LINK_TRAINING_DONE (R364): Training completes and the port enters LOCK. -/
def execLinkTrainingDone (p : Fin 64) (s : State) : Host.Outcome State Fault Refusal :=
  .next (doLinkTrainingDone p.val s)

/-- FEC_LOCK_DONE (R364): Codeword and marker lock on every lane moves the port to INIT. -/
def execFecLockDone (p : Fin 64) (s : State) : Host.Outcome State Fault Refusal :=
  .next ((doFecLockDone p.val s).settle)

/-- BRINGUP_STEP_TIMEOUT (R364): A bring-up step exceeding its limit returns the port to DETECT with
INIT_FAIL. -/
def execBringupStepTimeout (p : Fin 64) (failed : Fin 16) (s : State) : Host.Outcome State Fault Refusal :=
  .next ((doBringupStepTimeout p.val failed.val s).settle)

/-- INIT_FLIT_RECEIVE (R365): A received INIT flit counts toward INIT completion, which sets width, role and
credits. -/
def execInitFlitReceive (p : Fin 64) (flit : List Nat) (s : State) : Host.Outcome State Fault Refusal :=
  .next ((doInitFlitReceive p.val flit s).settle)

/-- LANE_LOCK_LOSS (R371): Loss of lock on a lane in use enters RECOVER, keeping replay state. -/
def execLaneLockLoss (p : Fin 64) (lane : Fin 4) (s : State) : Host.Outcome State Fault Refusal :=
  .next ((doLaneLockLoss p.val lane.val s).settle)

/-- DATA_FLIT_RECEIVE (R370): A DATA flit is accepted in sequence, or discarded with a NAK, and its ACK and
credits processed. -/
def execDataFlitReceive (p : Fin 64) (flit : List Nat) (fec : Bool) (s : State) : Host.Outcome State Fault Refusal :=
  .next ((doDataFlitReceive p.val flit fec s).settle)

/-- CONTROL_FLIT_RECEIVE (R369): An IDLE flit delivers its acknowledgement and credit returns. -/
def execControlFlitReceive (p : Fin 64) (flit : List Nat) (fec : Bool) (s : State) : Host.Outcome State Fault Refusal :=
  .next ((doControlFlitReceive p.val flit fec s).settle)

/-- NAK_RECEIVE (R370): A NAK makes the transmitter resend every unacknowledged DATA flit from ACK + 1. -/
def execNakReceive (p : Fin 64) (flit : List Nat) (fec : Bool) (s : State) : Host.Outcome State Fault Refusal :=
  .next ((doNakReceive p.val flit fec s).settle)

/-- NAK_REPEAT_TIMER (R370): A receiver awaiting a missing flit resends its NAK every 1 µs. -/
def execNakRepeatTimer (p : Fin 64) (s : State) : Host.Outcome State Fault Refusal :=
  .next (doNakRepeatTimer p.val s)

/-- ACK_PROGRESS_TIMEOUT (R370): No ACK progress for 2 µs makes the transmitter resend. -/
def execAckProgressTimeout (p : Fin 64) (s : State) : Host.Outcome State Fault Refusal :=
  .next ((doAckProgressTimeout p.val s).settle)

/-- REPLAY_GIVE_UP (R372): After 20 µs the port discards replay state, writes a root RAS record and restarts
FRESH. -/
def execReplayGiveUp (p : Fin 64) (s : State) : Host.Outcome State Fault Refusal :=
  .next ((doReplayGiveUp p.val s).settle)

/-- MESSAGE_TRANSMIT (R375): At a message boundary the transmitter sends the preferred ready message that
its credits cover. -/
def execMessageTransmit (p : Fin 64) (s : State) : Host.Outcome State Fault Refusal :=
  .next (doMessageTransmit p.val s)

/-- ROUTE_WAIT_TIMEOUT (R382): A message waiting 20 µs for an ACTIVE port is dropped and counted. -/
def execRouteWaitTimeout (p : Fin 64) (s : State) : Host.Outcome State Fault Refusal :=
  .next (doRouteWaitTimeout p.val s)

/-- WINDOW_OPEN (R388): A window opens at the first flit boundary after its start and sends only its flow
besides replays and sync. -/
def execWindowOpen (p : Fin 64) (w : Fin 16) (s : State) : Host.Outcome State Fault Refusal :=
  .next (doWindowOpen p.val w.val s)

/-- WINDOW_CLOSE (R388): A window closes at its end and normal arbitration resumes. -/
def execWindowClose (p : Fin 64) (s : State) : Host.Outcome State Fault Refusal :=
  .next (doWindowClose p.val s)

end Sys2Proof.Machine
end

