-- ==== Sys2Proof/Machine/CmdCopy.lean ====
section
/-! DEFINITION. The commands of copies and their packets (R178 to R206, R379, R432, R433). -/

namespace Sys2Proof.Machine

/-- COPY_START (R186): A copy engine starts its next queued copy and cuts it into packets. -/
def execCopyStart (e : Fin 64) (s : State) : Host.Outcome State Fault Refusal :=
  .next (doCopyStart e.val s)

/-- PACKET_WRITE (R189): A packet reaching its destination point is written there and then acknowledged. -/
def execPacketWrite (i : Nat) (s : State) : Host.Outcome State Fault Refusal :=
  .next (doPacketWrite i s)

/-- CSET_APPLY (R199): A CSET reaching the counter queue sets the counter's value and mode. -/
def execCsetApply (i : Nat) (s : State) : Host.Outcome State Fault Refusal :=
  .next (doCsetApply i s)

/-- PACKET_ACKNOWLEDGE (R189): A copy engine receives a packet's acknowledgement or ACK message and records
its status. -/
def execPacketAcknowledge (i : Nat) (s : State) : Host.Outcome State Fault Refusal :=
  .next (doPacketAcknowledge i s)

/-- COPY_COMPLETE (R186): A copy completes once every read returned and every packet was acknowledged. -/
def execCopyComplete (e : Fin 64) (s : State) : Host.Outcome State Fault Refusal :=
  .next (doCopyComplete e.val s)

/-- GALLERY_BURST_REQUEST (R204): A gallery-to-gallery engine requests both ports of a burst and is granted
or refused by hall order. -/
def execGalleryBurstRequest (es : List (Fin 64)) (s : State) : Host.Outcome State Fault Refusal :=
  .next (doGalleryBurstRequest es s)

/-- GALLERY_BURST_RELEASE (R204): A burst ends, releasing its ports, and a refused engine is retried with
priority. -/
def execGalleryBurstRelease (e : Fin 64) (s : State) : Host.Outcome State Fault Refusal :=
  .next (doGalleryBurstRelease e.val s)

/-- READ_REQ_SERVE (R379): A READ_REQ for this device is answered by a READ_CPL with data or a refusal
status. -/
def execReadReqServe (i : Nat) (s : State) : Host.Outcome State Fault Refusal :=
  .next (doReadReqServe i s)

/-- READ_CPL_RECEIVE (R379): A READ_CPL returns data to its requesting agent, duplicates discarded. -/
def execReadCplReceive (i : Nat) (s : State) : Host.Outcome State Fault Refusal :=
  .next (doReadCplReceive i s)

/-- REMOTE_RESEND (R432): A remote message unanswered 25 µs after its last send is resent with RESEND 1. -/
def execRemoteResend (i : Nat) (s : State) : Host.Outcome State Fault Refusal :=
  .next (doRemoteResend i s)

/-- REMOTE_GIVE_UP (R432): 200 µs after the first resend without answer the agent gives up and its copy
fails. -/
def execRemoteGiveUp (i : Nat) (s : State) : Host.Outcome State Fault Refusal :=
  .next (doRemoteGiveUp i s)

/-- RECEIPT_ENTRY_RELEASE (R433): A receipt-filter entry idle for 512 µs is released, admitting a waiting
source. -/
def execReceiptEntryRelease (h : Fin 8) (i : Nat) (s : State) : Host.Outcome State Fault Refusal :=
  .next (doReceiptEntryRelease h.val i s)

end Sys2Proof.Machine
end

