-- ==== Sys2Proof/Machine/CmdHbm.lean ====
section
/-! DEFINITION. The commands of stacked memory (R207 to R234). -/

namespace Sys2Proof.Machine

/-- HBM_ACCESS (R213): An access accepted at a pseudo-channel controller reads or writes a sector, decoding
and merging as needed. -/
def execHbmAccess (off : Nat) (op : HbmOp) (noise : List (Nat × Nat)) (s : State) : Host.Outcome State Fault Refusal :=
  .next (doHbmAccess off op noise s)

/-- HBM_CORRECTED_WRITEBACK (R219): The scheduled class-3 write-back of a corrected sector is made unless a
write came first. -/
def execHbmCorrectedWriteback (i : Nat) (s : State) : Host.Outcome State Fault Refusal :=
  .next (doHbmCorrectedWriteback i s)

/-- PATROL_SCRUB (R219): The patrol scrub reads each line of its HBM channel once per 24 hours. -/
def execPatrolScrub (c : Fin 256) (line : Fin 6291456) (s : State) : Host.Outcome State Fault Refusal :=
  .next (doPatrolScrub c.val line.val s)

/-- HBM_REREAD (R220): A re-read of an uncorrectable sector is decoded within the 2 µs retry window. -/
def execHbmReread (i : Nat) (noise : List (Nat × Nat)) (s : State) : Host.Outcome State Fault Refusal :=
  .next (doHbmReread i noise s)

/-- HBM_REFRESH (R226): A due per-bank refresh is issued ahead of other accesses. -/
def execHbmRefresh (c : Fin 256) (pc : Fin 2) (bank : Fin 256) (s : State) : Host.Outcome State Fault Refusal :=
  .next (doHbmRefresh c.val pc.val bank.val s)

/-- HBM_REFRESH_MANAGEMENT (R229): Refresh management is issued as activation counts require. -/
def execHbmRefreshManagement (c : Fin 256) (pc : Fin 2) (bank : Fin 256) (s : State) : Host.Outcome State Fault Refusal :=
  .next (doHbmRefreshManagement c.val pc.val bank.val s)

/-- HBM_TEMPERATURE_READ (R227): Every 1 ms the stack temperature is read and the refresh, activation-cap or
hold step is entered or left. -/
def execHbmTemperatureRead (h : Fin 8) (t : Int) (s : State) : Host.Outcome State Fault Refusal :=
  .next (doHbmTemperatureRead h.val t s)

/-- HBM_BRINGUP_STEP (R230): A bring-up step of an HBM channel completes or fails, advancing it toward READY
or RETIRED. -/
def execHbmBringupStep (c : Fin 256) (ok : Bool) (lanes : Nat) (s : State) : Host.Outcome State Fault Refusal :=
  .next ((doHbmBringupStep c.val ok lanes s).settle)

/-- HBM_WIPE_DONE (R230): A wipe of HBM channels or allocations finishes. -/
def execHbmWipeDone (i : Nat) (s : State) : Host.Outcome State Fault Refusal :=
  .next ((doHbmWipeDone i s).settle)

/-- TGEN_RUN_COMPLETE (R233): A generator run finishes its lines and reports done and any failure. -/
def execTgenRunComplete (c : Fin 256) (s : State) : Host.Outcome State Fault Refusal :=
  .next (doTgenRunComplete c.val s)

end Sys2Proof.Machine
end

