-- ==== Sys2Proof/Machine/CmdHost.lean ====
section
/-! DEFINITION. The commands of PCIe, management, flash and JTAG (R396 to R423). -/

namespace Sys2Proof.Machine

/-- BAR4_READ (R405): A host BAR4 read returns current D or G data volatile, with EP for poison. -/
def execBar4Read (v : Fin 256) (off : Nat) (len : Nat) (s : State) : Host.Outcome State Fault Refusal :=
  .next (doBar4Read v.val off len s)

/-- BAR4_WRITE (R405): A host BAR4 write is posted to the point of coherence, invalidating all mezzanines.
-/
def execBar4Write (v : Fin 256) (off : Nat) (bytes : List Nat) (ep : Bool) (s : State) : Host.Outcome State Fault Refusal :=
  .next (doBar4Write v.val off bytes ep s)

/-- VF_FLR (R399): A VF function-level reset resets that virtual interface. -/
def execVfFlr (v : Fin 256) (s : State) : Host.Outcome State Fault Refusal :=
  .next ((doVfFlr v.val s).settle)

/-- PF_FLR (R399): A PF function-level reset resets VI0 and clears VF Enable. -/
def execPfFlr (s : State) : Host.Outcome State Fault Refusal :=
  .next ((doPfFlr s).settle)

/-- VF_ENABLE_CLEAR (R399): Clearing VF Enable resets every VF and leaves each disabled and unbound. -/
def execVfEnableClear (s : State) : Host.Outcome State Fault Refusal :=
  .next ((doVfEnableClear s).settle)

/-- ATS_INVALIDATE (R409): An Invalidate Request removes matching translations and completes after their
accesses. -/
def execAtsInvalidate (v : Fin 256) (pasid : Option Nat) (page : Nat) (pages : Nat) (s : State) : Host.Outcome State Fault Refusal :=
  .next (doAtsInvalidate v.val pasid page pages s)

/-- PCIE_LINK_DOWN (R397): The PCIe link leaving L0 without PERST_N sets LINK_DOWN while device work
continues. -/
def execPcieLinkDown (s : State) : Host.Outcome State Fault Refusal :=
  .next (doPcieLinkDown s)

/-- MSIX_UNMASK (R407): Clearing an MSI-X mask sends the pending message. -/
def execMsixUnmask (v : Fin 256) (entry : Option Nat) (s : State) : Host.Outcome State Fault Refusal :=
  .next (doMsixUnmask v.val entry s)

/-- SET_ENDPOINT_ID (R412): The bus owner assigns the MCTP endpoint ID. -/
def execSetEndpointId (eid : Nat) (s : State) : Host.Outcome State Fault Refusal :=
  .next (doSetEndpointId eid s)

/-- MCTP_CONTROL_MESSAGE (R413): An MCTP control or PLDM type 0 discovery message is answered. -/
def execMctpControlMessage (typ : Nat) (pldm : Nat) (s : State) : Host.Outcome State Fault Refusal :=
  .next (doMctpControlMessage typ pldm s)

/-- GET_SENSOR_READING (R415): A PLDM type 2 request returns a temperature, power or state sensor. -/
def execGetSensorReading (id : Nat) (s : State) : Host.Outcome State Fault Refusal :=
  .next (doGetSensorReading id s)

/-- FRU_DATA_READ (R413): A PLDM type 4 request returns FRU data. -/
def execFruDataRead (s : State) : Host.Outcome State Fault Refusal :=
  .next (doFruDataRead s)

/-- REQUEST_UPDATE (R416): Starts a PLDM firmware update, refused if one is already running. -/
def execRequestUpdate (s : State) : Host.Outcome State Fault Refusal :=
  .next (doRequestUpdate s)

/-- FIRMWARE_COMPONENT_VERIFY (R416): A downloaded component's signature and SVN are verified, rejecting it
on failure. -/
def execFirmwareComponentVerify (c : Payload) (s : State) : Host.Outcome State Fault Refusal :=
  .next (doFirmwareComponentVerify c s)

/-- FIRMWARE_COMPONENT_APPLY (R416): A verified component is written to its flash area. -/
def execFirmwareComponentApply (s : State) : Host.Outcome State Fault Refusal :=
  .next (doFirmwareComponentApply s)

/-- ACTIVATE_FIRMWARE (R416): Activation reports a cold reset needed for PMC, hall and compatibility
components. -/
def execActivateFirmware (s : State) : Host.Outcome State Fault Refusal :=
  .next (doActivateFirmware s)

/-- FLASH_OPERATION (R420): The PMC performs one flash operation at a time in priority order. -/
def execFlashOperation (ok : Bool) (s : State) : Host.Outcome State Fault Refusal :=
  .next ((doFlashOperation ok s).settle)

/-- IDCODE (R421): JTAG IDCODE selects the identification register. -/
def execIdcode (s : State) : Host.Outcome State Fault Refusal :=
  .next (doIdcode s)

/-- SAMPLE_PRELOAD (R421): JTAG SAMPLE/PRELOAD captures and preloads the boundary register. -/
def execSamplePreload (value : Nat) (s : State) : Host.Outcome State Fault Refusal :=
  .next (doSamplePreload value s)

/-- EXTEST (R421): JTAG EXTEST drives pins from the boundary register. -/
def execExtest (s : State) : Host.Outcome State Fault Refusal :=
  .next (doExtest s)

/-- CLAMP (R421): JTAG CLAMP holds pins with bypass selected. -/
def execClamp (s : State) : Host.Outcome State Fault Refusal :=
  .next (doClamp s)

/-- HIGHZ (R421): JTAG HIGHZ floats the outputs. -/
def execHighz (s : State) : Host.Outcome State Fault Refusal :=
  .next (doHighz s)

/-- IJTAG_SEL (R421): JTAG IJTAG_SEL places the IEEE 1687 network between TDI and TDO. -/
def execIjtagSel (s : State) : Host.Outcome State Fault Refusal :=
  .next (doIjtagSel s)

/-- BYPASS (R421): JTAG BYPASS, and every other code, selects the bypass register. -/
def execBypass (s : State) : Host.Outcome State Fault Refusal :=
  .next (doBypass s)

/-- VF_ENABLE_SET (R321): The host setting VF Enable moves each virtual function from disabled to unbound,
so its admin queue runs. -/
def execVfEnableSet (num : Nat) (s : State) : Host.Outcome State Fault Refusal :=
  .next (doVfEnableSet num s)

/-- PCIE_LINK_UP (R397): The PCIe link reaching L0 after training or after going down sets LINK_CHANGE, and
host-memory accesses succeed again. -/
def execPcieLinkUp (rate : Nat) (width : Nat) (flit : Bool) (s : State) : Host.Outcome State Fault Refusal :=
  .next (doPcieLinkUp rate width flit s)

end Sys2Proof.Machine
end

