-- ==== Sys2Proof/Machine/CmdIc.lean ====
section
/-! DEFINITION. The commands of interrupts (R344 to R361). -/

namespace Sys2Proof.Machine

/-- INTERRUPT_TAKE (R351): At a bundle boundary a controller takes the highest assigned source above its
running level, pushing its stack. -/
def execInterruptTake (t : Fin 9) (s : State) : Host.Outcome State Fault Refusal :=
  .next (doInterruptTake t.val s)

end Sys2Proof.Machine
end

