-- ==== Sys2Proof/Machine/Inj.lean ====
section
/-! DEFINITION. Arming of the injectors and their arming points (R464 to R470). What a due shot does at its
qualifying event stands beside that event. -/

namespace Sys2Proof.Machine

/-! ## Checking an injector (R465, R468) -/

/-- Whether a detector names a row of R468. -/
def injRow (det : Nat) : Bool := (1 ≤ det && det ≤ 0x19) || (0x20 ≤ det && det ≤ 0x24)

/-- Channel kinds that a row takes as its target. -/
def injKinds (det : Nat) : List Nat :=
  if det ≤ 0x03 then [0]
  else if det ≤ 0x05 then [1]
  else if det ≤ 0x07 then [7]
  else if det ≤ 0x09 then [2]
  else if det ≤ 0x0B then [3]
  else if det ≤ 0x0F then [4]
  else if det = 0x10 || det = 0x20 then [5]
  else if det ≤ 0x12 then [6]
  else if det = 0x13 then [8]
  else if det = 0x23 || det = 0x24 then [4, 6, 8]
  else []

/-- Whether a target fits its row, exists and is not retired. -/
def State.injTarget (s : State) (det t : Nat) : Bool :=
  match det with
  | 0x14 => t < 8
  | 0x15 => t < 8
  | 0x16 => t < 4096
  | 0x17 => t < 256
  | 0x18 => s.part.regions.any fun r => r.num == t
  | 0x19 => t == 0
  | 0x21 => t < 8
  | 0x22 => t < 8
  | _ => ((injKinds det).contains (chanKind t) && isChannel t && !s.retired t) ||
      ((det == 0x23 || det == 0x24) && t == 0xFFFF)

/-- The PARAM bits that a row defines. -/
def injParamMask (det : Nat) : Nat :=
  match det with
  | 0x01 => 0xFFFF
  | 0x03 => 0x3FF
  | 0x04 => 0x3FF
  | 0x08 => 0x7FFFFFF
  | 0x09 => 0x7FFFFFF
  | 0x0A => 0xFFFFFFF
  | 0x0C => 0x1FFFFF
  | 0x0D => 0x1FFFFF
  | 0x0E => 0xFFF
  | 0x14 => 0x3FFFFFF
  | 0x16 => 1
  | 0x18 => 0xFFFFFFFF
  | 0x20 => 1
  | 0x23 => 0xFF
  | 0x24 => 0xFF
  | _ => 0

def State.injChecks (s : State) (i : Nat) : Bool :=
  let det := s.fld F.INJ_CTRL_DETECTOR i
  injRow det && s.injTarget det (s.fld F.INJ_TARGET_TARGET i) &&
    !(s.fld F.INJ_CTRL_PERIODIC i == 1 && s.fld F.INJ_PERIOD_PERIOD i == 0) &&
    s.fld F.INJ_PARAM_PARAM i &&& injParamMask det == s.fld F.INJ_PARAM_PARAM i

/-! ## Arming points (R466) -/

/-- The key of the replica that times a target; a bridge lane takes the slice of its first hall, and what has no
island of its own the fabric of H0. -/
def State.injIsland (s : State) (det t : Nat) : Nat :=
  let i := chanIndex t
  if det = 0x14 || det = 0x15 then 8 + t
  else if det = 0x16 then 8 + (s.queue t).elim 0 (·.hall)
  else if det = 0x17 then 8
  else if det = 0x18 then
    match s.part.regions.find? fun r => r.num == t with
    | some r => match s.placeOf r.base with
      | some p => 16 + p.chan / 32
      | none => 8
    | none => 8
  else if det = 0x19 then 40
  else if det = 0x21 || det = 0x22 then 24 + t
  else if t = 0xFFFF then 24
  else match chanKind t with
    | 0 => 64 + i / 4
    | 1 => 64 + i
    | 2 => 16 + i / 64
    | 3 => 16 + i / 32
    | 4 => if i < 256 then 256 + i else 8 + (i - 256) / 2
    | 5 => if i < 1024 then 256 + i / 4 else 8 + (i - 1024) / 8
    | 6 => 8 + i / 8
    | 7 => (bridgeHalls (i / 24)).1
    | _ => 8 + i

/-- START. -/
def State.injStart (s : State) (i : Nat) : Nat :=
  s.fld F.INJ_START_LO_START_LO i + 2 ^ 32 * s.fld F.INJ_START_HI_START_HI i

/-- The first arming point after tread `t`. -/
def State.injNext (s : State) (i t : Nat) : Option Nat :=
  let p := s.fld F.INJ_PERIOD_PERIOD i
  if s.fld F.INJ_CTRL_PERIODIC i = 1 && p != 0 then
    let start := s.injStart i
    some (if t < start then start else start + ((t - start) / p + 1) * p)
  else none

/-- Corrupts a stored sector. -/
def State.upsetSector (s : State) (k : Nat) (errs : List (Nat × Nat)) (m : Mark) : State :=
  s.onHbm fun h => { h with upsets := tset .none h.upsets k { errs := errs, mark := m } }

/-- The sector that an HBM parameter names: LINE, POSITION and pseudo-channel `pc` of HBM channel `c`. -/
def hbmParamSector (p c pc : Nat) : Nat := sectorKey c (bits p 22 0) (2 * bits p 24 23 + pc)

/-- Rows whose shot takes effect at the arming point itself; a bridge carries flits all the time, so row 0x06 is
among them. -/
def atArming (det : Nat) (store : Bool) : Bool :=
  [0x03, 0x04, 0x06, 0x07, 0x0A, 0x0F, 0x18, 0x19].contains det || ((det == 0x08 || det == 0x09) && store)

/-- What such a shot does to target `t` with parameter `p`. -/
def State.armingEffect (s : State) (det t p : Nat) (store : Bool) (m : Mark) : State :=
  let i := chanIndex t
  match det with
  | 0x03 => s.holdLane i (bits p 9 0) m
  | 0x04 => s.onInj fun x => { x with portDiscard := tset 0 x.portDiscard i (s.time.tick + bits p 9 0 * 1000) }
  | 0x06 => s.bridgeFlitBad i m
  | 0x07 => s.bridgeLaneLost i (!store) m
  | 0x08 => s.upsetSector (hbmParamSector p (i / 2) (i % 2)) [(0, 0xFF)] m
  | 0x09 => s.upsetSector (hbmParamSector p (i / 2) (i % 2)) [(0, 0xFF), (1, 0xFF)] m
  | 0x0A => s.upsetSector (hbmParamSector p i (bit p 27)) [(tagSymbol, 2)] m
  | 0x0F => s.islandSilent i m
  | 0x18 =>
    match s.part.regions.find? fun r => r.num == t with
    | some r => match s.placeOf (r.base + p * 32) with
      | some q => s.upsetSector q.key [(0, 0xFF), (1, 0xFF)] m
      | none => s
    | none => s
  | 0x19 => s.onInj fun x => { x with timerStopped := true }
  | _ => s

/-- An arming point of injector `i`: a shot becomes due, in place of one that still is. -/
def State.armingPoint (s : State) (i : Nat) (next : Option Nat) : State :=
  let x := s.injector i
  let s1 := if x.due then s.addFld F.INJ_COUNT_MISSED 1 i else s
  let s2 := s1.setInjector i { due := true, next := next }
  let det := s.fld F.INJ_CTRL_DETECTOR i
  let store := s.shotStores i
  if atArming det store then
    let (s3, m) := s2.fireShot i
    s3.armingEffect det (s.fld F.INJ_TARGET_TARGET i) (s.fld F.INJ_PARAM_PARAM i) store m
  else s2

/-- R466: an arming point that the target's replica has reached. -/
def doInjArmingPoint (i : Nat) (s : State) : State :=
  let det := s.fld F.INJ_CTRL_DETECTOR i
  match (s.injector i).next with
  | some t =>
    if s.fld F.INJ_CTRL_STATE i = 1 && t ≤ s.now (s.injIsland det (s.fld F.INJ_TARGET_TARGET i)) then
      s.armingPoint i (s.injNext i t)
    else s
  | none => s

/-- Effects of a write to `INJ_CTRL` (R465, R466, R469). A START already passed arms the first shot at once; the
points of a period that it has passed are none. -/
def State.injCtrlWritten (s : State) (i : Nat) : State :=
  if s.fld F.INJ_CTRL_ARM i = 0 then (s.setFld F.INJ_CTRL_STATE 0 i).setInjector i .reset
  else if !s.injChecks i then
    ((s.setFld F.INJ_CTRL_STATE 0 i).setFld F.INJ_CTRL_REFUSED 1 i).setInjector i .reset
  else
    let missed := if (s.injector i).due then 1 else 0
    let s1 := (((s.setFld F.INJ_CTRL_STATE 1 i).setFld F.INJ_CTRL_REFUSED 0 i).setFld F.INJ_COUNT_FIRED 0 i).setFld
      F.INJ_COUNT_MISSED missed i
    let now := s.now (s.injIsland (s.fld F.INJ_CTRL_DETECTOR i) (s.fld F.INJ_TARGET_TARGET i))
    let start := s.injStart i
    if start ≤ now then (s1.setInjector i .reset).armingPoint i (s1.injNext i now)
    else s1.setInjector i { due := false, next := some start }

end Sys2Proof.Machine
end

