-- ==== Sys2Proof/Machine/CmdInj.lean ====
section
/-! DEFINITION. The commands of error injection (R464 to R470). -/

namespace Sys2Proof.Machine

/-- INJ_ARMING_POINT (R466): At each arming point a shot becomes due, dropping any still-due shot into
MISSED. -/
def execInjArmingPoint (i : Fin 16) (s : State) : Host.Outcome State Fault Refusal :=
  .next ((doInjArmingPoint i.val s).settle)

end Sys2Proof.Machine
end

