-- ==== Sys2Proof/Machine/Pwr.lean ====
section
/-! DEFINITION. Supplies, clocks, power limits, the throttle pin and the thermal steps (R500 to R511). -/

namespace Sys2Proof.Machine

/-! ## Clocks (R504, R510) -/

/-- Whether THROTTLE_N holds the clocks (R506). -/
def State.pinHolds (s : State) : Bool := !s.pwr.pins.throttleN && s.fld F.PWR_CTRL_THROTTLE_EN == 1

/-- The lowest of the applied clock and the caps of hall `h`, not below 1,000 MHz. -/
def State.targetMhz (s : State) (h : Nat) : Nat :=
  let x := s.hallPower h
  max 1000 (min (min (s.hallMhz h) s.pwr.boardCap) (min x.hallCap (min x.thermalCap (if s.pinHolds then 1000 else x.pinCap))))

/-- R504, R506: the PLL of hall `h` takes one step of 25 MHz towards its target. A released pin's cap rises as far. -/
def doClockGlideStep (h : Nat) (s : State) : State :=
  let x := s.hallPower h
  if x.powered then
    let cap := if s.pinHolds then 1000 else min (s.hallMhz h) (x.pinCap + 25)
    let s1 := s.setHallPower h { x with pinCap := cap }
    let t := s1.targetMhz h
    let run := if x.running < t then min t (x.running + 25) else max t (x.running - 25)
    s1.setHallPower h { s1.hallPower h with running := run }
  else s

/-! ## Supplies (R500 to R502, R511) -/

/-- R502: PWR_OK_IN falls. -/
def doPwrOkInFall (s : State) : State :=
  if s.pwr.pins.pwrOk then
    (s.onPwr fun p => { p with pins := { p.pins with pwrOk := false } }).coldReset 0
  else s

/-- Group B of R500. -/
def groupB (rail : Nat) : Bool := [8, 9, 10, 12, 13, 14].contains rail

/-- R501: a rail is not in regulation within its limit of boot step 6. -/
def doRailRegulationTimeout (rail : Nat) (s : State) : State :=
  if !(s.bootAt 6 || s.bootAt 7) then s
  else
    let s1 := s.setFld F.PWR_RAILS_GOOD (clearBit (s.fld F.PWR_RAILS_GOOD) rail)
    if rail < 8 then s1.loseHall rail
    else if groupB rail then s1.enterRecovery
    else s

/-- R511: a rail leaves regulation in service, or its regulator reports a fault. -/
def doRailFaultInService (rail : Nat) (s : State) : State :=
  if s.boot.step != 9 || 16 ≤ rail then s
  else
    let s1 := s.onPwr fun p => { p with latchedFaults := setBit p.latchedFaults rail }
    if rail < 8 then if (s.hallPower rail).powered then s1.coldReset 1 else s
    else if groupB rail || rail = 11 || rail = 15 then doPwrOkInFall s1
    else s

/-! ## Power limits (R505) -/

/-- A cap lowered by a step, not below 1,000 MHz. -/
def lowered (cap : Nat) : Nat := max (cap - 25) 1000

/-- How a cap moves for a power and its limit, under the highest applied clock. -/
def moveCap (cap power limit top : Nat) : Nat :=
  if limit < power then lowered cap else if 100 * power < 98 * limit then min top (cap + 25) else cap

/-- The limits in effect (R512, R514). -/
def State.boardLimit (s : State) : Nat := min (s.fld F.PWR_LIMIT_BOARD_W) s.order.watts
def State.hallLimit (s : State) : Nat := min (s.fld F.PWR_LIMIT_HALL_W) s.order.hallWatts

/-- Sets LIMIT for a cap that was lowered. -/
def State.limitEvent (s : State) (old new : Nat) : State := if new < old then s.raise F.PWR_EVENT_LIMIT 110 else s

/-- What the PMC reads on AVSBus (R503): watts of the sixteen rails, millivolts of the core rails, rails in regulation. -/
def State.readRails (s : State) (watts mv : List Nat) (good : Nat) : State :=
  let p := min 0xFFFF (watts.foldl (· + ·) 0 + s.fld F.PWR_BOARD_OFFSET_OFFSET_W)
  forEach (List.range 8) ((s.setFld F.PWR_STATUS_BOARD_W p).setFld F.PWR_RAILS_GOOD good) fun s h =>
    let x := s.hallPower h
    s.setHallPower h { x with mv := mv.getD h 0, watts := watts.getD h 0 }

/-- The floor of R505: 100 evaluations at 1,000 MHz over the limit. -/
def State.floorCheck (s : State) (past : Bool) : State :=
  let run := if past && s.pwr.boardCap = 1000 then min 100 (s.pwr.floorRun + 1) else 0
  let s1 := (s.onPwr fun p => { p with floorRun := run }).setFld F.PWR_STATUS_AT_FLOOR (if run = 100 then 1 else 0)
  if run = 100 && s.pwr.floorRun < 100 then s1.raise F.PWR_EVENT_FLOOR 110 else s1

/-- The board and hall caps move for what was read. -/
def State.moveCaps (s : State) : State :=
  let top := s.topMhz
  if s.fld F.PWR_CTRL_LIMIT_EN = 0 then
    forEach (List.range 8) (s.onPwr fun p => { p with boardCap := top, floorRun := 0 }) fun s h =>
      s.setHallPower h { s.hallPower h with hallCap := s.hallMhz h }
  else
    let p := s.fld F.PWR_STATUS_BOARD_W
    let b := moveCap s.pwr.boardCap p s.boardLimit top
    let s1 := ((s.onPwr fun x => { x with boardCap := b }).limitEvent s.pwr.boardCap b).floorCheck (s.boardLimit < p)
    forEach (List.range 8) s1 fun s h =>
      let x := s.hallPower h
      let c := moveCap x.hallCap x.watts s.hallLimit top
      if x.powered then (s.setHallPower h { x with hallCap := c }).limitEvent x.hallCap c else s

/-- R503, R505: the PMC's evaluation of every millisecond, which restarts its service timer (R476). -/
def doPowerLimitEvaluate (watts mv : List Nat) (good : Nat) (s : State) : State :=
  let pmc := (s.hc 8).core.state
  if s.boot.step < 8 || s.fld F.BOOT_STATUS_STATE = 5 || pmc = .faulted || pmc = .halted then s
  else
    (s.readRails watts mv good).moveCaps.onBoot fun b => { b with
      service := if b.step = 9 && !s.inj.timerStopped then some s.time.tick else b.service }

/-! ## THROTTLE_N (R506) -/

/-- R506: THROTTLE_N falls. -/
def doThrottleNFall (s : State) : State :=
  if s.pwr.pins.throttleN then
    ((s.onPwr fun p => { p with pins := { p.pins with throttleN := false } }).setFld F.PWR_STATUS_THROTTLE_PIN 1).raise
      F.PWR_EVENT_THROTTLE_PIN 110
  else s

/-- R506: THROTTLE_N rises. -/
def doThrottleNRise (s : State) : State :=
  (s.onPwr fun p => { p with pins := { p.pins with throttleN := true } }).setFld F.PWR_STATUS_THROTTLE_PIN 0

/-! ## Thermal (R507 to R509) -/

/-- The step of R508 at a temperature, from the step in effect: each is left 3 °C below its entry. -/
def nextThermalStep (old : Nat) (t : Int) : Nat :=
  let enter := if 110 ≤ t then 3 else if 100 ≤ t then 2 else if 95 ≤ t then 1 else 0
  let stay := if old = 3 && 107 < t then 3 else if 2 ≤ old && 97 < t then 2 else if 1 ≤ old && 92 < t then 1 else 0
  max enter stay

/-- The thermal cap after a sample: at step 0 it rises by 100 MHz per 10 ms, at step 2 it falls by 100 MHz per ms. -/
def HallPower.thermal (x : HallPower) (step applied tick : Nat) : HallPower :=
  let since := if step = x.step then tick - x.moved else 0
  let y := { x with step := step, moved := if step = x.step then x.moved else tick }
  match step with
  | 0 => if 10000000 ≤ since then { y with thermalCap := min applied (x.thermalCap + 100), moved := tick } else y
  | 1 => y
  | 2 => if 1000000 ≤ since then { y with thermalCap := max 1000 (x.thermalCap - 100), moved := tick } else y
  | _ => { y with thermalCap := 1000 }

/-- R507, R508: the sensors of hall `h` are sampled; `t` is the highest reading. -/
def doThermalSample (h : Nat) (t : Int) (s : State) : State :=
  let x := s.hallPower h
  if !x.powered then s
  else
    let step := nextThermalStep x.step t
    let s1 := s.setHallPower h { x.thermal step (s.hallMhz h) s.time.tick with temp := t }
    let s2 := if x.step < step then s1.raise F.PWR_EVENT_WARN 110 else s1
    if x.step < 3 && step = 3 then s2.raise F.PWR_EVENT_CRIT 110 else s2

/-- R509: a hall at 115 °C or a stack at 110 °C trips; the cold reset holds until PWR_OK_IN falls and rises. -/
def doThermalTrip (s : State) : State :=
  let hot := (s.pwr.halls.any fun p => decide (115 ≤ p.2.temp)) || s.pwr.stackTemp.any fun p => decide (110 ≤ p.2)
  if hot then (s.onPwr fun p => { p with tripped := true }).coldReset 0 else s

end Sys2Proof.Machine
end

