-- ==== Sys2Proof/Machine/RegView.lean ====
section
/-! DEFINITION. What registers read: the stored fields, and those that show the state of a block (R7, R19, R50, R83,
R140, R177, R206, R234, R258, R282, R316, R343, R361, R395, R397, R412, R445, R463, R492, R514, R523). -/

namespace Sys2Proof.Machine

def flag (b : Bool) : Nat := if b then 1 else 0

/-- The bits i for which `f` holds, of `n`. -/
def maskOf (n : Nat) (f : Nat → Bool) : Nat := (List.range n).foldl (fun m i => if f i then m + 2 ^ i else m) 0

/-- The Device ID of the order code (R397). -/
def State.pciDevice (s : State) : Nat :=
  match s.order with
  | .l => 0x5A10
  | .e => 0x5A11

def State.timeView (s : State) (r : Reg) (i : Nat) : List (Fld × Nat) :=
  let st := s.timeState
  match r with
  | .TIME_STATUS =>
    [(F.TIME_STATUS_STATE, st.code), (F.TIME_STATUS_IS_ROOT, flag s.isRoot),
     (F.TIME_STATUS_REF_PRESENT, flag s.time.refPresent), (F.TIME_STATUS_PPS_PRESENT, flag s.time.ppsSeen.isSome),
     (F.TIME_STATUS_UPSTREAM_VALID, flag s.time.upstream.isSome), (F.TIME_STATUS_UPSTREAM_PORT, s.time.upstream.getD 0)]
  | .TIME_OFFSET => [(F.TIME_OFFSET_FILT, if s.isRoot then 0 else ofInt 32 (s.replica s.master).filt)]
  | .TIME_ROOT =>
    match s.time.root with
    | some x =>
      if st = .free then []
      else [(F.TIME_ROOT_ROOT_PRIORITY, x.priority), (F.TIME_ROOT_ROOT_CONFIGURED, flag x.configured),
            (F.TIME_ROOT_HOPS, min 31 s.time.hops), (F.TIME_ROOT_ROOT_ID, x.id)]
    | none => []
  | .TIME_PORT_DELAY =>
    let x := tget .empty s.time.exchanges i
    [(F.TIME_PORT_DELAY_VALID, flag (8 ≤ x.done)),
     (F.TIME_PORT_DELAY_DELAY, if x.last.isEmpty then 0 else (medianDelay x.last).toNat)]
  | _ => []

def State.alcoveView (s : State) (r : Reg) (n : Nat) : List (Fld × Nat) :=
  let x := s.alcove n
  let c := (s.hc n).core
  match r with
  | .ALC_STATUS =>
    [(F.ALC_STATUS_STATE, x.core.state.code), (F.ALC_STATUS_SHIFT_BUSY, maskOf 4 fun u => (x.unit u).shifting),
     (F.ALC_STATUS_ISTORE_HELD, flag (!x.held.isEmpty)), (F.ALC_STATUS_PC, x.core.pc)]
  | .ALC_ID => [(F.ALC_ID_SPARE_IN_USE, flag x.spare), (F.ALC_ID_HALF, n / 16 % 2), (F.ALC_ID_NUMBER, n)]
  | .ALC_HC_STATUS =>
    [(F.ALC_HC_STATUS_STATE, c.state.code), (F.ALC_HC_STATUS_BANK, c.bank), (F.ALC_HC_STATUS_PC, c.pc)]
  | _ => []

/-- A plane and its format when valid (R140). -/
def Plane.shown (p : Plane) : Nat × Nat := (p.state.code, if p.state = .valid then p.fmt else 0)

def State.unitView (s : State) (r : Reg) (n : Nat) : List (Fld × Nat) :=
  let x := s.alcove n
  let q := fun (u : Nat) => (x.unit u).queue.length
  let active := fun (u : Nat) => (x.unit u).active.shown.1
  let format := fun (u : Nat) => (x.unit u).active.shown.2
  let shadow := fun (u : Nat) => if (x.unit u).shifting then 3 else (x.unit u).shadow.state.code
  match r with
  | .XU_STATUS =>
    [(F.XU_STATUS_MODE, x.mode.code), (F.XU_STATUS_PASS_BUSY, maskOf 4 fun u => !(x.unit u).pipe.isEmpty),
     (F.XU_STATUS_SHIFT_BUSY, maskOf 4 fun u => (x.unit u).shifting), (F.XU_STATUS_QDEPTH3, q 3),
     (F.XU_STATUS_QDEPTH2, q 2), (F.XU_STATUS_QDEPTH1, q 1), (F.XU_STATUS_QDEPTH0, q 0)]
  | .XU_PLANES =>
    [(F.XU_PLANES_X3_ACTIVE, active 3), (F.XU_PLANES_X3_SHADOW, shadow 3), (F.XU_PLANES_X3_FORMAT, format 3),
     (F.XU_PLANES_X2_ACTIVE, active 2), (F.XU_PLANES_X2_SHADOW, shadow 2), (F.XU_PLANES_X2_FORMAT, format 2),
     (F.XU_PLANES_X1_ACTIVE, active 1), (F.XU_PLANES_X1_SHADOW, shadow 1), (F.XU_PLANES_X1_FORMAT, format 1),
     (F.XU_PLANES_X0_ACTIVE, active 0), (F.XU_PLANES_X0_SHADOW, shadow 0), (F.XU_PLANES_X0_FORMAT, format 0)]
  | _ => []

def State.walkerView (s : State) (r : Reg) (n i : Nat) : List (Fld × Nat) :=
  let w := (s.alcove n).walker
  let d := TileDesc.ofBytes w.desc
  match r with
  | .TW_STATUS =>
    if w.loaded then
      [(F.TW_STATUS_LOADED, 1), (F.TW_STATUS_EXHAUSTED, flag (w.share ≤ w.next)), (F.TW_STATUS_ORDER, d.order),
       (F.TW_STATUS_SPLIT, flag d.split), (F.TW_STATUS_QUEUED, w.queued)]
    else []
  | .TW_NEXT => [(F.TW_NEXT_NEXT, w.next)]
  | .TW_DONE => [(F.TW_DONE_DONE, w.done)]
  | .TW_SHARE => [(F.TW_SHARE_SHARE, w.share)]
  | .TW_DESC => [(F.TW_DESC_WORD, field w.desc (4 * i) 4)]
  | _ => []

/-- `CE_STATUS`.STATE: an engine retries while a message of its copy is being sent again. -/
def State.engineState (s : State) (e : Nat) : Nat :=
  let x := s.engine e
  if x.retired then 3
  else
    match x.running with
    | some j => if s.mem.unanswered.any fun u => u.copy == some j.id && u.firstResend.isSome then 2 else 1
    | none => 0

def State.memoryView (s : State) (r : Reg) (w : Nat) : List (Fld × Nat) :=
  let m := tget .empty s.hbm.maps w
  let ch := s.channel w
  match r with
  | .CE_STATUS => [(F.CE_STATUS_STATE, s.engineState w), (F.CE_STATUS_QDEPTH, (s.engine w).queue.length)]
  | .MEZ_CTRL => [(F.MEZ_CTRL_SPLIT, flag (s.splitHall w))]
  | .MEZ_STATUS => [(F.MEZ_STATUS_INVAL_BUSY, flag (s.mem.invals.any fun v => v.halls.contains w))]
  | .HBM_CHAN_STATUS =>
    [(F.HBM_CHAN_STATUS_STATE, ch.state.code), (F.HBM_CHAN_STATUS_PC1_RETIRED, flag ch.pc1Retired),
     (F.HBM_CHAN_STATUS_PC0_RETIRED, flag ch.pc0Retired),
     (F.HBM_CHAN_STATUS_EXCLUDED, flag (ch.excluded ||
       (s.boot.step == 9 && !s.hbm.maps.any fun p => p.2.chans.contains w))),
     (F.HBM_CHAN_STATUS_LANES_REPAIRED, ch.lanesRepaired)]
  | .HBM_PART_MAP =>
    [(F.HBM_PART_MAP_LOCAL_APPLIED, m.localN), (F.HBM_PART_MAP_CHANNELS, m.chans.length),
     (F.HBM_PART_MAP_CAPACITY, m.chans.length * 16)]
  | .HBM_PART_BASE => [(F.HBM_PART_BASE_BASE_HH, m.baseHH)]
  | .NAR_STATUS => [(F.NAR_STATUS_BUSY, flag (s.gather? w).isSome)]
  | _ => []

/-- `ANN_STATUS`.STATE. -/
def State.annState (s : State) (h : Nat) : Nat :=
  if s.retired (channelId 8 h) then 4
  else
    match s.annRun h with
    | none => 0
    | some x =>
      match x.stage with
      | .ready | .initial | .load | .clamp | .eval => 1
      | .sweep | .exchange => 2
      | .point | .sending | .arrived | .released | .ended => 3

def State.syncView (s : State) (r : Reg) (h : Nat) : List (Fld × Nat) :=
  let mine := (s.sync.landings.filter fun p => p.1 / 4096 == h).map (·.2)
  match r with
  | .SYNC_ENTRIES =>
    [(F.SYNC_ENTRIES_RESERVED_E, (mine.map s.reserved).sum), (F.SYNC_ENTRIES_USED, (mine.map (·.arrivals.length)).sum)]
  | .ANN_STATUS =>
    (F.ANN_STATUS_STATE, s.annState h) :: match s.annRun h with
      | some x => [(F.ANN_STATUS_REPLICAS, x.d.replicas), (F.ANN_STATUS_BLOCK, x.block)]
      | none => []
  | .ANN_SWEEPS => [(F.ANN_SWEEPS_COUNT, min (2 ^ 32 - 1) (((s.annRun h).map (·.done)).getD 0))]
  | _ => []

def State.vestibuleView (s : State) (r : Reg) (w i : Nat) : List (Fld × Nat) :=
  let p := tget .reset s.vst.pools w
  match r with
  | .VST_ADMIN_STATUS =>
    let a := s.adminQ w
    [(F.VST_ADMIN_STATUS_STATE, if s.fld F.VST_ADMIN_CTRL_ENABLE w = 0 then 0 else if a.stopped then 2 else 1),
     (F.VST_ADMIN_STATUS_RESTRICTED, flag s.boot.restricted), (F.VST_ADMIN_STATUS_UNVALIDATED, flag s.boot.override),
     (F.VST_ADMIN_STATUS_HEAD, a.consumed)]
  | .VST_Q_STATUS =>
    match s.ringQueue w i with
    | some q =>
      match s.queue q with
      | some x =>
        [(F.VST_Q_STATUS_STATE, x.state.code), (F.VST_Q_STATUS_PRIORITY, x.prio),
         (F.VST_Q_STATUS_PAUSED, flag (x.buffer.any fun b => b.ops.any fun o => o.state == .paused)),
         (F.VST_Q_STATUS_RING_FULL, flag (!x.waiting.isEmpty)), (F.VST_Q_STATUS_QUEUE, q)]
      | none => []
    | none => []
  | .POOL_CFG =>
    if p.valid then [(F.POOL_CFG_VALID, 1), (F.POOL_CFG_BLOCK_LOG2, p.blockLog2), (F.POOL_CFG_COUNT, p.count)] else []
  | .POOL_FREE => [(F.POOL_FREE_FREE, p.free)]
  | _ => []

def State.partView (s : State) (r : Reg) (w : Nat) : List (Fld × Nat) :=
  let quarantined := fun (n : Nat) => s.part.regions.any fun x => x.num == n && x.quarantined
  match r with
  | .PART_STATUS =>
    [(F.PART_STATUS_HALF_MASK, maskOf 16 fun j => (s.halfHalls w).contains j), (F.PART_STATUS_EXISTS, flag (s.partExists w)),
     (F.PART_STATUS_ALCOVES, (s.partAlcoves w 0).length)]
  | .PART_CLOCK => [(F.PART_CLOCK_MHZ, if s.partExists w then s.partMhz w else 0)]
  | .PART_PROFILE => [(F.PART_PROFILE_STRAP, s.pwr.profile)]
  | .PART_QUAR_LO => [(F.PART_QUAR_LO_QUAR, maskOf 32 quarantined)]
  | .PART_QUAR_HI => [(F.PART_QUAR_HI_QUAR, maskOf 32 fun n => quarantined (n + 32))]
  | .VI_CFG =>
    match s.viPart w with
    | some p => [(F.VI_CFG_BOUND, 1), (F.VI_CFG_PARTITION, p)]
    | none => []
  | .VI_USED => [(F.VI_USED_D_PAGES, s.usedBytes w .d / 4096)]
  | .VI_STATUS => [(F.VI_STATUS_STATE, s.viState w), (F.VI_STATUS_QUEUES, (s.queuesOf w).length)]
  | _ => []

def SrcState.code : SrcState → Nat
  | .inactive => 0 | .pending => 1 | .active => 2 | .activePending => 3

/-- The source that `IC_TGT_CLAIM` names: the one most recently taken at a controller, the one of highest level at the
host. -/
def State.claimed (s : State) (t : Nat) : Option Nat :=
  if t = 9 then (((s.activeAt 9).map fun src => s.srcLevel src * 1024 + (1023 - src)).max?).map fun k => 1023 - k % 1024
  else (tget [] s.ic.taken t).head?

def State.icView (s : State) (r : Reg) (w : Nat) : List (Fld × Nat) :=
  match r with
  | .IC_SRC_STATE =>
    let x := s.icSource w
    (F.IC_SRC_STATE_STATE, x.state.code) :: match x.target with
      | some t => [(F.IC_SRC_STATE_ASSIGNED, 1), (F.IC_SRC_STATE_TARGET, t)]
      | none => []
  | .IC_TGT_STATUS =>
    [(F.IC_TGT_STATUS_DEPTH, if w = 9 then 0 else (tget [] s.ic.frames w).length),
     (F.IC_TGT_STATUS_RUNNING, (s.runningLevel w).getD 0x3F), (F.IC_TGT_STATUS_ACTIVE, (s.activeAt w).length)]
  | .IC_TGT_CLAIM =>
    match s.claimed w with
    | some src =>
      [(F.IC_TGT_CLAIM_VALID, 1), (F.IC_TGT_CLAIM_LEVEL, s.srcLevel src), (F.IC_TGT_CLAIM_SOURCE, src)]
    | none => []
  | .IC_VI_NOTICE => [(F.IC_VI_NOTICE_STATE, (s.noticeState w).code)]
  | _ => []

def State.linkView (s : State) (r : Reg) (p : Nat) : List (Fld × Nat) :=
  let x := s.port p
  match r with
  | .CLZ_PORT_STATUS =>
    [(F.CLZ_PORT_STATUS_STATE, x.state.code), (F.CLZ_PORT_STATUS_LANES, x.agreed),
     (F.CLZ_PORT_STATUS_WIDTH, widthCode x.agreed), (F.CLZ_PORT_STATUS_ROLE, x.role),
     (F.CLZ_PORT_STATUS_PEER_CAPS, ((x.peer.map (·.caps)).getD 0) % 8), (F.CLZ_PORT_STATUS_UNACKED, x.unacked.length)]
  | .CLZ_PORT_PEER =>
    match x.peer with
    | some y => [(F.CLZ_PORT_PEER_VALID, 1), (F.CLZ_PORT_PEER_PEER_PORT, y.port), (F.CLZ_PORT_PEER_PEER_DEV, y.device)]
    | none => []
  | _ => []

def State.hostView (s : State) (r : Reg) : List (Fld × Nat) :=
  let d := s.boot.directory
  match r with
  | .GLB_ID =>
    [(F.GLB_ID_ORDER, match s.order with
      | .l => 0
      | .e => 1), (F.GLB_ID_DEVICE, s.pciDevice)]
  | .PCI_ID => [(F.PCI_ID_DEVICE, s.pciDevice), (F.PCI_ID_VENDOR, 0x1F3B)]
  | .MGT_STATUS => [(F.MGT_STATUS_SMBUS_ADDR, 0x60 + s.pwr.mgtAddr)]
  | .MGT_FLASH =>
    [(F.MGT_FLASH_PMC_BANK, d.pmcActive), (F.MGT_FLASH_PMC_PENDING, flag d.pmcPending.isSome),
     (F.MGT_FLASH_HALL_BANK, d.hallActive), (F.MGT_FLASH_HALL_PENDING, flag d.hallPending.isSome),
     (F.MGT_FLASH_BUSY, flag (!s.host.flashQueue.isEmpty))]
  | _ => []

def State.rasView (s : State) (r : Reg) (i : Nat) : List (Fld × Nat) :=
  match r with
  | .RAS_LAST_ID => [(F.RAS_LAST_ID_ID, s.ras.lastId)]
  | .RAS_BUCKET => [(F.RAS_BUCKET_AT_LIMIT, flag (s.limit (chanKind i) ≤ s.fld F.RAS_BUCKET_LEVEL 0 i))]
  | _ => []

def State.sdcView (s : State) (r : Reg) (w : Nat) : List (Fld × Nat) :=
  let x := s.shadowOf w
  let scan := s.scanOf w
  match r with
  | .SDC_SH_STATUS =>
    let st := match x.state with
      | .disabled => 4
      | .idle => if scan.any (·.target == 0xFFFF) then 3 else 0
      | .shadowing => 1
      | .selfTest => 2
    [(F.SDC_SH_STATUS_STATE, st), (F.SDC_SH_STATUS_VALID, flag (x.state == .shadowing)),
     (F.SDC_SH_STATUS_ALCOVE, if x.state = .shadowing then x.alcove else 0)]
  | .SDC_SCAN_STATUS =>
    match scan with
    | some y =>
      [(F.SDC_SCAN_STATUS_STATE, if y.retest.isSome then 2 else 1), (F.SDC_SCAN_STATUS_TARGET, y.target)]
    | none => []
  | .SDC_PACK_ID => [(F.SDC_PACK_ID_PACK_ID, ((s.pack w).map (·.set.packId)).getD 0)]
  | .SDC_PACK_SEQ => [(F.SDC_PACK_SEQ_SEQUENCE, ((s.pack w).map (·.set.sequence)).getD 0)]
  | .SDC_PACK_STATE =>
    match s.pack w with
    | some p =>
      [(F.SDC_PACK_STATE_STATE, s.packState w), (F.SDC_PACK_STATE_PKIND, flag p.set.focus),
       (F.SDC_PACK_STATE_TARGET, p.set.target), (F.SDC_PACK_STATE_HOURS, min (2 ^ 24 - 1) (p.ms / 3600000))]
    | none => []
  | _ => []

def State.bootView (s : State) (r : Reg) : List (Fld × Nat) :=
  let x := s.boot.recordNow.1
  match r with
  | .LC_STATUS =>
    [(F.LC_STATUS_STATE, x.state), (F.LC_STATUS_ARMED, flag s.boot.lcArm.isSome),
     (F.LC_STATUS_ARMED_TARGET, (s.boot.lcArm.map (·.target)).getD 0),
     (F.LC_STATUS_TRANSITIONS, min (2 ^ 25 - 1) x.transitions)]
  | .LC_ID => [(F.LC_ID_DEVICE, s.deviceId)]
  | .LC_FLOOR => [(F.LC_FLOOR_PMC_FLOOR, x.pmcFloor), (F.LC_FLOOR_HALL_FLOOR, x.hallFloor)]
  | .LC_SERIAL_LO => [(F.LC_SERIAL_LO_SERIAL, bits s.boot.serial.toNat 31 0)]
  | .LC_SERIAL_HI => [(F.LC_SERIAL_HI_SERIAL, bits s.boot.serial.toNat 63 32)]
  | _ => []

/-- The cap that holds a hall's clock: the board's, the hall's, or neither. -/
def State.lowestCap (s : State) (h : Nat) (cap : Nat) : Bool :=
  let x := s.hallPower h
  x.powered && cap < s.hallMhz h && cap == s.targetMhz h

def State.powerView (s : State) (r : Reg) (h : Nat) : List (Fld × Nat) :=
  let x := s.hallPower h
  match r with
  | .PWR_HALL_STATUS =>
    [(F.PWR_HALL_STATUS_TEMP, ofInt 8 x.temp), (F.PWR_HALL_STATUS_STEP, x.step),
     (F.PWR_HALL_STATUS_BOARD_LIMITED, flag (s.lowestCap h s.pwr.boardCap)),
     (F.PWR_HALL_STATUS_HALL_LIMITED, flag (s.lowestCap h x.hallCap)),
     (F.PWR_HALL_STATUS_PIN_LIMITED, flag (x.powered && s.pinHolds)), (F.PWR_HALL_STATUS_MHZ, x.running)]
  | .PWR_HALL_POWER => [(F.PWR_HALL_POWER_MV, x.mv), (F.PWR_HALL_POWER_WATTS, x.watts)]
  | _ => []

/-- The fields of a register that show the state of a block. -/
def State.shown (s : State) (r : Reg) (w i : Nat) : List (Fld × Nat) :=
  s.timeView r i ++ s.alcoveView r w ++ s.unitView r w ++ s.walkerView r w i ++ s.memoryView r w ++ s.syncView r w ++
    s.vestibuleView r w i ++ s.partView r w ++ s.icView r w ++ s.linkView r w ++ s.hostView r ++ s.rasView r i ++
    s.sdcView r w ++ s.bootView r ++ s.powerView r i

/-- The value of a register, `TIME_NOW_LO` and `TIME_NOW_HI` apart. -/
def State.regValue (s : State) (r : Reg) (w i : Nat) : Nat :=
  (s.shown r w i).foldl (fun v p => p.1.put v p.2) (s.reg r w i)

end Sys2Proof.Machine
end

