-- ==== Sys2Proof/Machine/RegAccess.lean ====
section
/-! DEFINITION. The register fabric (R7 to R11, R401, R411, R414, R422, R515 to R523): views, access rights, denied
accesses, writes with their effects, and reads. -/

namespace Sys2Proof.Machine

/-! ## Where an access leads (R515 to R518, R522, R524) -/

/-- The register at a package register address, if the register exists (R524). -/
def registerAt (a : Nat) : Option (Reg × Nat × Nat) :=
  match regAt a with
  | some (.RAS_BUCKET, w, i) => if isChannel i then some (.RAS_BUCKET, w, i) else none
  | x => x

/-- The package register address of an offset of virtual function `v`'s view, and whether the view shows it
read-only (R343, R518). -/
def viewAddr (v off : Nat) : Option (Nat × Bool) :=
  if off < 0x100 then some (0x80000 + 0x100 * v + off, false)
  else if 0x1000 ≤ off && off < 0x1020 then some (0x10000 + 0x20 * v + (off - 0x1000), off < 0x100C)
  else if off = 0x2004 || off = 0x2008 || off = 0x200C || off = 0x2024 then some (off - 0x1000, true)
  else if 0x3000 ≤ off && off < 0x3010 then some (0x17000 + 0x10 * v + (off - 0x3000), false)
  else if off = 0x4000 then some (0x9000, true)
  else if off = 0x4004 then some (0x9100 + 4 * v, true)
  else if off = 0x4008 then some (0x9500 + 4 * v, false)
  else none

/-- The hall whose unit a register window belongs to. -/
def windowHall (r : Reg) (w : Nat) : Option Nat :=
  let b := r.row.base
  if 0x2000 ≤ b && b < 0x3000 then some (w / 8)
  else if 0x3000 ≤ b && b < 0x7000 then some w
  else if 0x18000 ≤ b && b < 0x1C000 then some (w / 32)
  else if 0x1C000 ≤ b && b < 0x1D000 then some w
  else if 0x20000 ≤ b && b < 0x21000 then some w
  else if 0x24000 ≤ b && b < 0x70000 then some (w / 32)
  else if 0x70000 ≤ b && b < 0x80000 then some w
  else if 0xA0000 ≤ b && b < 0xB0000 then some (w / 8)
  else none

/-- Whether a register is shown in RECOVERY: the MGT, BOOT and LC blocks (R480). -/
def recoveryShows (r : Reg) : Bool :=
  let b := r.row.base
  (0xA000 ≤ b && b < 0xB000) || (0xC000 ≤ b && b < 0xE000)

/-- Whether a register reads zero and ignores writes (R480, R522). -/
def State.dark (s : State) (r : Reg) (w : Nat) : Bool :=
  (s.fld F.BOOT_STATUS_STATE == 5 && !recoveryShows r) || (windowHall r w).any s.boot.unpowered.contains

/-! ## Rights (R49, R83, R140, R232, R282, R404, R423, R445, R463, R464, R492, R514, R520 to R523) -/

/-- Whether an agent is VI0 or management. -/
def Agent.chief (a : Agent) : Bool := a == .host 0 || a.isManagement

/-- Registers that only VI0 and management write. -/
def chiefOnly (r : Reg) : Bool :=
  let b := r.row.base
  (0x1000 ≤ b && b < 0x2000) || (0xB000 ≤ b && b < 0xC000) || (0x20000 ≤ b && b < 0x22000) ||
    [.HBM_CHAN_CTRL, .ANN_CTRL, .RAS_RETIRE, .RAS_THRESH_A, .RAS_THRESH_B, .RAS_THRESH_C, .RAS_BUCKET, .BOOT_CTRL,
     .BOOT_OVERRIDE, .LC_CMD, .LC_NEXT_ID, .PWR_CTRL, .PWR_LIMIT, .PWR_BOARD_OFFSET].contains r

/-- Whether agent `a` may write instance `i` of a register that its view shows. -/
def Agent.mayWrite (a : Agent) (r : Reg) (i : Nat) : Bool :=
  match r with
  | .PCI_BAR4_BASE => a == .host 0
  | .PCI_PASID =>
    match a with
    | .host v => v.val == 0 || v.val == i
    | _ => false
  | _ => a.chief || !chiefOnly r

/-- Whether agent `a` may write a field of a register that it may write (R521). -/
def Agent.mayField (a : Agent) (f : Fld) : Bool :=
  if f == F.ALC_CTRL_ISTORE_FORCE || f == F.XU_CHK_CTRL_FORCE then a.chief
  else if f == F.ALC_HC_CTRL_RESTART then a == .pmc || a.isManagement
  else true

/-- AGENT and HALL of `GLB_DENY_LOG`. -/
def Agent.denyCode : Agent → Nat × Nat
  | .hc h => (0, h.val)
  | .pmc => (1, 0)
  | .mgt => (2, 0)
  | .bridge => (3, 0)
  | .host _ => (0, 0)

/-- A denied access (R520). -/
def State.deny (s : State) (a : Agent) (addr : Nat) (write : Bool) : State :=
  match a with
  | .host v => s.barErr 0 0 v.val
  | _ =>
    (s.logFirst F.GLB_DENY_LOG_VALID F.GLB_DENY_LOG_OVERRUN 0 0
      [(F.GLB_DENY_LOG_AGENT, a.denyCode.1), (F.GLB_DENY_LOG_HALL, a.denyCode.2), (F.GLB_DENY_LOG_WRITE, flag write),
       (F.GLB_DENY_LOG_WORD, addr / 4)]).addFld F.GLB_DENY_COUNT_COUNT 1

/-! ## Fields at a write (R7 to R10) -/

/-- Counters that wrap. -/
def wraps (r : Reg) : Bool :=
  [.ALC_BUNDLE_COUNT, .ALC_STALL_COUNT, .XU_PASS_COUNT, .XU_BUSY_CYCLES, .CE_PACKETS, .MEZ_HITS, .MEZ_MISSES,
   .MEZ_INVAL_LINES, .NAR_REQS, .ANN_UPDATES, .ANN_FLIPS, .ANN_EXCH, .SDC_SH_TILES, .SDC_SCAN_PASS].contains r

/-- A hardware update of a field that holds `x`. -/
def HwUpdate.apply (u : HwUpdate) (f : Fld) (x : Nat) : Nat :=
  match u with
  | .store v => v % (f.max + 1)
  | .setBits v => x ||| (v % (f.max + 1))
  | .add n => if wraps f.reg then (x + n) % (f.max + 1) else min f.max (x + n)

/-- The hardware update that falls on a field in the cycle of an access. -/
def Fld.updated (f : Fld) (same : Option SameUpdate) : Option HwUpdate :=
  match same with
  | some u => if u.hi = f.hi && u.lo = f.lo then some u.upd else none
  | none => none

/-- What a software write of `v` makes of a field that holds `x` (R7). The map has no field that locks. -/
def Fld.written (f : Fld) (x v : Nat) : Nat :=
  match f.acc with
  | .rw | .rws | .rwl => v
  | .w1c => x - (x &&& v)
  | .w1s => x ||| v
  | .ro | .wo | .rc => x

/-- A field after a write and the hardware update of the same cycle (R10). -/
def Fld.afterWrite (f : Fld) (x v : Nat) (same : Option SameUpdate) : Nat :=
  match f.updated same with
  | none => f.written x v
  | some u =>
    match f.same with
    | .sw => f.written x v
    | .hw => u.apply f x
    | .set | .add => u.apply f (f.written x v)
    | .none => f.written x v

/-- The interrupt source that a hardware set in a register fires (R344), by window and instance. -/
def setSource (r : Reg) (f : Fld) (w : Nat) : Option Nat :=
  match r with
  | .ALC_FAULT => some (source (w / 32) (w % 32))
  | .XU_CHK_STATUS => some (source (w / 32) (32 + w % 32))
  | .CE_ERROR => some (source (w / 8) (64 + w % 8))
  | .ANN_ERROR => some (source w 72)
  | .ALC_HC_FAULT => some (source w 73)
  | .SYNC_EVENT => some (source w 74)
  | .HBM_ERR_LOG => some (source (w / 32) (76 + w % 32 / 4))
  | .CLZ_EVENT => some (source (w / 8) (84 + w % 8))
  | .SDC_EVENT => some (source w 95)
  | .RAS_EVENT => some 96
  | .VST_EVENT => some 98
  | .POOL_LOG => some 99
  | .TIME_EVENT => some (100 + f.lo)
  | .IC_EVENT => some icOwnSource
  | .PCI_EVENT => some 107
  | .MGT_EVENT => some 108
  | .BOOT_EVENT => some 109
  | .PWR_EVENT => some 110
  | _ => none

/-- What a same-cycle hardware set brings about beside the bit (R344, R358). -/
def State.sameFires (s : State) (r : Reg) (w : Nat) (same : Option SameUpdate) : State :=
  match r.fields.find? fun f => f.same == .set && (f.updated same).isSome with
  | some f =>
    if r == .VI_EVENT || r == .IC_VI_SYNC then s.fireNotice w
    else if r == .XU_CHK_STATUS && s.fld F.XU_CHK_CTRL_IRQ_EN w = 0 then s
    else
      match setSource r f w with
      | some src => s.fire src
      | none => s
  | none => s

/-! ## Effects of writes -/

/-- HALT, RESUME and STEP of a core (R81, R83). -/
def Core.commanded (c : Core) (halt resume step : Bool) : Core :=
  let c1 := if halt && (c.state == .running || c.state == .waiting) then { c with haltReq := true } else c
  if (resume || step) && c1.state == .halted then
    { c1 with state := if c1.wait.isSome then .waiting else .running, haltReq := false, stepOne := step && !resume,
              passBreak := true }
  else c1

/-- A write of `ALC_CTRL`. -/
def State.alcCtrlWritten (s : State) (n v : Nat) : State :=
  s.onAlcove n fun x => { x with core := x.core.commanded (F.ALC_CTRL_HALT.of v == 1) (F.ALC_CTRL_RESUME.of v == 1)
                                          (F.ALC_CTRL_STEP.of v == 1) }

/-- A write of `ALC_HC_CTRL` (R83, R355, R471). -/
def State.hcCtrlWritten (s : State) (a : Agent) (h v : Nat) : State :=
  if F.ALC_HC_CTRL_RESTART.of v = 1 && a.mayField F.ALC_HC_CTRL_RESTART then s.restartHc h
  else
    (s.onHc h fun c => { c with core := c.core.commanded (F.ALC_HC_CTRL_HALT.of v == 1) (F.ALC_HC_CTRL_RESUME.of v == 1)
                                          false }).reassignAll

/-- A write of `TGEN_CTRL` (R232, R233). -/
def State.tgenCtrlWritten (s : State) (c v : Nat) : State :=
  let s1 := if F.TGEN_CTRL_ABORT.of v = 1 then s.tgenAbort c else s
  if F.TGEN_CTRL_START.of v = 1 then s1.tgenStart c else s1

/-- A write of `VST_ADMIN_CTRL`: an admin queue that is enabled again goes on from HEAD (R410). -/
def State.adminCtrlWritten (s : State) (v old : Nat) : State :=
  if F.VST_ADMIN_CTRL_ENABLE.of old = 0 && s.fld F.VST_ADMIN_CTRL_ENABLE v = 1 then
    s.onAdmin v fun a => { a with stopped := false }
  else s

/-- A write of `IC_SRC_CFG` (R347, R349). -/
def State.srcCfgWritten (s : State) (src old : Nat) : State :=
  if (s.icSource src).state = .pending && F.IC_SRC_CFG_ENABLE.of old != s.fld F.IC_SRC_CFG_ENABLE src then
    let r := s.assignSource src
    r.1.icEvent r.2
  else s.reassignAll

/-- A write of `IC_SWI` (R359). -/
def State.swiWritten (s : State) (v : Nat) : State :=
  let src := F.IC_SWI_SOURCE.of v
  if 112 ≤ src % 128 && src % 128 < 120 then s.fire src else s.badEoi

/-- A write of `IC_VI_NOTICE` (R358). -/
def State.noticeWritten (s : State) (v : Nat) : State :=
  if s.noticeState v = .pending && s.fld F.IC_VI_NOTICE_ENABLE v = 1 then s.noticePending v else s

/-- What a write of `v` to a register by agent `a` brings about beyond its stored fields; `old` is its value before. -/
def State.regEffect (s : State) (a : Agent) (r : Reg) (w i old v : Nat) : State :=
  match r with
  | .TIME_CTRL => s.timeCtrlWritten old
  | .ALC_CTRL => s.alcCtrlWritten w v
  | .ALC_HC_CTRL => s.hcCtrlWritten a w v
  | .MEZ_CTRL => if F.MEZ_CTRL_INVAL_ALL.of v = 1 then s.mezInvalAll w else s
  | .TGEN_CTRL => s.tgenCtrlWritten w v
  | .SYNC_CMD => s.syncCommand w (F.SYNC_CMD_OP.of v) (F.SYNC_CMD_KIND.of v) (F.SYNC_CMD_INDEX.of v)
  | .VST_ADMIN_CTRL => s.adminCtrlWritten w old
  | .PART_CTRL => if F.PART_CTRL_RESET.of v = 1 then s.resetPart w else s
  | .IC_SRC_CFG => s.srcCfgWritten w old
  | .IC_TGT_CTRL => s.reassignAll
  | .IC_TGT_EOI => s.completeSource w (F.IC_TGT_EOI_SOURCE.of v)
  | .IC_SWI => s.swiWritten v
  | .IC_VI_NOTICE => s.noticeWritten w
  | .IC_VI_EOI => if F.IC_VI_EOI_DONE.of v = 1 then s.completeNotice w else s
  | .CLZ_PORT_CTRL => s.portCtrlWritten w old v
  | .CLZ_WIN_CFG => s.winCfgWritten w i
  | .CLZ_DIM | .CLZ_DIR_LO | .CLZ_DIR_HI | .CLZ_FLOW | .CLZ_EXC_MATCH | .CLZ_EXC_MASK | .CLZ_EXC_PORTS_LO
  | .CLZ_EXC_PORTS_HI => s.retryRoutes
  | .RAS_REC_CMD => s.rasRecCmdWritten v
  | .RAS_RETIRE => s.rasRetireWritten (F.RAS_RETIRE_CHANNEL.of v)
  | .SDC_SH_CTRL => if F.SDC_SH_CTRL_SELFTEST.of v = 1 then s.startSelfTest w else s
  | .INJ_CTRL => s.injCtrlWritten w
  | .BOOT_CTRL => s.bootCtrlWritten v
  | .BOOT_OVERRIDE => s.bootOverrideWritten v
  | .LC_CMD => s.lcCmdWritten a v
  | _ => s

/-- Whether a register ignores writes now (R316, R387). -/
def State.locked (s : State) (r : Reg) (w : Nat) : Bool :=
  match r with
  | .VST_ADMIN_SQ_LO | .VST_ADMIN_SQ_HI | .VST_ADMIN_CQ_LO | .VST_ADMIN_CQ_HI | .VST_DB_RECORD_LO | .VST_DB_RECORD_HI =>
    s.fld F.VST_ADMIN_CTRL_ENABLE w == 1
  | .CLZ_WIN_BASE_LO | .CLZ_WIN_BASE_HI | .CLZ_WIN_PERIOD => s.winLocked w
  | _ => false

/-- Whether a field keeps its value at a write, the admin queue being enabled (R316). -/
def fieldLocked (old : Nat) (f : Fld) : Bool :=
  (f == F.VST_ADMIN_CTRL_SQ_LOG2 || f == F.VST_ADMIN_CTRL_CQ_LOG2) && F.VST_ADMIN_CTRL_ENABLE.of old == 1

/-- A write of a register that agent `a` may write. -/
def State.regWrite (s : State) (a : Agent) (r : Reg) (w i v : Nat) (same : Option SameUpdate) : State :=
  if s.locked r w then s
  else
    let old := s.reg r w i
    let new := r.fields.foldl (fun x f =>
      let kept := !a.mayField f || fieldLocked old f
      f.put x (f.afterWrite (f.of old) (if kept then f.written (f.of old) (f.of old) else f.of v) same)) old
    ((s.setReg r w i new).regEffect a r w i old v).sameFires r w same

/-! ## Accesses -/

/-- Returns a value to the reader. -/
def State.returned (s : State) (x : Nat) : State := { s with readData := BitVec.ofNat 64 x }

/-- An aligned 4-byte write at a package register address that agent `a`'s view shows. -/
def State.packageWrite (s : State) (a : Agent) (addr v : Nat) (same : Option SameUpdate) : State :=
  match registerAt addr with
  | some (r, w, i) =>
    if s.dark r w then s
    else if a.mayWrite r i then s.regWrite a r w i v same
    else s.deny a addr true
  | none => s.deny a addr true

/-- A register after its clearing read: RC fields hold their reset value and what hardware set (R7, R11). -/
def State.clearRead (s : State) (r : Reg) (w i : Nat) (same : Option SameUpdate) : State :=
  if r.fields.any (·.acc == .rc) then
    s.setReg r w i (r.fields.foldl (fun x f =>
      if f.acc == .rc then
        f.put x (match f.updated same with
          | some u => u.apply f f.reset
          | none => f.reset)
      else x) (s.reg r w i))
  else s

/-- A read of a register by agent `a`: its value, and the state after (R7, R11, R519). -/
def State.regRead (s : State) (a : Agent) (r : Reg) (w i : Nat) (same : Option SameUpdate) : State × Nat :=
  match r with
  | .TIME_NOW_LO =>
    let t := s.masterNow
    (s.onTime fun x => { x with nowHi := tset 0 x.nowHi a.latch (BitVec.ofNat 32 (t / 2 ^ 32)) }, t % 2 ^ 32)
  | .TIME_NOW_HI => (s, (tget 0 s.time.nowHi a.latch).toNat)
  | _ => (s.clearRead r w i same, s.regValue r w i)

/-- An aligned 4-byte read at a package register address that agent `a`'s view shows. -/
def State.packageRead (s : State) (a : Agent) (addr : Nat) (same : Option SameUpdate) : State × Nat :=
  match registerAt addr with
  | some (r, w, i) => if s.dark r w then (s, 0) else s.regRead a r w i same
  | none => (s.deny a addr false, 0)

/-- Where an aligned 4-byte host access to BAR0 of function `v` leads. -/
inductive BarPlace
  | reg (addr : Nat) (readOnly : Bool)
  | table (off : Nat)
  | pending (word : Nat)
  | nothing

/-- MSI-X table and PBA of the function, and its register view (R402, R407, R518). -/
def barPlace (v off : Nat) : BarPlace :=
  let t := if v = 0 then 0x3FF0000 else 0xF0000
  if t ≤ off && off < t + 0x8000 then .table (off - t)
  else if t + 0x8000 ≤ off && off < t + 0x8000 + 256 then .pending ((off - t - 0x8000) / 4)
  else if v = 0 then .reg off false
  else
    match viewAddr v off with
    | some (x, ro) => .reg x ro
    | none => .nothing

def State.hostWrite4 (s : State) (v : Fin 256) (off x : Nat) (same : Option SameUpdate) : State :=
  match barPlace v.val off with
  | .reg addr ro => if ro then s.deny (.host v) addr true else s.packageWrite (.host v) addr x same
  | .table t => s.msixWrite v.val t x
  | .pending _ => s
  | .nothing => s.deny (.host v) off true

def State.hostRead4 (s : State) (v : Fin 256) (off : Nat) (same : Option SameUpdate) : State × Nat :=
  match barPlace v.val off with
  | .reg addr _ => s.packageRead (.host v) addr same
  | .table t => (s, s.msixRead v.val t)
  | .pending w => (s, s.pbaRead v.val w)
  | .nothing => (s.deny (.host v) off false, 0)

/-- Whether BAR0 takes an access as it is (R401). -/
def barGood (off size : Nat) : Bool := (size == 4 || size == 8) && off % size == 0

/-- A register write by an agent. A host access goes through its function's BAR0 (R401, R411). -/
def State.writeReg (s : State) (a : Agent) (addr size v : Nat) (same : Option SameUpdate) : State :=
  match a with
  | .host f =>
    if !s.barOpen f.val then s
    else if !barGood addr size then s.barErr 1 0 f.val
    else
      let s1 := s.hostWrite4 f addr (v % 2 ^ 32) same
      if size = 8 then s1.hostWrite4 f (addr + 4) (v / 2 ^ 32 % 2 ^ 32) none else s1
  | _ => s.packageWrite a addr (v % 2 ^ 32) same

/-- A register read by an agent. -/
def State.readReg (s : State) (a : Agent) (addr size : Nat) (same : Option SameUpdate) : State × Nat :=
  match a with
  | .host f =>
    if !s.barOpen f.val then (s, 0)
    else if !barGood addr size then (s.barErr 1 0 f.val, 0)
    else
      let lo := s.hostRead4 f addr same
      if size = 8 then
        let hi := lo.1.hostRead4 f (addr + 4) none
        (hi.1, lo.2 + hi.2 * 2 ^ 32)
      else lo
  | _ => s.packageRead a addr same

/-! ## Commands -/

/-- R7: a register write. -/
def doRegisterWrite (a : Agent) (addr size v : Nat) (same : Option SameUpdate) (s : State) : State :=
  s.writeReg a addr size v same

/-- R11: a register read. -/
def doRegisterClearingRead (a : Agent) (addr size : Nat) (same : Option SameUpdate) (s : State) : State :=
  let r := s.readReg a addr size same
  r.1.returned r.2

/-- The address by which agent `a` names a register. A function's view has offsets of its own. -/
def Agent.addrOf (a : Agent) (r : Reg) (w i : Nat) : Nat :=
  let x := r.addr w i
  match a with
  | .host v =>
    if v.val = 0 then x
    else if 0x80000 + 0x100 * v.val ≤ x && x < 0x80100 + 0x100 * v.val then x - (0x80000 + 0x100 * v.val)
    else if 0x17000 + 0x10 * v.val ≤ x && x < 0x17010 + 0x10 * v.val then x - (0x17000 + 0x10 * v.val) + 0x3000
    else if x = 0x1008 then 0x2008
    else x
  | _ => x

/-- R519: a read of `TIME_NOW_LO`. -/
def doTimeNowLoRead (a : Agent) (same : Option SameUpdate) (s : State) : State :=
  doRegisterClearingRead a (a.addrOf .TIME_NOW_LO 0 0) 4 same s

/-- A write of a register by name. -/
def doNamedWrite (a : Agent) (r : Reg) (w i v : Nat) (s : State) : State := s.writeReg a (a.addrOf r w i) 4 v none

/-- A write of a register by name that writes 1 to a field, the value giving the others. -/
def doBitWrite (a : Agent) (f : Fld) (w i v : Nat) (s : State) : State :=
  doNamedWrite a f.reg w i (f.put (v % 2 ^ 32) 1) s

/-- A write of `SYNC_CMD` (R256). -/
def doSyncWrite (a : Agent) (h op kind i : Nat) (s : State) : State :=
  doNamedWrite a .SYNC_CMD h 0 (op * 2 ^ 28 + kind * 2 ^ 25 + i) s

/-- R490, R491: a write of `LC_CMD` with an operation. -/
def doLcWrite (a : Agent) (op v : Nat) (s : State) : State :=
  doNamedWrite a .LC_CMD 0 0 (F.LC_CMD_OP.put (v % 2 ^ 32) op) s

/-- R341: a virtual-interface reset. -/
def doViReset (v : Nat) (s : State) : State := s.resetVi v false

/-- R414: a vendor-defined READ. -/
def doMgtRegisterRead (addr : Nat) (s : State) : State :=
  if !s.mgtUp then s
  else if addr % 4 != 0 then s.reply .misaligned
  else
    let r := s.readReg .mgt addr 4 none
    (r.1.returned r.2).reply (.ok (toBytes 4 r.2))

/-- R414: a vendor-defined WRITE. -/
def doMgtRegisterWrite (addr v : Nat) (s : State) : State :=
  if !s.mgtUp then s
  else if addr % 4 != 0 then s.reply .misaligned
  else (s.writeReg .mgt addr 4 v none).reply (.ok [])

/-- R422: the register bridge's data register is updated. -/
def doRegisterBridgeUpdate (v : Nat) (s : State) : State :=
  if s.host.jtag != .ijtag then s
  else
    let addr := bits v 63 32
    let r := if bit v 64 = 1 then (s.writeReg .bridge addr 4 (bits v 31 0) none, bits v 31 0)
      else s.readReg .bridge addr 4 none
    r.1.onHost fun h => { h with
      bridge := { data := BitVec.ofNat 32 r.2, address := BitVec.ofNat 32 addr, write := true } }

end Sys2Proof.Machine
end

