-- ==== Sys2Proof/Machine/IssueCheck.lean ====
section
/-! DEFINITION. What decides at issue (R51 to R54, R63, R68 to R73, R93, R105 to R110, R114 to R126): fetch, busy marks and
queue room, the next bundle, and the faults of a bundle. Cores are numbered as in Alcoves.lean. -/

namespace Sys2Proof.Machine

/-- Whether core `n` is a hall controller or the PMC. -/
def isFirmwareCore (n : Nat) : Bool := 256 ≤ n

/-- Bundles of the instruction store of core `n`. -/
def bundleLimit (n : Nat) : Nat := if isFirmwareCore n then 2048 else 4096

/-! ## Fetch (R54, R525) -/

/-- Bundle `i` of the instruction store of core `n`. -/
def State.storedBundle (s : State) (n i : Nat) : Fetched :=
  if isFirmwareCore n then { idx := i, bits := tget 0 (s.hc (n - 256)).istore i, poison := false }
  else { idx := i, bits := tget 0 (s.alcove n).istore i, poison := tget false (s.alcove n).istorePoison i }

/-- The bundles of a prefetch buffer that go on from `pc`. -/
def continued (pc : Nat) : List Fetched → List Fetched
  | [] => []
  | f :: r => if f.idx = pc then f :: continued (pc + 1) r else []

/-- Fetches up to `k` bundles from `i` on. A fetch that proves uncorrectable ends it (R425, R468). -/
def State.fetchFrom (n : Nat) : (k i : Nat) → State → List Fetched → State × List Fetched
  | 0, _, s, l => (s, l)
  | k + 1, i, s, l =>
    if bundleLimit n ≤ i then (s, l)
    else
      match if isFirmwareCore n then none else s.shoot 0x0E (channelId 4 n) fun p => p % 4096 == i with
      | some (s1, _, _, m) => (s1.hardSignature (channelId 4 n) 0x0E 0 m, l)
      | none => State.fetchFrom n k (i + 1) s (l ++ [s.storedBundle n i])

/-- Fills the prefetch buffer of core `n`. -/
def State.fetch (s : State) (n : Nat) : State :=
  let c := s.coreAt n
  let kept := continued c.pc c.prefetch
  let r := State.fetchFrom n (4 - kept.length) (c.pc + kept.length) s kept
  r.1.onCoreAt n fun c => { c with prefetch := r.2 }

/-! ## The scoreboard (R63, R64, R98, R128, R160) -/

/-- Whether an operation that can set FSTAT flags is in flight (R98, R160). -/
def State.fstatBusy (s : State) (n : Nat) : Bool :=
  let pass : XOp → Bool := fun o =>
    match o with
    | .mpass _ _ _ _ _ _ _ _ _ _ _ _ _ _ _ => true
    | _ => false
  (s.coreAt n).wb.any (·.flagged) ||
    (!isFirmwareCore n &&
      ((s.alcove n).streams.any (·.kind == .sdrain) ||
        (List.range 4).any fun u =>
          ((s.alcove n).unit u).queue.any pass || ((s.alcove n).unit u).pipe.any fun j => pass j.op))

/-- Keys of the registers with a busy mark, outside the control registers. -/
def State.busyKeys (s : State) (n : Nat) : List RegRef :=
  let c := s.coreAt n
  c.wb.map (·.reg) ++ c.busy ++
    if isFirmwareCore n then []
    else
      ((s.alcove n).streams.filter (·.kind != .fence)).map (fun t => { file := .g, idx := t.dst }) ++
        (s.alcove n).copies.map fun t => { file := .g, idx := t.dst }

/-- Whether a register that a slot word names carries a busy mark; g0 and p0 never do. -/
def State.regBusy (s : State) (n : Nat) (r : RegRef) : Bool :=
  let k := (s.coreAt n).key r
  if k.file = .ctl then k.idx == 2 && s.fstatBusy n
  else !((k.file == .g || k.file == .p) && k.idx == 0) && (s.busyKeys n).contains k

/-! ## Engine queues (R55, R64) -/

/-- The units whose queues an X-slot operation enters (R126, R127). -/
def Alcove.targetUnits (x : Alcove) (o : Op) (w : SlotWord) : List Nat :=
  match o with
  | .WSHIFT => [slotDst w % 4]
  | .WSWAP => if x.modeIssued.ganged then [0, 1, 2, 3] else [slotDst w % 4]
  | .MPASS | .ACCWR | .ACCZ => [slotDst w / 4 % 4]
  | .ACCRD => [slotSrc1 w / 4 % 4]
  | .GANG => if x.modeIssued = Gang.ofCode (immField w 0 2) then [] else [0, 1, 2, 3]
  | _ => []

/-- Whether a global address names 8 bytes of D-space of this device (R112). -/
def State.namesD (s : State) (ga : Nat) : Bool :=
  gaDevice ga == s.deviceId && gaSpace ga == spaceD && s.namesMemory ga 8

/-- The engine of the copies of alcove `n`, when it has room. -/
def State.copyEngineFor (s : State) (n : Nat) : Option Nat :=
  match s.engineFor (alcoveHalf n) with
  | some e => if (s.engine e).depth < 32 then some e else none
  | none => none

/-- Whether the queue that a slot operation feeds has room; a held I-space write lets no shift begin (R55). -/
def State.roomFor (s : State) (n : Nat) (o : Op) (w : SlotWord) : Bool :=
  let x := s.alcove n
  let ga := ((s.coreAt n).gReg (slotSrc1 w)).val.toNat
  match o with
  | .WSHIFT | .WSWAP | .MPASS | .GANG | .ACCRD | .ACCWR | .ACCZ =>
    (x.targetUnits o w).all (fun u => decide ((x.unit u).queue.length < 8)) && (o != .WSHIFT || x.held.isEmpty)
  | .SBCAST | .SWGT | .SDRAIN | .SFENCE => decide (x.streams.length < 16)
  | .CPY => decide (x.copies.length < 16) && (s.copyEngineFor n).isSome
  | .DLOAD => !(s.namesD ga && s.dBlocked (gaOffset ga) 8 true)
  | .DSTORE => !(s.namesD ga && s.dBlocked (gaOffset ga) 8 false)
  | _ => true

/-- R63 for one slot. A slot that raises `ILLEGAL_OPCODE` whatever its registers hold waits for none. -/
def State.slotReady (s : State) (n : Nat) (w : SlotWord) : Bool :=
  let c := s.coreAt n
  match opOf (slotOp w) with
  | none => true
  | some o =>
    if opcodeIllegal (isFirmwareCore n) c.pc w then true
    else
      !s.regBusy n { file := .p, idx := slotPred w } &&
        (!(c.predPoison w || c.slotOn o w) ||
          ((slotReads o w ++ slotWrites (s.alcove n).modeIssued o w).all (fun r => !s.regBusy n r) && s.roomFor n o w))

/-- R63: whether a bundle may issue. -/
def State.bundleReady (s : State) (n : Nat) (b : BitVec 1024) : Bool :=
  (List.range 8).all fun k => s.slotReady n (bundleSlot b k)

/-! ## The next bundle (R52, R68, R69) -/

/-- What a bundle makes of the control state: the next bundle, the active loops (innermost first), the loop counters it
sets, the return stack, and whether the prefetch buffer is discarded. -/
structure Flow where
  pc : Nat
  loops : List LoopFrame
  lcs : List (Nat × Nat)
  calls : List Nat
  flush : Bool

/-- Whether a loop contains a bundle. -/
def LoopFrame.has (f : LoopFrame) (pc : Nat) : Bool := f.start ≤ pc && pc ≤ f.stop

/-- The loops left after a branch from `pc` to `t`: a loop branched out of ends, and every loop inside it. -/
def leaveLoops (pc t : Nat) : List LoopFrame → List LoopFrame
  | [] => []
  | f :: r =>
    let l := leaveLoops pc t r
    if l.length < r.length then l else if f.has pc && !f.has t then r else f :: l

/-- The loop tests after bundle `pc`: the next bundle, the loops left and the counters set. -/
def loopTests (pc : Nat) (lc : Nat → Nat) : List LoopFrame → Nat × List LoopFrame × List (Nat × Nat)
  | [] => (pc + 1, [], [])
  | f :: r =>
    if f.stop = pc then
      let v := (lc f.lc + 2 ^ 32 - 1) % 2 ^ 32
      if v = 0 then
        let t := loopTests pc lc r
        (t.1, t.2.1, (f.lc, v) :: t.2.2)
      else (f.start, f :: r, [(f.lc, v)])
    else (pc + 1, f :: r, [])

/-- Where a taken branch, call or return goes. -/
def Core.branchTarget (c : Core) (o : Op) (w : SlotWord) : Option Nat :=
  match o with
  | .BR | .BRC | .CALL => some (immField w 0 12)
  | .BRI | .CALLI => some (c.gReg (slotSrc1 w)).val.toNat
  | .RET => c.calls.head?
  | _ => none

/-- The count of a `LOOP`. -/
def Core.loopCount (c : Core) (w : SlotWord) : Nat :=
  if modField w 0 1 = 1 then immField w 0 16 else (c.gReg (slotSrc1 w)).val.toNat

/-- No branch: the loop tests decide. -/
def Core.fallThrough (c : Core) (flush : Bool) : Flow :=
  let t := loopTests c.pc c.lcReg c.loops
  { pc := t.1, loops := t.2.1, lcs := t.2.2, calls := c.calls, flush := flush }

/-- A `LOOP`: a count of 0 skips to its end plus 1. -/
def Core.startLoop (c : Core) (w : SlotWord) : Flow :=
  let e := immField w 32 12
  let k := c.loopCount w
  if k = 0 then
    { pc := e + 1, loops := leaveLoops c.pc (e + 1) c.loops, lcs := [(slotDst w, 0)], calls := c.calls, flush := false }
  else
    { pc := c.pc + 1, loops := { lc := slotDst w, start := c.pc + 1, stop := e } :: c.loops, lcs := [(slotDst w, k)],
      calls := c.calls, flush := false }

/-- The return stack after a branch. -/
def Core.callsAfter (c : Core) (o : Op) : List Nat :=
  match o with
  | .CALL | .CALLI => (c.pc + 1) :: c.calls
  | .RET => c.calls.tail
  | _ => c.calls

/-- The control state after a bundle whose B slot does `b`; `END` and `IRET` do not go on from their bundle. -/
def Core.flow (c : Core) (b : Option (Op × SlotWord)) : Flow :=
  match b with
  | none => c.fallThrough false
  | some (o, w) =>
    match o with
    | .END | .IRET => { pc := c.pc, loops := c.loops, lcs := [], calls := c.calls, flush := true }
    | .LOOP => c.startLoop w
    | .IFENCE => c.fallThrough true
    | _ =>
      match c.branchTarget o w with
      | some t => { pc := t, loops := leaveLoops c.pc t c.loops, lcs := [], calls := c.callsAfter o, flush := true }
      | none => c.fallThrough false

/-- What slot `k` of a bundle does: none for `NOP` and for a slot that is off. -/
def Core.active (c : Core) (b : BitVec 1024) (k : Nat) : Option (Op × SlotWord) :=
  let w := bundleSlot b k
  match opOf (slotOp w) with
  | some o => if o != .NOP && c.slotOn o w then some (o, w) else none
  | none => none

/-! ## Faults of the engines (R105, R107, R115, R118, R123 to R126, R136) -/

/-- The cursor that a pass of a tile uses (R119). -/
def Alcove.consumer (x : Alcove) (w : SlotWord) : Nat := if x.modeIssued.ganged then 4 else slotDst w / 4

/-- Whether an operation that consumes a stream names one in flight with rows enough (R118). -/
def Alcove.claimOk (x : Alcove) (o : Op) (w : SlotWord) (tag : Nat) : Bool :=
  match o with
  | .WSHIFT => (x.streamAt tag).any fun p => p.2.kind == .swgt && decide (p.2.claimed + 64 ≤ p.2.rows)
  | .MPASS => (x.streamAt tag).any fun p =>
      p.2.kind == .sbcast && decide (tget 0 p.2.cursors (x.consumer w) + immField w 0 9 ≤ p.2.rows)
  | _ => true

/-- Whether the formats of a pass may not meet (R105). -/
def formatsDiffer (fa fw : Nat) : Bool :=
  let a := fmtOf fa
  let b := fmtOf fw
  if a.isInt && b.isInt then a.bits != b.bits else fa != fw

/-- Own faults of `MPASS`. -/
def Alcove.passFault (x : Alcove) (w : SlotWord) : Option (Nat × Nat) :=
  let fa := modField w 0 4
  let fw := modField w 8 4
  let m := x.modeIssued
  let acc := slotDst w
  let used := usedUnits m (acc / 4) (immField w 16 9)
  let odd := fun u =>
    let p := (x.unit u).viewActive
    p.state == .valid && (p.fmt != fw || p.bs != (modField w 6 1 == 1))
  if formatsDiffer fa fw || used.any odd then some (0x11, fw * 16 + fa)
  else if 64 * (4 - acc % 4) < immField w 0 9 || maxDepth m < immField w 16 9 || (m.ganged && 4 ≤ acc) then
    some (0x12, m.code)
  else (used.find? fun u => (x.unit u).viewActive.state != .valid).map fun u => (0x10, u)

/-- An operation on an invalid unit (R56, R136). -/
def Alcove.unitFault (x : Alcove) (u : Nat) : Option (Nat × Nat) :=
  if (x.unit u).viewActive.state = .invalid then some (0x10, u) else none

/-- Own faults of an X-slot operation. A pass without an enabled column raises none (R67, R122). -/
def Alcove.matrixFault (x : Alcove) (o : Op) (w : SlotWord) (tag cols : Nat) : Option (Nat × Nat) :=
  match o with
  | .WSHIFT =>
    let f := match x.streamAt tag with
      | some (_, t) => if t.fmt = modField w 8 4 then none else some (0x11, t.fmt * 16 + modField w 8 4)
      | none => none
    f.or (x.unitFault (slotDst w))
  | .WSWAP =>
    if x.modeIssued.ganged && slotDst w != 0 then some (0x12, x.modeIssued.code)
    else (x.targetUnits o w).findSome? x.unitFault
  | .MPASS => if cols = 0 then none else x.passFault w
  | .ACCRD => x.unitFault (slotSrc1 w / 4)
  | .ACCWR | .ACCZ => x.unitFault (slotDst w / 4)
  | _ => none

/-- The address at which row `r` of a stream of window `a` begins. -/
def AddrReg.row (a : AddrReg) (r : Nat) : Nat := (a.addr.toNat + r * a.stride.toNat) % 2 ^ 24

/-- Bytes of a histogram record (R162). -/
def histBytes : Nat := 576

/-- Own faults of a stream command (R107, R121, R130, R162). -/
def streamFault (a : AddrReg) (o : Op) (w : SlotWord) : Option (Nat × Nat) :=
  match o with
  | .SBCAST | .SWGT =>
    if (List.range (immField w 0 16)).all fun r => a.low.toNat ≤ a.row r && a.row r < a.high.toNat then none
    else some (0x19, 0)
  | .SDRAIN =>
    let len := elemBytes (fmtOf (modField w 0 4)) 64
    let off := immField w 32 24
    if !(List.range (immField w 0 7)).all fun r =>
        a.low.toNat ≤ a.row r && a.row r + len ≤ a.high.toNat && a.row r + len ≤ 0x180000 then some (0x19, 0)
    else if modField w 4 1 = 1 && (off % 64 != 0 || 0x180000 < off + histBytes) then some (0x19, 5)
    else none
  | _ => none

/-- The copy request of a `CPY`. -/
def Core.copyRequest (c : Core) (w : SlotWord) : CopyReq :=
  let g := fun i => (c.gReg (slotSrc1 w + i)).val.toNat
  { w0 := g 0, w1 := g 1, w2 := g 2, w3 := g 3 }

/-- The interface whose kernel alcove `n` runs. -/
def State.kernelVi (s : State) (n : Nat) : Nat := (s.alcoveVi n).getD 0

/-! ## Faults of the B slot (R68, R69, R110, R352) -/

/-- The kind of object that an operation acts on. -/
def syncKind (o : Op) : Option Nat :=
  match o with
  | .TSIG | .TWAIT | .TTRY => some 0
  | .LARR | .LWAIT | .LARW => some 1
  | .CWAIT | .CREAD => some 2
  | _ => none

/-- R110: whether a handle is good at core `n`. Firmware belongs to no partition (R78). -/
def State.coreHandle (s : State) (n ga kind : Nat) : Bool :=
  if isFirmwareCore n then
    gaSpace ga == spaceT && gaDevice ga == s.deviceId && tKind (gaOffset ga) == kind && s.namesMemory ga 1
  else s.handleOk (s.kernelVi n) ga kind

/-- The `LOOP_NEST` fault (R69). -/
def Core.loopFault (c : Core) (w : SlotWord) : Option (Nat × Nat) :=
  let beyond := match c.loops.find? (·.has c.pc) with
    | some f => decide (f.stop < immField w 32 12)
    | none => false
  if c.loops.any (·.lc == slotDst w) || beyond || 2 ^ 32 ≤ c.loopCount w then some (0x0A, slotDst w) else none

/-- The `CALL_DEPTH` fault. -/
def State.depthFault (s : State) (n : Nat) (o : Op) : Option (Nat × Nat) :=
  let k := (s.coreAt n).calls.length
  match o with
  | .CALL | .CALLI => if 16 ≤ k then some (0x09, k) else none
  | .RET => if k = 0 then some (0x09, 0) else none
  | .IRET => if (tget [] s.ic.frames (n - 256)).isEmpty then some (0x09, 0) else none
  | _ => none

/-- Own faults of a B-slot operation. -/
def State.branchFault (s : State) (n : Nat) (o : Op) (w : SlotWord) : Option (Nat × Nat) :=
  let c := s.coreAt n
  let ga := (c.gReg (slotSrc1 w)).val.toNat
  let handle := match syncKind o with
    | some k => if s.coreHandle n ga k then none else some (0x18, ga % 2 ^ 32)
    | none => none
  let range := match c.branchTarget o w with
    | some t => if bundleLimit n ≤ t then some (0x04, t % 2 ^ 32) else none
    | none => none
  (((handle.or range).or (s.depthFault n o)).or (if o = .LOOP then c.loopFault w else none)).or
    (if o = .TRAP then some (0x20, immField w 0 16) else none)

/-! ## Faults of a bundle (R72, R93) -/

/-- Step 4 of R93. -/
def State.ownFault (s : State) (n : Nat) (o : Op) (w : SlotWord) : Option (Nat × Nat) :=
  let c := s.coreAt n
  let x := s.alcove n
  match slotClass w with
  | 2 => c.memoryFault (isFirmwareCore n) o w
  | 4 =>
    x.matrixFault o w (c.gReg (slotSrc1 w)).val.toNat (c.predBits w % 2 ^ outputColumns x.modeIssued)
  | 5 =>
    if o = .CPY then (s.copyFails (s.kernelVi n) (c.copyRequest w)).map fun i => (0x19, i)
    else streamFault (c.aReg (slotSrc1 w)) o w
  | 6 => s.branchFault n o w
  | 7 => (c.memoryFault (isFirmwareCore n) o w).or (s.branchFault n o w)
  | _ => none

/-- The fault of one slot word. -/
def State.slotFault (s : State) (n : Nat) (w : SlotWord) : Option (Nat × Nat) :=
  let c := s.coreAt n
  let illegal : Option (Nat × Nat) := some (0x01, w.toNat % 2 ^ 32)
  match opOf (slotOp w) with
  | none => illegal
  | some o =>
    if opcodeIllegal (isFirmwareCore n) c.pc w || !(s.alcove n).claimOk o w (c.gReg (slotSrc1 w)).val.toNat then illegal
    else if !(c.predPoison w || c.slotOn o w) then none
    else (c.earlyFault (isFirmwareCore n) o w).or (s.ownFault n o w)

/-- The fault of a bundle that is legal and ready: code, slot and detail. A bundle that would fall through past the
last one is charged to the B slot. -/
def State.bundleFault (s : State) (n : Nat) (b : BitVec 1024) : Option (Nat × Nat × Nat) :=
  let c := s.coreAt n
  let next := (c.flow (c.active b 7)).pc
  ((List.range 8).findSome? fun k => (s.slotFault n (bundleSlot b k)).map fun f => (f.1, k, f.2)).or
    (if bundleLimit n ≤ next then some (0x04, 7, next) else none)

end Sys2Proof.Machine
end

