-- ==== Sys2Proof/Machine/Issue.lean ====
section
/-! DEFINITION. The issue of a bundle (R51, R52, R61, R63, R66 to R70, R81, R92, R96 to R112, R115 to R120, R127 to R130,
R152, R171 to R173, R176, R187, R352). -/

namespace Sys2Proof.Machine

/-! ## Slot C: streams and copies (R66, R106, R117, R187) -/

/-- Draws that a bundle's V slots take before slot `k`, and in all (R152). A slot that is off takes its draws too (R67). -/
def Core.drawsOf (c : Core) (w : SlotWord) : Nat :=
  match opOf (slotOp w) with
  | some o => if slotClass w = 3 then c.vectorDraws o w else 0
  | none => 0

/-- The stream command of slot C with tag `tag`, taking its draws from position `pos`. -/
def Alcove.newStream (x : Alcove) (o : Op) (w : SlotWord) (tag pos : Nat) : Stream :=
  let c := x.core
  let drain := o == .SDRAIN
  { kind := match o with
      | .SBCAST => .sbcast
      | .SWGT => .swgt
      | .SDRAIN => .sdrain
      | _ => .fence,
    tag := tag, dst := (c.key { file := .g, idx := slotDst w }).idx, fmt := modField w 0 4,
    rows := if drain then immField w 0 7 else immField w 0 16, window := c.aReg (slotSrc1 w),
    snap := x.store, snapPoison := x.storePoison, cursors := [], claimed := 0, closed := false,
    tile := if drain then x.tile (slotSrc2 w) else .zero,
    rnd := effectiveRnd (modField w 5 2) (c.round.toNat % 4),
    sat := modField w 7 1 = 1 || bit c.sat.toNat 2 == 1,
    hist := if drain && modField w 4 1 = 1 then some (immField w 32 24) else none,
    seed := c.rngSeed.toNat, pos := pos, pc := c.pc }

/-- Draws of a drain (R152). -/
def Core.drainDraws (c : Core) (o : Op) (w : SlotWord) : Nat :=
  if o = .SDRAIN && effectiveRnd (modField w 5 2) (c.round.toNat % 4) = .stochastic then 64 * immField w 0 7 else 0

/-- The tag of a C-slot command in its register. -/
def Core.tagged (c : Core) (w : SlotWord) (tag : Nat) : Core :=
  c.write (c.key { file := .g, idx := slotDst w }) (.g { val := BitVec.ofNat 64 tag, poison := false })

/-- A stream command issues. A fence that no command precedes is none. -/
def Alcove.issueStream (x : Alcove) (o : Op) (w : SlotWord) (pos : Nat) : Alcove :=
  if o = .SFENCE then
    if x.streams.isEmpty then x else { x with streams := x.streams ++ [x.newStream o w 0 pos] }
  else
    { x with
      streams := x.streams ++ [x.newStream o w x.streamSeq pos], streamSeq := (x.streamSeq + 1) % 32768,
      core := x.core.tagged w x.streamSeq }

/-- The bytes that the M store of a bundle overwrites, as they were (R187). -/
def State.overwritten (s : State) (n : Nat) (m : Option (Op × SlotWord)) : List (Nat × Nat × Bool) :=
  let x := s.alcove n
  match m with
  | some (o, w) =>
    if o = .ST || o = .VST then
      let a := x.core.address w
      (List.range (accessBytes o w)).map fun i =>
        (a + i, (tget 0 x.store (a + i)).toNat, tget false x.storePoison ((a + i) / 32))
    else []
  | none => []

/-- A copy request enters the queue of alcove `n` (R181, R186). -/
def State.issueCopy (s : State) (n : Nat) (w : SlotWord) (before : List (Nat × Nat × Bool)) : State :=
  let x := s.alcove n
  let tag := 0x8000 + x.copySeq
  match s.copyEngineFor n with
  | some e =>
    let r := s.queueCopy e (x.core.copyRequest w) (.alcove n tag) (s.kernelVi n) none before
    r.1.onAlcove n fun x => { x with
      copies := x.copies ++ [{ tag := tag, dst := (x.core.key { file := .g, idx := slotDst w }).idx, copy := r.2 }],
      copySeq := (x.copySeq + 1) % 32768, core := x.core.tagged w tag }
  | none => s

/-- Slot C of a bundle issues. -/
def State.issueC (s : State) (n : Nat) (b : Option (Op × SlotWord)) (m : Option (Op × SlotWord)) (pos : Nat) : State :=
  match b with
  | some (o, w) => if o = .CPY then s.issueCopy n w (s.overwritten n m) else s.onAlcove n fun x => x.issueStream o w pos
  | none => s

/-! ## Slot X (R104, R114 to R119, R127) -/

/-- Adds an operation to the queues of some units, and marks what it keeps busy. -/
def Alcove.enqueue (x : Alcove) (us : List Nat) (op : XOp) : Alcove :=
  let y := us.foldl (fun (x : Alcove) u => x.onUnit u fun z => { z with queue := z.queue ++ [op] }) x
  { y with core := { y.core with busy := y.core.busy ++ op.busyRegs } }

/-- Planes as tracked at issue after a shift and after an exchange. -/
def XUnit.viewShifted (y : XUnit) (fmt : Nat) (bs : Bool) : XUnit :=
  { y with viewShadow := { state := .valid, fmt := fmt, bs := bs } }

def XUnit.viewSwapped (y : XUnit) : XUnit := { y with viewActive := y.viewShadow, viewShadow := y.viewActive }

/-- The stream with a tag, changed. -/
def Alcove.onStream (x : Alcove) (tag : Nat) (f : Stream → Stream) : Alcove :=
  { x with streams := x.streams.map fun t => if t.kind != .fence && t.tag == tag then f t else t }

/-- A `WSHIFT` claims 64 rows. -/
def Alcove.issueShift (x : Alcove) (w : SlotWord) (tag : Nat) : Alcove :=
  let first := (x.streamAt tag).elim 0 (·.2.claimed)
  let fmt := modField w 8 4
  let bs := modField w 6 1 = 1
  ((x.onStream tag fun t => { t with claimed := t.claimed + 64 }).onUnit (slotDst w) fun y => y.viewShifted fmt bs).enqueue
    [slotDst w] (.wshift tag first fmt bs)

/-- An `MPASS` claims its rows. -/
def Alcove.issuePass (x : Alcove) (w : SlotWord) (tag cols : Nat) : Alcove :=
  let k := x.consumer w
  let rows := immField w 0 9
  let first := (x.streamAt tag).elim 0 fun p => tget 0 p.2.cursors k
  (x.onStream tag fun t => { t with cursors := tset 0 t.cursors k (first + rows) }).enqueue [slotDst w / 4]
    (.mpass (slotDst w) tag first rows (immField w 16 9) (modField w 0 4) (modField w 8 4) (modField w 4 1 = 1)
      (modField w 5 1 = 1) (modField w 6 1 = 1) cols (x.core.round.toNat % 4) x.core.sat.toNat x.core.pc x.modeIssued)

/-- An X-slot operation issues; a pass without an enabled column that would fault is a `NOP` (R67, R122). -/
def Alcove.issueX (x : Alcove) (o : Op) (w : SlotWord) : Alcove :=
  let c := x.core
  let tag := (c.gReg (slotSrc1 w)).val.toNat
  let us := x.targetUnits o w
  let cols := c.predBits w % 2 ^ 64
  match o with
  | .WSHIFT => x.issueShift w tag
  | .WSWAP => (us.foldl (fun (x : Alcove) u => x.onUnit u XUnit.viewSwapped) x).enqueue us (.wswap x.modeIssued.ganged)
  | .MPASS =>
    let cols := c.predBits w % 2 ^ outputColumns x.modeIssued
    if cols = 0 && (x.passFault w).isSome then x else x.issuePass w tag cols
  | .GANG =>
    let m := Gang.ofCode (immField w 0 2)
    if m = x.modeIssued then x else { x.enqueue us (.gang m) with modeIssued := m }
  | .ACCRD =>
    x.enqueue us (.accrd (slotDst w) (accRead (c.vReg (slotDst w)) (x.tile (slotSrc1 w)) (immField w 0 5) cols))
  | .ACCWR => x.enqueue us (.accwr (slotDst w) (immField w 0 5) cols (c.vReg (slotSrc1 w)))
  | .ACCZ => x.enqueue us (.accz (slotDst w) cols)
  | _ => x

/-- The shadow alcove compares the rows that an operation reads out (R451). -/
def State.shadowReads (s : State) (n : Nat) (t : AccTile) (index first rows : Nat) : State :=
  (upTo first rows).foldl (fun s r =>
    s.shadowRow n index r ((List.range 64).map fun j => (tget 0 t.elems (64 * r + j)).toNat) t.poison) s

/-- The rows of a tile that slots X and C of a bundle read out. -/
def State.shadowIssue (s : State) (n : Nat) (b : Option (Op × SlotWord)) : State :=
  match b with
  | some (.ACCRD, w) => s.shadowReads n ((s.alcove n).tile (slotSrc1 w)) (slotSrc1 w) (2 * immField w 0 5) 2
  | some (.SDRAIN, w) => s.shadowReads n ((s.alcove n).tile (slotSrc2 w)) (slotSrc2 w) 0 (immField w 0 7)
  | _ => s

/-- Slot X of a bundle issues. -/
def State.issueX (s : State) (n : Nat) (b : Option (Op × SlotWord)) : State :=
  match b with
  | some (o, w) => s.onAlcove n fun x => x.issueX o w
  | none => s

/-! ## Slot M (R99 to R101, R111, R112, R171 to R176) -/

/-- A read of the store that the M slot of core `n` reaches: bytes and whether one is poisoned. -/
def State.coreRead (s : State) (n a len : Nat) : State × List Nat × Bool :=
  if isFirmwareCore n then
    let h := s.hc (n - 256)
    (s, loadBytes h.dstore a len, (unitMarks h.dstorePoison 32 a len).any id)
  else
    let r := s.readS n a len
    (r.st, r.data, r.poison)

/-- A write of that store. -/
def State.coreWrite (s : State) (n a : Nat) (bytes : List Nat) (poison : Bool) : State :=
  let marks := List.replicate bytes.length poison
  if isFirmwareCore n then
    s.onHc (n - 256) fun h => { h with
      dstore := storeBytes h.dstore a bytes, dstorePoison := markUnits h.dstorePoison 32 a marks }
  else s.writeS n a bytes marks

/-- The agent that a firmware core is on the register fabric. -/
def coreAgent (n : Nat) : Agent := if h : n - 256 < 8 then .hc ⟨n - 256, h⟩ else .pmc

/-- Four results of `TWADV`. -/
def Core.tileResults (c : Core) (d : Nat) (vs : List Nat) : List Result :=
  vs.mapIdx fun i v => gResult c (d + i) (BitVec.ofNat 64 v) false 4

/-- The walker notes the commands in flight (R173). -/
def Walker.noted (w : Walker) (share : Nat) (tags : List Nat) : Walker :=
  { w with notes := w.notes ++ [{ share := share, tags := tags }] }

/-- A `TWADV` of alcove `n` whose core before the bundle was `c` (R101, R171, R173, R176). -/
def State.advanceTile (s : State) (n : Nat) (c : Core) (w : SlotWord) : State × List Result :=
  let s1 := s.shadowEnds n false
  let x := s1.alcove n
  let k := x.walker
  if k.next < k.share then
    let d := TileDesc.ofBytes k.desc
    let t := d.tile k.rank k.group k.next
    let s2 := match x.grant with
      | some g => s1.tileDelivered n g.queue g.op (d.seqIndex k.rank k.group k.next) x.mode.code
      | none => s1
    (s2.onAlcove n fun x => { x with walker :=
        { x.walker.noted k.next x.liveTags with next := k.next + 1, queued := min 4 (k.share - (k.next + 1)) } },
      c.tileResults (slotDst w) [1, t.1, t.2.1, t.2.2.1 + t.2.2.2 * 2 ^ 16 + k.next * 2 ^ 32])
  else
    (s1.onAlcove n fun x => { x with walker := x.walker.noted k.share x.liveTags }, c.tileResults (slotDst w) [0, 0, 0, 0])

/-- A `DLOAD` (R111, R112). -/
def State.loadD (s : State) (c : Core) (w : SlotWord) : State × List Result :=
  let ga := (c.gReg (slotSrc1 w)).val.toNat
  if s.namesD ga then
    let r := s.readD (gaOffset ga) 8
    (r.st, [gResult c (slotDst w) (BitVec.ofNat 64 (leNat r.data)) r.poison 1])
  else (s, [gResult c (slotDst w) 0 true 1])

/-- Slot M of a bundle of core `n`, whose registers before the bundle are those of `c`: what it does beside posted
register and D-space stores, and its results. -/
def State.issueM (s : State) (n : Nat) (c : Core) (b : Option (Op × SlotWord)) : State × List Result :=
  match b with
  | none => (s, [])
  | some (o, w) =>
    let a := c.address w
    let len := accessBytes o w
    match o with
    | .LD =>
      let r := s.coreRead n a len
      (r.1, gResult c (slotDst w) (loadedValue w (leNat r.2.1)) r.2.2 (opLatency .LD) :: c.postStep w)
    | .VLD =>
      let r := s.coreRead n a len
      (r.1, { reg := { file := .v, idx := slotDst w }, latency := opLatency .VLD, flags := 0, flagged := false,
              val := .v { bits := BitVec.ofNat 4096 (leNat r.2.1), poison := r.2.2 } } :: c.postStep w)
    | .ST =>
      let g := c.gReg (slotSrc3 w)
      (s.coreWrite n a (toBytes len g.val.toNat) g.poison, c.postStep w)
    | .VST =>
      let v := c.vReg (slotSrc3 w)
      (s.coreWrite n a (toBytes len v.bits.toNat) v.poison, c.postStep w)
    | .TWADV => s.advanceTile n c w
    | .RLOAD =>
      let r := s.readReg (coreAgent n) (c.gReg (slotSrc1 w)).val.toNat 4 none
      (r.1, [gResult c (slotDst w) (BitVec.ofNat 64 r.2) false 1])
    | .DLOAD => s.loadD c w
    | _ => (s, c.moveResult o w)

/-- The posted stores of slot M (R111, R112). A store to no D-space of this device is dropped. -/
def State.posted (s : State) (n : Nat) (c : Core) (b : Option (Op × SlotWord)) : State :=
  match b with
  | some (o, w) =>
    let ga := (c.gReg (slotSrc1 w)).val.toNat
    let v := c.gReg (slotSrc2 w)
    match o with
    | .RSTORE => s.writeReg (coreAgent n) ga 4 (v.val.toNat % 2 ^ 32) none
    | .DSTORE =>
      if s.namesD ga then s.writeDAll (gaOffset ga) (toBytes 8 v.val.toNat) (if v.poison then 1 else 0) else s
    | _ => s
  | none => s

/-! ## Results (R63, R64) -/

/-- Results of a scalar slot. -/
def Core.scalarOut (c : Core) (b : Option (Op × SlotWord)) : List Result :=
  match b with
  | some (o, w) => c.scalarResult o w
  | none => []

/-- Results of a V slot that takes its draws from position `pos`. -/
def Core.vectorOut (c : Core) (b : Option (Op × SlotWord)) (pos : Nat) : List Result :=
  match b with
  | some (o, w) => c.vectorResult o w pos
  | none => []

/-- Results of slot B. -/
def State.branchOut (s : State) (n : Nat) (c : Core) (b : Option (Op × SlotWord)) : List Result :=
  match b with
  | none => []
  | some (o, w) =>
    let g := c.gReg (slotSrc1 w)
    let off := gaOffset g.val.toNat
    match o with
    | .TNOW => [gResult c (slotDst w) (BitVec.ofNat 64 (s.now (coreReplica n))) false (opLatency .TNOW)]
    | .CREAD => [gResult c (slotDst w) (s.counter (tHall off) (tIndex off)).count false 1]
    | .BKRD =>
      let x := c.gOther (slotSrc1 w)
      [gResult c (slotDst w) x.val x.poison 1]
    | .BKWR =>
      [{ reg := c.key { file := .gx, idx := slotDst w }, val := .g g, latency := 1, flags := 0, flagged := false }]
    | _ => []

/-- Writes a result of one cycle, and sends a longer one on its way. -/
def Core.receive (c : Core) (r : Result) : Core :=
  if r.latency ≤ 1 then (c.write r.reg r.val).flags r.flags
  else { c with wb := c.wb ++ [{ reg := r.reg, val := r.val, latency := r.latency, flags := r.flags, flagged := r.flagged }] }

/-- The control register that a scalar slot writes (R98, R158). -/
def Core.csrOut (c old : Core) (b : Option (Op × SlotWord)) : Core :=
  match b with
  | some (.CSRW, w) => c.csrWrite (immField w 0 12) (old.gReg (slotSrc1 w)).val
  | _ => c

/-- The control state of a bundle. -/
def Core.follow (c : Core) (f : Flow) : Core :=
  { c with
    pc := f.pc, loops := f.loops, calls := f.calls, passBreak := false,
    lc := f.lcs.foldl (fun t p => tset 0 t p.1 (BitVec.ofNat 32 p.2)) c.lc,
    prefetch := if f.flush then [] else c.prefetch.tail }

/-! ## Slot B beside control flow (R70, R108, R109, R111, R236, R244) -/

/-- The agent ID of core `n`. R236 names none for the PMC. -/
def agentId (n : Nat) : Nat := if n < 256 then n else if n < 264 then 4352 + (n - 256) else Config.pmcAgent

/-- A core that begins to wait. -/
def Core.waiting (c : Core) (w : Wait) : Core := { c with state := .waiting, wait := some w, granted := false }

/-- Operations of core `n` set out for a landing unit. -/
def State.sendSync (s : State) (ops : List SyncOp) : State := s.onSync fun y => { y with net := y.net ++ ops }

/-- The count of a token or counter operation. -/
def Core.syncCount (c : Core) (w : SlotWord) : Nat :=
  if modField w 0 1 = 1 then immField w 0 32 else (c.gReg (slotSrc2 w)).val.toNat

/-- The alcove or controller finishes (R70); firmware that executes `END` halts. -/
def State.issueEnd (s : State) (n : Nat) : State :=
  if isFirmwareCore n then (s.onCoreAt n fun c => { c with state := .halted }).reassignAll
  else
    (s.onAlcove n fun x =>
      { x.closeStreams with core := { x.core with state := .draining }, ended := true, pausePending := false }).shadowEnds
      n false

/-- R352: the top entry of controller `t`'s interrupt stack is popped. -/
def State.popInterrupt (s : State) (t : Nat) : State :=
  match tget [] s.ic.frames t with
  | e :: rest =>
    (s.onHc t fun h => { h with core := { h.core with pc := e.pc, bank := e.bank, prefetch := [] } }).onIc fun y =>
      { y with frames := tset [] y.frames t rest }
  | [] => s

/-- Slot B of core `n`, whose registers before the bundle are those of `c`. -/
def State.issueB (s : State) (n : Nat) (c : Core) (tags : List Nat) (b : Option (Op × SlotWord)) : State :=
  match b with
  | none => s
  | some (o, w) =>
    let g := (c.gReg (slotSrc1 w)).val.toNat
    let off := gaOffset g
    let h := tHall off
    let i := tIndex off
    let k := c.syncCount w
    let me := agentId n
    let wait := fun (s : State) (x : Wait) => s.onCoreAt n fun c => c.waiting x
    match o with
    | .TSIG => s.sendSync [.signal h i me k]
    | .TWAIT => wait (s.sendSync [.wait h i me k (coreParty n)]) .sync
    | .TTRY =>
      let d := c.key { file := .p, idx := slotDst w }
      (s.sendSync [.try h i me k (coreParty n) d.idx]).onCoreAt n fun c =>
        if d.idx = 0 then c else { c with busy := c.busy ++ [d] }
    | .LARR => s.sendSync [.arrive h (i / 2) me (i % 2)]
    | .LWAIT => wait (s.sendSync [.landWait h (i / 2) me (i % 2) (coreParty n)]) .sync
    | .LARW => wait (s.sendSync [.arrive h (i / 2) me (i % 2), .landWait h (i / 2) me (i % 2) (coreParty n)]) .sync
    | .CWAIT => wait s (.counter h i k)
    | .TUNTIL => wait s (.until (if modField w 0 1 = 1 then slotImm w else g))
    | .SWAIT => wait s (.tags (if modField w 1 1 = 1 then tags else [g]))
    | .WFI => wait s .interrupt
    | .END => s.issueEnd n
    | .IRET => s.popInterrupt (n - 256)
    | _ => s

/-! ## The bundle -/

/-- The end of a bundle: `STEP` halts again (R81). -/
def Core.stepped (c : Core) : Core :=
  if c.stepOne then
    if c.state = .running then { c with state := .halted, stepOne := false }
    else if c.state = .waiting then { c with haltReq := true, stepOne := false }
    else { c with stepOne := false }
  else c

/-- The register results of a bundle. C-slot tags are written as the commands issue. -/
def State.bundleResults (s : State) (n : Nat) (c : Core) (b : BitVec 1024) : List Result :=
  c.scalarOut (c.active b 0) ++ c.scalarOut (c.active b 1) ++ c.vectorOut (c.active b 3) c.rngPos.toNat ++
    c.vectorOut (c.active b 4) (c.rngPos.toNat + c.drawsOf (bundleSlot b 3)) ++ s.branchOut n c (c.active b 7)

/-- A legal, ready and faultless bundle takes its effect. -/
def State.commit (s : State) (n : Nat) (b : BitVec 1024) : State :=
  let c := s.coreAt n
  let tags := (s.alcove n).liveTags
  let vdraws := c.drawsOf (bundleSlot b 3) + c.drawsOf (bundleSlot b 4)
  let cdraws := match c.active b 6 with
    | some (o, w) => c.drainDraws o w
    | none => 0
  let results := s.bundleResults n c b
  let s1 := (s.shadowIssue n (c.active b 5)).shadowIssue n (c.active b 6)
  let s2 := (s1.issueC n (c.active b 6) (c.active b 2) (c.rngPos.toNat + vdraws)).issueX n (c.active b 5)
  let m := s2.issueM n c (c.active b 2)
  let s3 := m.1.onCoreAt n fun y =>
    let y1 := (y.follow (c.flow (c.active b 7))).drawn (vdraws + cdraws)
    (((results ++ m.2).foldl Core.receive y1).csrOut c (c.active b 0)).csrOut c (c.active b 1)
  let s4 := (s3.issueB n c tags (c.active b 7)).onCoreAt n Core.stepped
  let s5 := if isFirmwareCore n then s4 else s4.wrapFld F.ALC_BUNDLE_COUNT_COUNT 1 n
  s5.posted n c (c.active b 2)

/-- Whether an address breakpoint stands at the bundle (R81). -/
def State.breaks (s : State) (n : Nat) : Bool :=
  let c := s.coreAt n
  !isFirmwareCore n && !c.passBreak &&
    ((s.fld F.ALC_CTRL_BREAK0_EN n == 1 && s.fld F.ALC_BREAK0_PC n == c.pc) ||
      (s.fld F.ALC_CTRL_BREAK1_EN n == 1 && s.fld F.ALC_BREAK1_PC n == c.pc))

/-- Core `n` halts before its bundle (R81). -/
def State.haltCore (s : State) (n : Nat) : State :=
  let s1 := s.onCoreAt n fun c => { c with state := .halted, haltReq := false, stepOne := false }
  if isFirmwareCore n then s1.reassignAll else s1

/-- A cycle in which alcove `n` cannot issue. -/
def State.stalled (s : State) (n : Nat) : State :=
  if isFirmwareCore n then s else s.wrapFld F.ALC_STALL_COUNT_COUNT 1 n

/-- A fetched bundle of core `n`: it faults, halts, stalls or issues (R63, R71, R72, R81). -/
def State.issueFetched (s : State) (n : Nat) (f : Fetched) : State :=
  let x := s.alcove n
  let halts := (s.coreAt n).haltReq || s.breaks n
  if f.poison then s.coreFault n 0x08 0 (0x7000 + f.idx)
  else if !isFirmwareCore n && x.atSavePoint then s
  else
    match bundleIllegal (isFirmwareCore n) x.modeIssued f.bits with
    | some d => s.coreFault n 0x02 0 d
    | none =>
      if !s.bundleReady n f.bits then if halts then s.haltCore n else s.stalled n
      else
        match s.bundleFault n f.bits with
        | some (code, k, d) => s.coreFault n code k d
        | none => if halts then s.haltCore n else s.commit n f.bits

/-- Whether core `n` may issue. -/
def State.mayIssue (s : State) (n : Nat) : Bool :=
  (s.coreAt n).state == .running && (isFirmwareCore n || (!(s.alcove n).saving && (s.alcove n).abortBy.isNone))

/-- The source that core `n` takes at its bundle boundary instead (R351). -/
def State.takesInstead (s : State) (n : Nat) : Option Nat := if isFirmwareCore n then s.takable (n - 256) else none

/-- R351, R352: a controller whose bundle was `IRET` takes the next source at the same boundary. -/
def State.retake (s : State) (n : Nat) (iret : Bool) : State :=
  if iret && s.mayIssue n then
    match s.takesInstead n with
    | some src => s.takeSource (n - 256) src
    | none => s
  else s

/-- Whether slot B of a bundle holds `IRET` and is on. -/
def Core.returns (c : Core) (b : BitVec 1024) : Bool := (c.active b 7).any (·.1 == .IRET)

/-- R51: core `n` issues one bundle, or takes an interrupt, halts, faults or stalls instead. -/
def doBundleIssue (n : Nat) (s : State) : State :=
  if !s.mayIssue n then s
  else
    match s.takesInstead n with
    | some src => s.takeSource (n - 256) src
    | none =>
      let s1 := s.fetch n
      let c := s1.coreAt n
      match c.prefetch.head? with
      | some f => (s1.issueFetched n f).retake n (c.returns f.bits)
      | none => if bundleLimit n ≤ c.pc then s1.coreFault n 0x04 7 c.pc else s1

end Sys2Proof.Machine
end

