-- ==== Sys2Proof/Machine/CmdIssue.lean ====
section
/-! DEFINITION. The commands of bundle issue (R51). -/

namespace Sys2Proof.Machine

/-- BUNDLE_ISSUE (R51): An alcove or hall controller issues one bundle, all eight slot operations together,
once its scoreboard and queues allow. -/
def execBundleIssue (n : Fin 265) (s : State) : Host.Outcome State Fault Refusal :=
  .next ((doBundleIssue n.val s).settle)

end Sys2Proof.Machine
end

