-- ==== Sys2Proof/Machine/CmdPwr.lean ====
section
/-! DEFINITION. The commands of power, clocks and pins (R493 to R514). -/

namespace Sys2Proof.Machine

/-- PWR_OK_IN_FALL (R502): PWR_OK_IN falling enters cold reset within 1 µs and drops SEQ_EN and the core
rails. -/
def execPwrOkInFall (s : State) : Host.Outcome State Fault Refusal :=
  .next (doPwrOkInFall s)

/-- RAIL_REGULATION_TIMEOUT (R501): A rail not in regulation within its sequencing limit is a sequencing
failure. -/
def execRailRegulationTimeout (rail : Nat) (s : State) : Host.Outcome State Fault Refusal :=
  .next (doRailRegulationTimeout rail s)

/-- POWER_LIMIT_EVALUATE (R505): Every 1 ms the PMC reads the rails, computes board power and moves the
board and hall caps. -/
def execPowerLimitEvaluate (watts : List Nat) (mv : List Nat) (good : Nat) (s : State) : Host.Outcome State Fault Refusal :=
  .next (doPowerLimitEvaluate watts mv good s)

/-- CLOCK_GLIDE_STEP (R504): The hall PLL glides the running clock by one 25 MHz step toward its target. -/
def execClockGlideStep (h : Fin 8) (s : State) : Host.Outcome State Fault Refusal :=
  .next (doClockGlideStep h.val s)

/-- THROTTLE_N_FALL (R506): THROTTLE_N falling sets every hall's running clock to 1.00 GHz. -/
def execThrottleNFall (s : State) : Host.Outcome State Fault Refusal :=
  .next (doThrottleNFall s)

/-- THROTTLE_N_RISE (R506): THROTTLE_N released returns halls to their other caps at 25 MHz per 100 µs. -/
def execThrottleNRise (s : State) : Host.Outcome State Fault Refusal :=
  .next (doThrottleNRise s)

/-- THERMAL_SAMPLE (R508): Every 100 µs hall sensors are sampled and the thermal step and cap updated. -/
def execThermalSample (h : Fin 8) (t : Int) (s : State) : Host.Outcome State Fault Refusal :=
  .next (doThermalSample h.val t s)

/-- THERMAL_TRIP (R509): A hall at 115 °C or stack at 110 °C drives THERM_TRIP_N and holds the device in
reset. -/
def execThermalTrip (s : State) : Host.Outcome State Fault Refusal :=
  .next (doThermalTrip s)

/-- RAIL_FAULT_IN_SERVICE (R511): A rail leaving regulation in service causes a cold reset. -/
def execRailFaultInService (rail : Nat) (s : State) : Host.Outcome State Fault Refusal :=
  .next (doRailFaultInService rail s)

end Sys2Proof.Machine
end

