-- ==== Sys2Proof/Machine/CmdRas.lean ====
section
/-! DEFINITION. The commands of fault handling (R424 to R445). -/

namespace Sys2Proof.Machine

/-- BUCKET_LEAK (R426): Every LEAK_MS each channel's bucket level falls by 1. -/
def execBucketLeak (kind : Fin 9) (s : State) : Host.Outcome State Fault Refusal :=
  .next (doBucketLeak kind.val s)

/-- CHANNEL_RETIRE (R434): A channel is retired, stopping what the table gives, writing a RETIRED record and
updating the retirement list. -/
def execChannelRetire (ch : Fin 65536) (s : State) : Host.Outcome State Fault Refusal :=
  .next ((doChannelRetire ch.val s).settle)

/-- BRIDGE_FLIT_CRC_ERROR (R425): A bridge flit failing CRC is resent within 1 µs and charged TUE. -/
def execBridgeFlitCrcError (lane : Fin 288) (s : State) : Host.Outcome State Fault Refusal :=
  .next (doBridgeFlitCrcError lane.val s)

/-- BRIDGE_LANE_LOCK_LOSS (R425): A bridge lane losing lock relocks within 1 µs, or is retired. -/
def execBridgeLaneLockLoss (lane : Fin 288) (relocked : Bool) (s : State) : Host.Outcome State Fault Refusal :=
  .next ((doBridgeLaneLockLoss lane.val relocked s).settle)

/-- RAS_RECORD_STORE (R444): The PMC writes a RAS record to the flash record store within 10 ms, wrapping
around retained records. -/
def execRasRecordStore (s : State) : Host.Outcome State Fault Refusal :=
  .next (doRasRecordStore s)

/-- ALCOVE_ISLAND_SILENT (R425): An alcove island that gives no handshake for 10 µs fires detector 0x0F, a
hard signature that retires the alcove at once. -/
def execAlcoveIslandSilent (n : Fin 256) (s : State) : Host.Outcome State Fault Refusal :=
  .next ((doAlcoveIslandSilent n.val s).settle)

end Sys2Proof.Machine
end

