-- ==== Sys2Proof/Machine/CmdRegAccess.lean ====
section
/-! DEFINITION. The commands of registers (R7 to R11, R515 to R526). -/

namespace Sys2Proof.Machine

/-- REGISTER_WRITE (R7): A software write to a register field that has no row of its own takes effect under
its access code and same-cycle code. -/
def execRegisterWrite (agent : Agent) (addr : Nat) (size : Nat) (value : Nat) (same : Option SameUpdate) (s : State) : Host.Outcome State Fault Refusal :=
  .next ((doRegisterWrite agent addr size value same s).settle)

/-- REGISTER_CLEARING_READ (R11): A read of an RC field returns its value and clears it, keeping any same-
cycle hardware update. -/
def execRegisterClearingRead (agent : Agent) (addr : Nat) (size : Nat) (same : Option SameUpdate) (s : State) : Host.Outcome State Fault Refusal :=
  .next (doRegisterClearingRead agent addr size same s)

/-- TIME_NOW_LO_READ (R519): A read of TIME_NOW_LO returns the low count and latches the high bits into the
reading agent's own NOW_HI latch. -/
def execTimeNowLoRead (agent : Agent) (same : Option SameUpdate) (s : State) : Host.Outcome State Fault Refusal :=
  .next (doTimeNowLoRead agent same s)

/-- TIME_CTRL_WRITE (R50): A write to TIME_CTRL sets role, priority and PPS enables; a role change starts
election, and clearing PPS_IN_EN while waiting starts the count. -/
def execTimeCtrlWrite (agent : Agent) (value : Nat) (s : State) : Host.Outcome State Fault Refusal :=
  .next ((doNamedWrite agent .TIME_CTRL 0 0 value s).settle)

/-- ALC_HALT (R81): Writing HALT stops the alcove at its next bundle boundary in HALTED. -/
def execAlcHalt (agent : Agent) (n : Fin 256) (value : Nat) (s : State) : Host.Outcome State Fault Refusal :=
  .next ((doBitWrite agent F.ALC_CTRL_HALT n.val 0 value s).settle)

/-- ALC_RESUME (R81): Writing RESUME continues a halted alcove. -/
def execAlcResume (agent : Agent) (n : Fin 256) (value : Nat) (s : State) : Host.Outcome State Fault Refusal :=
  .next ((doBitWrite agent F.ALC_CTRL_RESUME n.val 0 value s).settle)

/-- ALC_STEP (R81): Writing STEP issues exactly one bundle from HALTED and halts again. -/
def execAlcStep (agent : Agent) (n : Fin 256) (value : Nat) (s : State) : Host.Outcome State Fault Refusal :=
  .next ((doBitWrite agent F.ALC_CTRL_STEP n.val 0 value s).settle)

/-- HC_HALT (R83): Writing ALC_HC_CTRL.HALT halts the hall controller at its next bundle boundary. -/
def execHcHalt (agent : Agent) (h : Fin 8) (value : Nat) (s : State) : Host.Outcome State Fault Refusal :=
  .next ((doBitWrite agent F.ALC_HC_CTRL_HALT h.val 0 value s).settle)

/-- HC_RESUME (R83): Writing ALC_HC_CTRL.RESUME continues a halted hall controller. -/
def execHcResume (agent : Agent) (h : Fin 8) (value : Nat) (s : State) : Host.Outcome State Fault Refusal :=
  .next ((doBitWrite agent F.ALC_HC_CTRL_RESUME h.val 0 value s).settle)

/-- HC_RESTART (R355): Writing RESTART restarts the hall controller at bundle 0, empties its interrupt stack
and returns active sources to PENDING. -/
def execHcRestart (agent : Agent) (h : Fin 8) (value : Nat) (s : State) : Host.Outcome State Fault Refusal :=
  .next ((doBitWrite agent F.ALC_HC_CTRL_RESTART h.val 0 value s).settle)

/-- SDC_SELFTEST_WRITE (R453): Writing SDC_SH_CTRL.SELFTEST runs the shadow self-test now. -/
def execSdcSelftestWrite (agent : Agent) (h : Fin 8) (value : Nat) (s : State) : Host.Outcome State Fault Refusal :=
  .next ((doBitWrite agent F.SDC_SH_CTRL_SELFTEST h.val 0 value s).settle)

/-- MEZ_INVAL_ALL (R206): Writing MEZ_CTRL.INVAL_ALL invalidates every line in 1,024 fabric cycles. -/
def execMezInvalAll (agent : Agent) (h : Fin 8) (value : Nat) (s : State) : Host.Outcome State Fault Refusal :=
  .next ((doBitWrite agent F.MEZ_CTRL_INVAL_ALL h.val 0 value s).settle)

/-- TGEN_START (R233): Writing TGEN_CTRL.START begins a generator run, or is refused outside TEST. -/
def execTgenStart (agent : Agent) (c : Fin 256) (value : Nat) (s : State) : Host.Outcome State Fault Refusal :=
  .next ((doBitWrite agent F.TGEN_CTRL_START c.val 0 value s).settle)

/-- TGEN_ABORT (R233): Writing TGEN_CTRL.ABORT ends the run in state aborted. -/
def execTgenAbort (agent : Agent) (c : Fin 256) (value : Nat) (s : State) : Host.Outcome State Fault Refusal :=
  .next ((doBitWrite agent F.TGEN_CTRL_ABORT c.val 0 value s).settle)

/-- SYNC_READ (R256): SYNC_CMD READ copies an object's record into SYNC_DATA. -/
def execSyncRead (agent : Agent) (h : Fin 8) (kind : Fin 8) (i : Fin 4096) (s : State) : Host.Outcome State Fault Refusal :=
  .next ((doSyncWrite agent h.val 0 kind.val i.val s).settle)

/-- SYNC_WRITE (R256): SYNC_CMD WRITE configures an object from SYNC_DATA, refused when busy or invalid. -/
def execSyncWrite (agent : Agent) (h : Fin 8) (kind : Fin 8) (i : Fin 4096) (s : State) : Host.Outcome State Fault Refusal :=
  .next ((doSyncWrite agent h.val 1 kind.val i.val s).settle)

/-- SYNC_INIT (R256): SYNC_CMD INIT returns an object to phase 0 with zero counts, refused while waiters
exist. -/
def execSyncInit (agent : Agent) (h : Fin 8) (kind : Fin 8) (i : Fin 4096) (s : State) : Host.Outcome State Fault Refusal :=
  .next ((doSyncWrite agent h.val 2 kind.val i.val s).settle)

/-- SYNC_DISABLE (R256): SYNC_CMD DISABLE unconfigures an object, refused when busy. -/
def execSyncDisable (agent : Agent) (h : Fin 8) (kind : Fin 8) (i : Fin 4096) (s : State) : Host.Outcome State Fault Refusal :=
  .next ((doSyncWrite agent h.val 3 kind.val i.val s).settle)

/-- VST_ADMIN_CTRL_WRITE (R316): A write to VST_ADMIN_CTRL enables or disables the admin queue and sets its
sizes only while disabled. -/
def execVstAdminCtrlWrite (agent : Agent) (v : Fin 256) (value : Nat) (s : State) : Host.Outcome State Fault Refusal :=
  .next ((doNamedWrite agent .VST_ADMIN_CTRL v.val 0 value s).settle)

/-- PARTITION_RESET (R342): Writing PART_CTRL.RESET resets the partition's interfaces, wipes its memories,
swaps spares and applies LOCAL. -/
def execPartitionReset (agent : Agent) (p : Fin 16) (value : Nat) (s : State) : Host.Outcome State Fault Refusal :=
  .next ((doBitWrite agent F.PART_CTRL_RESET p.val 0 value s).settle)

/-- VI_RESET (R341): A virtual-interface reset destroys its queues, frees pool blocks and wipes and releases
its allocations. -/
def execViReset (v : Fin 256) (s : State) : Host.Outcome State Fault Refusal :=
  .next ((doViReset v.val s).settle)

/-- IC_TGT_EOI_WRITE (R353): Writing a source to IC_TGT_EOI completes it, or sets BAD_EOI. -/
def execIcTgtEoiWrite (agent : Agent) (t : Fin 10) (value : Nat) (s : State) : Host.Outcome State Fault Refusal :=
  .next ((doNamedWrite agent .IC_TGT_EOI t.val 0 value s).settle)

/-- IC_SWI_WRITE (R359): Writing IC_SWI fires a software source, or sets BAD_EOI. -/
def execIcSwiWrite (agent : Agent) (value : Nat) (s : State) : Host.Outcome State Fault Refusal :=
  .next ((doNamedWrite agent .IC_SWI 0 0 value s).settle)

/-- IC_SRC_CFG_WRITE (R347): Writing IC_SRC_CFG configures a source; enabling assigns a pending source. -/
def execIcSrcCfgWrite (agent : Agent) (src : Fin 1024) (value : Nat) (s : State) : Host.Outcome State Fault Refusal :=
  .next ((doNamedWrite agent .IC_SRC_CFG src.val 0 value s).settle)

/-- IC_TGT_CTRL_WRITE (R348): Writing IC_TGT_CTRL enables or disables a target, reassigning its pending
sources. -/
def execIcTgtCtrlWrite (agent : Agent) (t : Fin 10) (value : Nat) (s : State) : Host.Outcome State Fault Refusal :=
  .next ((doNamedWrite agent .IC_TGT_CTRL t.val 0 value s).settle)

/-- IC_VI_NOTICE_WRITE (R358): Enabling a virtual interface's notice sends a pending notice. -/
def execIcViNoticeWrite (agent : Agent) (v : Fin 256) (value : Nat) (s : State) : Host.Outcome State Fault Refusal :=
  .next ((doNamedWrite agent .IC_VI_NOTICE v.val 0 value s).settle)

/-- IC_VI_EOI_WRITE (R358): Writing IC_VI_EOI completes the interface's notice. -/
def execIcViEoiWrite (agent : Agent) (v : Fin 256) (value : Nat) (s : State) : Host.Outcome State Fault Refusal :=
  .next ((doNamedWrite agent .IC_VI_EOI v.val 0 value s).settle)

/-- PORT_ENABLE (R364): Setting CLZ_PORT_CTRL.ENABLE starts port bring-up. -/
def execPortEnable (agent : Agent) (p : Fin 64) (value : Nat) (s : State) : Host.Outcome State Fault Refusal :=
  .next ((doBitWrite agent F.CLZ_PORT_CTRL_ENABLE p.val 0 value s).settle)

/-- PORT_RETRAIN (R371): Writing RETRAIN enters RECOVER with a full retrain. -/
def execPortRetrain (agent : Agent) (p : Fin 64) (value : Nat) (s : State) : Host.Outcome State Fault Refusal :=
  .next ((doBitWrite agent F.CLZ_PORT_CTRL_RETRAIN p.val 0 value s).settle)

/-- PORT_RETIRE_WRITE (R392): Writing RETIRE retires the port. -/
def execPortRetireWrite (agent : Agent) (p : Fin 64) (value : Nat) (s : State) : Host.Outcome State Fault Refusal :=
  .next ((doBitWrite agent F.CLZ_PORT_CTRL_RETIRE p.val 0 value s).settle)

/-- LANE_OFF_CHANGE (R366): A change of LANE_OFF starts RECOVER at the recomputed width. -/
def execLaneOffChange (agent : Agent) (p : Fin 64) (value : Nat) (s : State) : Host.Outcome State Fault Refusal :=
  .next ((doNamedWrite agent .CLZ_PORT_CTRL p.val 0 value s).settle)

/-- WINDOW_ARM (R387): Writing CLZ_WIN_CFG.ENABLE arms a window if it passes its checks, else sets REFUSED.
-/
def execWindowArm (agent : Agent) (p : Fin 64) (w : Fin 16) (value : Nat) (s : State) : Host.Outcome State Fault Refusal :=
  .next ((doBitWrite agent F.CLZ_WIN_CFG_ENABLE p.val w.val value s).settle)

/-- RAS_RETIRE_WRITE (R429): Writing RAS_RETIRE retires the named channel within 100 µs. -/
def execRasRetireWrite (agent : Agent) (value : Nat) (s : State) : Host.Outcome State Fault Refusal :=
  .next ((doNamedWrite agent .RAS_RETIRE 0 0 value s).settle)

/-- RAS_REC_CMD_WRITE (R445): Writing RAS_REC_CMD loads a stored record into RAS_REC_DATA. -/
def execRasRecCmdWrite (agent : Agent) (value : Nat) (s : State) : Host.Outcome State Fault Refusal :=
  .next ((doNamedWrite agent .RAS_REC_CMD 0 0 value s).settle)

/-- INJ_ARM_WRITE (R465): Writing ARM 1 checks an injector and arms it or sets REFUSED. -/
def execInjArmWrite (agent : Agent) (i : Fin 16) (value : Nat) (s : State) : Host.Outcome State Fault Refusal :=
  .next ((doBitWrite agent F.INJ_CTRL_ARM i.val 0 value s).settle)

/-- INJ_DISARM_WRITE (R466): Writing ARM 0 returns an injector to IDLE. -/
def execInjDisarmWrite (agent : Agent) (i : Fin 16) (value : Nat) (s : State) : Host.Outcome State Fault Refusal :=
  .next ((doNamedWrite agent .INJ_CTRL i.val 0 (F.INJ_CTRL_ARM.put (value % 2 ^ 32) 0) s).settle)

/-- MGT_REGISTER_READ (R414): A vendor-defined READ returns a package register value. -/
def execMgtRegisterRead (addr : Nat) (s : State) : Host.Outcome State Fault Refusal :=
  .next (doMgtRegisterRead addr s)

/-- MGT_REGISTER_WRITE (R414): A vendor-defined WRITE writes a package register. -/
def execMgtRegisterWrite (addr : Nat) (value : Nat) (s : State) : Host.Outcome State Fault Refusal :=
  .next ((doMgtRegisterWrite addr value s).settle)

/-- REGISTER_BRIDGE_UPDATE (R422): An update of the IEEE 1687 register bridge starts a register access with
management rights. -/
def execRegisterBridgeUpdate (value : Nat) (s : State) : Host.Outcome State Fault Refusal :=
  .next ((doRegisterBridgeUpdate value s).settle)

/-- BOOT_CTRL_COLD (R471): Writing BOOT_CTRL.COLD starts a cold reset. -/
def execBootCtrlCold (agent : Agent) (value : Nat) (s : State) : Host.Outcome State Fault Refusal :=
  .next ((doBitWrite agent F.BOOT_CTRL_COLD 0 0 value s).settle)

/-- BOOT_CTRL_WARM (R471): Writing BOOT_CTRL.WARM starts a warm reset. -/
def execBootCtrlWarm (agent : Agent) (value : Nat) (s : State) : Host.Outcome State Fault Refusal :=
  .next ((doBitWrite agent F.BOOT_CTRL_WARM 0 0 value s).settle)

/-- BOOT_CTRL_PART_ALL (R471): Writing BOOT_CTRL.PART_ALL starts a partition-wide reset that applies a
pending profile. -/
def execBootCtrlPartAll (agent : Agent) (value : Nat) (s : State) : Host.Outcome State Fault Refusal :=
  .next ((doBitWrite agent F.BOOT_CTRL_PART_ALL 0 0 value s).settle)

/-- BOOT_OVERRIDE_WRITE (R484): Writing the matching code to BOOT_OVERRIDE ends restricted mode. -/
def execBootOverrideWrite (agent : Agent) (value : Nat) (s : State) : Host.Outcome State Fault Refusal :=
  .next ((doNamedWrite agent .BOOT_OVERRIDE 0 0 value s).settle)

/-- LC_ARM (R490): LC_CMD ARM records a pending life-cycle transition. -/
def execLcArm (agent : Agent) (value : Nat) (s : State) : Host.Outcome State Fault Refusal :=
  .next ((doLcWrite agent 1 value s).settle)

/-- LC_COMMIT (R490): LC_CMD COMMIT commits an armed legal transition and performs a cold reset, or is
refused. -/
def execLcCommit (agent : Agent) (value : Nat) (s : State) : Host.Outcome State Fault Refusal :=
  .next ((doLcWrite agent 2 value s).settle)

/-- LC_STORE_ID (R491): LC_CMD STORE_ID writes the next device ID for the next cold reset. -/
def execLcStoreId (agent : Agent) (value : Nat) (s : State) : Host.Outcome State Fault Refusal :=
  .next ((doLcWrite agent 3 value s).settle)

end Sys2Proof.Machine
end

