-- ==== Sys2Proof/Machine/CmdSdc.lean ====
section
/-! DEFINITION. The commands of the silent-error defence (R446 to R463). -/

namespace Sys2Proof.Machine

/-- SHADOW_SELFTEST_COMPLETE (R453): After 50 µs the self-test passes, confirming a mismatch charge, or
fails and disables the shadow. -/
def execShadowSelftestComplete (h : Fin 8) (ok : Bool) (step : Nat) (s : State) : Host.Outcome State Fault Refusal :=
  .next ((doShadowSelftestComplete h.val ok step s).settle)

/-- SHADOW_SELFTEST_TIMER (R453): Every SELFTEST_MS while idle the shadow runs its self-test. -/
def execShadowSelftestTimer (h : Fin 8) (s : State) : Host.Outcome State Fault Refusal :=
  .next (doShadowSelftestTimer h.val s)

/-- SCAN_ROUND_START (R455): When enabled and ROUND_MS has passed, a scan round applies the next set to one
idle target per hall. -/
def execScanRoundStart (s : State) : Host.Outcome State Fault Refusal :=
  .next (doScanRoundStart s)

/-- SCAN_CHUNK_DELIVER (R455): The PMC reads a 64 KiB chunk of the set from flash and sends it to the halls.
-/
def execScanChunkDeliver (s : State) : Host.Outcome State Fault Refusal :=
  .next (doScanChunkDeliver s)

/-- SCAN_ROUND_END (R457): Domain signatures are compared; a failure starts a retest. -/
def execScanRoundEnd (h : Fin 8) (mask : Nat) (s : State) : Host.Outcome State Fault Refusal :=
  .next (doScanRoundEnd h.val mask s)

/-- SCAN_RETEST_END (R457): A retest that passes records a transient failure; one that fails retires the
failing domains' channels. -/
def execScanRetestEnd (h : Fin 8) (mask : Nat) (pattern : Nat) (diff : Nat) (s : State) : Host.Outcome State Fault Refusal :=
  .next ((doScanRetestEnd h.val mask pattern diff s).settle)

/-- PACK_INSTALL (R459): A verified pattern pack is placed, replaces, withdraws or is refused, writing a
PACK record. -/
def execPackInstall (s : State) : Host.Outcome State Fault Refusal :=
  .next (doPackInstall s)

/-- SCAN_AREA_UPDATE (R460): A verified scan-area image replaces the base sets after any round finishes. -/
def execScanAreaUpdate (s : State) : Host.Outcome State Fault Refusal :=
  .next (doScanAreaUpdate s)

/-- FOCUS_PACK_EVALUATE (R461): Every 1 ms the effective sampling rate and checksum mask are re-evaluated
and expiries applied. -/
def execFocusPackEvaluate (s : State) : Host.Outcome State Fault Refusal :=
  .next (doFocusPackEvaluate s)

end Sys2Proof.Machine
end

