-- ==== Sys2Proof/Machine/CmdSync.lean ====
section
/-! DEFINITION. The commands of the landing units and the stairwell (R235 to R258). -/

namespace Sys2Proof.Machine

/-- TOKEN_SIGNAL (R238): A signal reaching its token queue adds tokens up to LIMIT, recording overflow. -/
def execTokenSignal (i : Nat) (s : State) : Host.Outcome State Fault Refusal :=
  .next (doTokenSignal i s)

/-- TOKEN_WAIT (R239): A wait reaching a token queue joins its waiter list, or is released at once for count
0. -/
def execTokenWait (i : Nat) (s : State) : Host.Outcome State Fault Refusal :=
  .next (doTokenWait i s)

/-- TOKEN_WAITER_RELEASE (R239): While VALUE covers the head waiter, one waiter per cycle is served and
released. -/
def execTokenWaiterRelease (hall : Fin 8) (i : Fin 4096) (s : State) : Host.Outcome State Fault Refusal :=
  .next (doTokenWaiterRelease hall.val i.val s)

/-- TOKEN_TRY (R240): A try reaching a token queue consumes tokens if the list is empty and VALUE suffices,
and answers. -/
def execTokenTry (i : Nat) (s : State) : Host.Outcome State Fault Refusal :=
  .next (doTokenTry i s)

/-- LANDING_ARRIVAL (R241): An arrival is counted, held as early, treated as excess or ignored as double,
completing the generation at the required count. -/
def execLandingArrival (i : Nat) (s : State) : Host.Outcome State Fault Refusal :=
  .next (doLandingArrival i s)

/-- LANDING_WAIT (R244): An LWAIT reaching the unit waits or continues according to the agent's unreleased
arrivals. -/
def execLandingWait (i : Nat) (s : State) : Host.Outcome State Fault Refusal :=
  .next (doLandingWait i s)

/-- TIMED_LANDING_RELEASE (R246): A completed timed generation releases at RELEASE_NEXT, or on completion
when LATE, and advances RELEASE_NEXT. -/
def execTimedLandingRelease (hall : Fin 8) (l : Fin 1024) (s : State) : Host.Outcome State Fault Refusal :=
  .next (doTimedLandingRelease hall.val l.val s)

/-- LANDING_STALL_DETECT (R247): A generation not complete STALL treads after its first arrival sets
LANDING_STALLED once. -/
def execLandingStallDetect (hall : Fin 8) (l : Fin 1024) (s : State) : Host.Outcome State Fault Refusal :=
  .next (doLandingStallDetect hall.val l.val s)

/-- ASCENT_RECEIVE (R252): An ascent from a child port is counted at the mapped landing, or answered for
RESEND. -/
def execAscentReceive (i : Nat) (s : State) : Host.Outcome State Fault Refusal :=
  .next (doAscentReceive i s)

/-- DESCENT_RECEIVE (R252): A descent for the current phase is forwarded to children and releases the local
participants. -/
def execDescentReceive (i : Nat) (s : State) : Host.Outcome State Fault Refusal :=
  .next (doDescentReceive i s)

end Sys2Proof.Machine
end

