-- ==== Sys2Proof/Machine/CmdTime.lean ====
section
/-! DEFINITION. The commands of stair time (R24 to R50). -/

namespace Sys2Proof.Machine

/-- ROOT_ANNOUNCEMENT_SEND (R27): Every 1,024 treads a device sends a root announcement on each working
Coluz port. -/
def execRootAnnouncementSend (s : State) : Host.Outcome State Fault Refusal :=
  .next (doRootAnnouncementSend s)

/-- ANNOUNCE_RECEIVE (R27): A received ANNOUNCE updates root choice, hop count and upstream port by the
election order. -/
def execAnnounceReceive (port : Fin 64) (s : State) : Host.Outcome State Fault Refusal :=
  .next (doAnnounceReceive port.val s)

/-- UPSTREAM_PATH_LOST (R29): Eight missed announcements from the upstream port mark the path lost. -/
def execUpstreamPathLost (s : State) : Host.Outcome State Fault Refusal :=
  .next (doUpstreamPathLost s)

/-- UPSTREAM_PORT_SWITCH (R29): A device whose path was lost switches to another working port that reaches
the same root within 10 µs. -/
def execUpstreamPortSwitch (s : State) : Host.Outcome State Fault Refusal :=
  .next (doUpstreamPortSwitch s)

/-- ROOT_ELECTION_COMPLETE (R29): After a root is lost, election completes within 100 µs and the new root
continues from its own replica; ROOT_CHANGE is set. -/
def execRootElectionComplete (s : State) : Host.Outcome State Fault Refusal :=
  .next (doRootElectionComplete s)

/-- DOMAIN_COUNT_START (R30): A root reaching LOCKED with no PPS input starts the domain count at the
starting value. -/
def execDomainCountStart (s : State) : Host.Outcome State Fault Refusal :=
  .next (doDomainCountStart s)

/-- PPS_IN_EDGE (R30): A rising edge on TIME_PPS_IN at a waiting root starts the count at a whole second. -/
def execPpsInEdge (s : State) : Host.Outcome State Fault Refusal :=
  .next (doPpsInEdge s)

/-- PPS_WAIT_TIMEOUT (R30): With no PPS edge within 2 s of LOCKED, the count starts at the starting value
and PPS_PRESENT reads 0. -/
def execPpsWaitTimeout (s : State) : Host.Outcome State Fault Refusal :=
  .next (doPpsWaitTimeout s)

/-- PPS_OUT_PULSE (R31): When the package time master's replica crosses a multiple of 10^9 treads, a 10 µs
pulse is driven on TIME_PPS_OUT. -/
def execPpsOutPulse (s : State) : Host.Outcome State Fault Refusal :=
  .next (doPpsOutPulse s)

/-- TIME_REF_IN_PRESENT (R32): TIME_REF_IN becoming present makes a root slew to it or return from HOLDOVER
to LOCKED without stepping. -/
def execTimeRefInPresent (s : State) : Host.Outcome State Fault Refusal :=
  .next (doTimeRefInPresent s)

/-- TIME_REF_IN_LOST (R38): Loss of TIME_REF_IN sets REF_LOST; a root enters HOLDOVER and a follower changes
to the SerDes reference. -/
def execTimeRefInLost (s : State) : Host.Outcome State Fault Refusal :=
  .next (doTimeRefInLost s)

/-- TIME_BEAT_SEND (R33): Every 256 treads the package time master and each slice send time beats to slices
and islands. -/
def execTimeBeatSend (s : State) : Host.Outcome State Fault Refusal :=
  .next (doTimeBeatSend s)

/-- TIME_BEAT_RECEIVE (R35): A replica receiving a beat runs the discipline loop, stepping, holding or
slewing and updating its state. -/
def execTimeBeatReceive (path : Island ⊕ Fin 64) (s : State) : Host.Outcome State Fault Refusal :=
  .next (doTimeBeatReceive path s)

/-- BEAT_LOSS_HOLDOVER (R40): No beat for 8 intervals moves a LOCKED replica to HOLDOVER with its frequency
correction frozen. -/
def execBeatLossHoldover (i : Island) (s : State) : Host.Outcome State Fault Refusal :=
  .next (doBeatLossHoldover i s)

/-- BRIDGE_PATH_DELAY_MEASURE (R34): Every 65,536 treads and after a lane change each time relay measures
its bridge time paths. -/
def execBridgePathDelayMeasure (h : Fin 8) (delay : Nat) (s : State) : Host.Outcome State Fault Refusal :=
  .next (doBridgePathDelayMeasure h.val delay s)

/-- DELAY_EXCHANGE_START (R386): Every 65,536 treads the upstream side of a link sends DELAY_REQ and records
t1. -/
def execDelayExchangeStart (p : Fin 64) (s : State) : Host.Outcome State Fault Refusal :=
  .next (doDelayExchangeStart p.val s)

/-- DELAY_REQ_RECEIVE (R386): The downstream side records t2 and answers with DELAY_RESP carrying t2 and t3.
-/
def execDelayReqReceive (p : Fin 64) (s : State) : Host.Outcome State Fault Refusal :=
  .next (doDelayReqReceive p.val s)

/-- DELAY_RESP_RECEIVE (R386): The upstream side records t4 and sends DELAY_FOLLOW with t1 and t4. -/
def execDelayRespReceive (p : Fin 64) (s : State) : Host.Outcome State Fault Refusal :=
  .next (doDelayRespReceive p.val s)

/-- DELAY_FOLLOW_RECEIVE (R37): With four timestamps both sides compute delay and offset and update the
median delay. -/
def execDelayFollowReceive (p : Fin 64) (s : State) : Host.Outcome State Fault Refusal :=
  .next (doDelayFollowReceive p.val s)

/-- DELAY_EXCHANGE_DISCARD (R386): An exchange whose DELAY_FOLLOW has not arrived within 65,536 treads is
discarded. -/
def execDelayExchangeDiscard (p : Fin 64) (s : State) : Host.Outcome State Fault Refusal :=
  .next (doDelayExchangeDiscard p.val s)

/-- PPS_PRESENT_EXPIRE (R50): When no TIME_PPS_IN pulse has been seen for 1.1 s, TIME_STATUS.PPS_PRESENT
falls to 0. -/
def execPpsPresentExpire (s : State) : Host.Outcome State Fault Refusal :=
  .next (doPpsPresentExpire s)

end Sys2Proof.Machine
end

