-- ==== Sys2Proof/Machine/CmdVst.lean ====
section
/-! DEFINITION. The commands of the vestibule (R283 to R316). -/

namespace Sys2Proof.Machine

/-- TIMED_LAUNCH (R42): An eligible timed operation launches at the first island edge at which the replica
has reached its launch tread. -/
def execTimedLaunch (q : Fin 4096) (i : Nat) (s : State) : Host.Outcome State Fault Refusal :=
  .next ((doTimedLaunch q.val i s).settle)

/-- RANGE_INVALIDATION_DONE (R197): A range or full mezzanine invalidation finishes, letting waiting
operations proceed. -/
def execRangeInvalidationDone (i : Nat) (s : State) : Host.Outcome State Fault Refusal :=
  .next ((doInvalidationDone i s).settle)

/-- GATHER_COMPLETE (R217): A narrow gather completes once every result packet is acknowledged, with
GATHER_RANGE on range errors. -/
def execGatherComplete (h : Fin 8) (s : State) : Host.Outcome State Fault Refusal :=
  .next ((doGatherComplete h.val s).settle)

/-- WORK_TAIL_READ (R293): The tail record of a work ring is read, stopping the queue if it overruns the
ring. -/
def execWorkTailRead (q : Fin 4096) (s : State) : Host.Outcome State Fault Refusal :=
  .next ((doWorkTailRead q.val s).settle)

/-- COMMAND_BUFFER_BEGIN (R298): After the previous buffer record, the next buffer is read and checked
before any operation dispatches. -/
def execCommandBufferBegin (q : Fin 4096) (s : State) : Host.Outcome State Fault Refusal :=
  .next ((doCommandBufferBegin q.val s).settle)

/-- OPERATION_READY (R301): An operation becomes READY once predecessors, invalidations, quarantine and
waits are satisfied. -/
def execOperationReady (q : Fin 4096) (i : Nat) (s : State) : Host.Outcome State Fault Refusal :=
  .next ((doOperationReady q.val i s).settle)

/-- KERNEL_DISPATCH (R302): A KERNEL is granted alcoves by strict priority and each rank is wiped, loaded
and given arguments and descriptor. -/
def execKernelDispatch (q : Fin 4096) (i : Nat) (s : State) : Host.Outcome State Fault Refusal :=
  .next ((doKernelDispatch q.val i s).settle)

/-- KERNEL_LAUNCH (R302): Once all ranks are loaded an untimed kernel launches on every rank in one fabric
cycle. -/
def execKernelLaunch (q : Fin 4096) (i : Nat) (s : State) : Host.Outcome State Fault Refusal :=
  .next ((doKernelLaunch q.val i s).settle)

/-- COPY_DISPATCH (R301): A COPY operation takes a queue place on its engine after its descriptor check. -/
def execCopyDispatch (q : Fin 4096) (i : Nat) (s : State) : Host.Outcome State Fault Refusal :=
  .next ((doCopyDispatch q.val i s).settle)

/-- GATHER_DISPATCH (R216): A GATHER takes its hall's narrow path after its descriptor check. -/
def execGatherDispatch (q : Fin 4096) (i : Nat) (s : State) : Host.Outcome State Fault Refusal :=
  .next ((doGatherDispatch q.val i s).settle)

/-- ANNEAL_DISPATCH (R263): An ANNEAL takes its hall's annealer after its descriptor check. -/
def execAnnealDispatch (q : Fin 4096) (i : Nat) (s : State) : Host.Outcome State Fault Refusal :=
  .next ((doAnnealDispatch q.val i s).settle)

/-- POOL_ALLOC (R314): Pops blocks from a pool and writes their addresses, all or none. -/
def execPoolAlloc (q : Fin 4096) (i : Nat) (s : State) : Host.Outcome State Fault Refusal :=
  .next ((doPoolAlloc q.val i s).settle)

/-- POOL_FREE (R314): Frees listed blocks, dropping double and non-owner frees. -/
def execPoolFree (q : Fin 4096) (i : Nat) (s : State) : Host.Outcome State Fault Refusal :=
  .next ((doPoolFree q.val i s).settle)

/-- NOP_OPERATION (R297): A NOP operation acts only through its sync and range lists. -/
def execNopOperation (q : Fin 4096) (i : Nat) (s : State) : Host.Outcome State Fault Refusal :=
  .next ((doNopOperation q.val i s).settle)

/-- PAUSE_CLAIM (R303): A higher-priority kernel claims alcoves of lower-priority pausable kernels and sends
pause requests. -/
def execPauseClaim (q : Fin 4096) (i : Nat) (s : State) : Host.Outcome State Fault Refusal :=
  .next ((doPauseClaim q.val i s).settle)

/-- RANK_SAVED (R304): A rank's state is saved into its slot; when all ranks are saved the operation is
PAUSED. -/
def execRankSaved (n : Fin 256) (s : State) : Host.Outcome State Fault Refusal :=
  .next ((doRankSaved n.val s).settle)

/-- OPERATION_RESUME (R306): A paused operation is granted alcoves, restored and issues from its saved
TWADV. -/
def execOperationResume (q : Fin 4096) (i : Nat) (s : State) : Host.Outcome State Fault Refusal :=
  .next ((doOperationResume q.val i s).settle)

/-- WAIT_CLOCK_EXPIRE (R308): An expired wait clock ends the operation as TIMEOUT and stops the queue. -/
def execWaitClockExpire (q : Fin 4096) (i : Nat) (s : State) : Host.Outcome State Fault Refusal :=
  .next ((doWaitClockExpire q.val i s).settle)

/-- RUN_CLOCK_EXPIRE (R308): An expired run clock stops the engines and ends the operation as TIMEOUT, or
PARTIAL after retirement. -/
def execRunClockExpire (q : Fin 4096) (i : Nat) (s : State) : Host.Outcome State Fault Refusal :=
  .next ((doRunClockExpire q.val i s).settle)

/-- OPERATION_COMPLETE (R309): When its engines finish, the vestibule invalidates ranges, signals, marks the
operation complete and writes its record. -/
def execOperationComplete (q : Fin 4096) (i : Nat) (s : State) : Host.Outcome State Fault Refusal :=
  .next ((doOperationComplete q.val i s).settle)

/-- COMPLETION_RING_HEAD_READ (R310): While a completion ring is full the head record is reread and waiting
records written when room appears. -/
def execCompletionRingHeadRead (q : Fin 4096) (head : Nat) (s : State) : Host.Outcome State Fault Refusal :=
  .next ((doCompletionRingHeadRead q.val head s).settle)

end Sys2Proof.Machine
end

