-- ==== Sys2Proof/Machine/Dispatch.lean ====
section
/-! DEFINITION. The meaning of every command: one arm per constructor of `Instr`. -/

namespace Sys2Proof.Machine
open Sys2Proof

/-- What a command does to everything but the queue. -/
def exec (i : Instr) (s : State) : Host.Outcome State Fault Refusal :=
  match i with
  | .registerWrite agent addr size value same => Sys2Proof.Machine.execRegisterWrite agent addr size value same s
  | .registerClearingRead agent addr size same => Sys2Proof.Machine.execRegisterClearingRead agent addr size same s
  | .timeNowLoRead agent same => Sys2Proof.Machine.execTimeNowLoRead agent same s
  | .timeCtrlWrite agent value => Sys2Proof.Machine.execTimeCtrlWrite agent value s
  | .rootAnnouncementSend => Sys2Proof.Machine.execRootAnnouncementSend s
  | .announceReceive port => Sys2Proof.Machine.execAnnounceReceive port s
  | .upstreamPathLost => Sys2Proof.Machine.execUpstreamPathLost s
  | .upstreamPortSwitch => Sys2Proof.Machine.execUpstreamPortSwitch s
  | .rootElectionComplete => Sys2Proof.Machine.execRootElectionComplete s
  | .domainCountStart => Sys2Proof.Machine.execDomainCountStart s
  | .ppsInEdge => Sys2Proof.Machine.execPpsInEdge s
  | .ppsWaitTimeout => Sys2Proof.Machine.execPpsWaitTimeout s
  | .ppsOutPulse => Sys2Proof.Machine.execPpsOutPulse s
  | .timeRefInPresent => Sys2Proof.Machine.execTimeRefInPresent s
  | .timeRefInLost => Sys2Proof.Machine.execTimeRefInLost s
  | .timeBeatSend => Sys2Proof.Machine.execTimeBeatSend s
  | .timeBeatReceive path => Sys2Proof.Machine.execTimeBeatReceive path s
  | .beatLossHoldover idx => Sys2Proof.Machine.execBeatLossHoldover idx s
  | .bridgePathDelayMeasure h delay => Sys2Proof.Machine.execBridgePathDelayMeasure h delay s
  | .delayExchangeStart p => Sys2Proof.Machine.execDelayExchangeStart p s
  | .delayReqReceive p => Sys2Proof.Machine.execDelayReqReceive p s
  | .delayRespReceive p => Sys2Proof.Machine.execDelayRespReceive p s
  | .delayFollowReceive p => Sys2Proof.Machine.execDelayFollowReceive p s
  | .delayExchangeDiscard p => Sys2Proof.Machine.execDelayExchangeDiscard p s
  | .timedLaunch q idx => Sys2Proof.Machine.execTimedLaunch q idx s
  | .bundleIssue n => Sys2Proof.Machine.execBundleIssue n s
  | .groupAbort n => Sys2Proof.Machine.execGroupAbort n s
  | .resultWriteback n k => Sys2Proof.Machine.execResultWriteback n k s
  | .alcoveWaitRelease n => Sys2Proof.Machine.execAlcoveWaitRelease n s
  | .alcoveReportCompletion n => Sys2Proof.Machine.execAlcoveReportCompletion n s
  | .savePoint n => Sys2Proof.Machine.execSavePoint n s
  | .alcHalt agent n value => Sys2Proof.Machine.execAlcHalt agent n value s
  | .alcResume agent n value => Sys2Proof.Machine.execAlcResume agent n value s
  | .alcStep agent n value => Sys2Proof.Machine.execAlcStep agent n value s
  | .hcHalt agent h value => Sys2Proof.Machine.execHcHalt agent h value s
  | .hcResume agent h value => Sys2Proof.Machine.execHcResume agent h value s
  | .hcRestart agent h value => Sys2Proof.Machine.execHcRestart agent h value s
  | .hcAutoRestart h => Sys2Proof.Machine.execHcAutoRestart h s
  | .heldIstoreWriteApply n => Sys2Proof.Machine.execHeldIstoreWriteApply n s
  | .weightShiftStart n u => Sys2Proof.Machine.execWeightShiftStart n u s
  | .weightShiftComplete n u => Sys2Proof.Machine.execWeightShiftComplete n u s
  | .wswapExchange n u => Sys2Proof.Machine.execWswapExchange n u s
  | .gangChange n => Sys2Proof.Machine.execGangChange n s
  | .passStart n u => Sys2Proof.Machine.execPassStart n u s
  | .passComplete n u => Sys2Proof.Machine.execPassComplete n u s
  | .accumulatorParityError n tile => Sys2Proof.Machine.execAccumulatorParityError n tile s
  | .streamComplete n k => Sys2Proof.Machine.execStreamComplete n k s
  | .sdrainComplete n k => Sys2Proof.Machine.execSdrainComplete n k s
  | .doneCountUpdate n => Sys2Proof.Machine.execDoneCountUpdate n s
  | .shadowSelftestComplete h ok step => Sys2Proof.Machine.execShadowSelftestComplete h ok step s
  | .shadowSelftestTimer h => Sys2Proof.Machine.execShadowSelftestTimer h s
  | .sdcSelftestWrite agent h value => Sys2Proof.Machine.execSdcSelftestWrite agent h value s
  | .copyStart e => Sys2Proof.Machine.execCopyStart e s
  | .packetWrite idx => Sys2Proof.Machine.execPacketWrite idx s
  | .csetApply idx => Sys2Proof.Machine.execCsetApply idx s
  | .packetAcknowledge idx => Sys2Proof.Machine.execPacketAcknowledge idx s
  | .copyComplete e => Sys2Proof.Machine.execCopyComplete e s
  | .galleryBurstRequest es => Sys2Proof.Machine.execGalleryBurstRequest es s
  | .galleryBurstRelease e => Sys2Proof.Machine.execGalleryBurstRelease e s
  | .rangeInvalidationDone idx => Sys2Proof.Machine.execRangeInvalidationDone idx s
  | .mezInvalAll agent h value => Sys2Proof.Machine.execMezInvalAll agent h value s
  | .hbmAccess off op noise => Sys2Proof.Machine.execHbmAccess off op noise s
  | .hbmCorrectedWriteback idx => Sys2Proof.Machine.execHbmCorrectedWriteback idx s
  | .patrolScrub c line => Sys2Proof.Machine.execPatrolScrub c line s
  | .hbmReread idx noise => Sys2Proof.Machine.execHbmReread idx noise s
  | .hbmRefresh c pc bank => Sys2Proof.Machine.execHbmRefresh c pc bank s
  | .hbmRefreshManagement c pc bank => Sys2Proof.Machine.execHbmRefreshManagement c pc bank s
  | .hbmTemperatureRead h t => Sys2Proof.Machine.execHbmTemperatureRead h t s
  | .hbmBringupStep c ok lanes => Sys2Proof.Machine.execHbmBringupStep c ok lanes s
  | .hbmWipeDone idx => Sys2Proof.Machine.execHbmWipeDone idx s
  | .tgenStart agent c value => Sys2Proof.Machine.execTgenStart agent c value s
  | .tgenAbort agent c value => Sys2Proof.Machine.execTgenAbort agent c value s
  | .tgenRunComplete c => Sys2Proof.Machine.execTgenRunComplete c s
  | .gatherComplete h => Sys2Proof.Machine.execGatherComplete h s
  | .tokenSignal idx => Sys2Proof.Machine.execTokenSignal idx s
  | .tokenWait idx => Sys2Proof.Machine.execTokenWait idx s
  | .tokenWaiterRelease hall idx => Sys2Proof.Machine.execTokenWaiterRelease hall idx s
  | .tokenTry idx => Sys2Proof.Machine.execTokenTry idx s
  | .landingArrival idx => Sys2Proof.Machine.execLandingArrival idx s
  | .landingWait idx => Sys2Proof.Machine.execLandingWait idx s
  | .timedLandingRelease hall l => Sys2Proof.Machine.execTimedLandingRelease hall l s
  | .landingStallDetect hall l => Sys2Proof.Machine.execLandingStallDetect hall l s
  | .ascentReceive idx => Sys2Proof.Machine.execAscentReceive idx s
  | .descentReceive idx => Sys2Proof.Machine.execDescentReceive idx s
  | .syncRead agent h kind idx => Sys2Proof.Machine.execSyncRead agent h kind idx s
  | .syncWrite agent h kind idx => Sys2Proof.Machine.execSyncWrite agent h kind idx s
  | .syncInit agent h kind idx => Sys2Proof.Machine.execSyncInit agent h kind idx s
  | .syncDisable agent h kind idx => Sys2Proof.Machine.execSyncDisable agent h kind idx s
  | .annealEpochLoad h => Sys2Proof.Machine.execAnnealEpochLoad h s
  | .annealClampPass h => Sys2Proof.Machine.execAnnealClampPass h s
  | .annealEvaluationPass h => Sys2Proof.Machine.execAnnealEvaluationPass h s
  | .annealSweep h => Sys2Proof.Machine.execAnnealSweep h s
  | .annealExchangeRound h => Sys2Proof.Machine.execAnnealExchangeRound h s
  | .annealSweepPoint h => Sys2Proof.Machine.execAnnealSweepPoint h s
  | .annealSweepPointRelease h => Sys2Proof.Machine.execAnnealSweepPointRelease h s
  | .annealInitialSweepPoint h => Sys2Proof.Machine.execAnnealInitialSweepPoint h s
  | .annealEnd h => Sys2Proof.Machine.execAnnealEnd h s
  | .doorbellWrite fn offset size value record => Sys2Proof.Machine.execDoorbellWrite fn offset size value record s
  | .notifyPoll v record => Sys2Proof.Machine.execNotifyPoll v record s
  | .adminCommandFetch v entry => Sys2Proof.Machine.execAdminCommandFetch v entry s
  | .adminRingFullPoll v head => Sys2Proof.Machine.execAdminRingFullPoll v head s
  | .adminReservedOpcode v => Sys2Proof.Machine.execAdminReservedOpcode v s
  | .createQueue v => Sys2Proof.Machine.execCreateQueue v s
  | .destroyQueue v => Sys2Proof.Machine.execDestroyQueue v s
  | .stopQueue v => Sys2Proof.Machine.execStopQueue v s
  | .restartQueue v => Sys2Proof.Machine.execRestartQueue v s
  | .mapMemory v => Sys2Proof.Machine.execMapMemory v s
  | .unmapMemory v => Sys2Proof.Machine.execUnmapMemory v s
  | .bindPartition v => Sys2Proof.Machine.execBindPartition v s
  | .setProfile v => Sys2Proof.Machine.execSetProfile v s
  | .liftQuarantine v => Sys2Proof.Machine.execLiftQuarantine v s
  | .query v => Sys2Proof.Machine.execQuery v s
  | .retirePage v => Sys2Proof.Machine.execRetirePage v s
  | .syncConfig v record => Sys2Proof.Machine.execSyncConfig v record s
  | .poolCreate v => Sys2Proof.Machine.execPoolCreate v s
  | .poolDestroy v => Sys2Proof.Machine.execPoolDestroy v s
  | .poolGrant v => Sys2Proof.Machine.execPoolGrant v s
  | .versionOverride v => Sys2Proof.Machine.execVersionOverride v s
  | .vstAdminCtrlWrite agent v value => Sys2Proof.Machine.execVstAdminCtrlWrite agent v value s
  | .workTailRead q => Sys2Proof.Machine.execWorkTailRead q s
  | .commandBufferBegin q => Sys2Proof.Machine.execCommandBufferBegin q s
  | .operationReady q idx => Sys2Proof.Machine.execOperationReady q idx s
  | .kernelDispatch q idx => Sys2Proof.Machine.execKernelDispatch q idx s
  | .kernelLaunch q idx => Sys2Proof.Machine.execKernelLaunch q idx s
  | .copyDispatch q idx => Sys2Proof.Machine.execCopyDispatch q idx s
  | .gatherDispatch q idx => Sys2Proof.Machine.execGatherDispatch q idx s
  | .annealDispatch q idx => Sys2Proof.Machine.execAnnealDispatch q idx s
  | .poolAlloc q idx => Sys2Proof.Machine.execPoolAlloc q idx s
  | .poolFree q idx => Sys2Proof.Machine.execPoolFree q idx s
  | .nopOperation q idx => Sys2Proof.Machine.execNopOperation q idx s
  | .pauseClaim q idx => Sys2Proof.Machine.execPauseClaim q idx s
  | .rankSaved n => Sys2Proof.Machine.execRankSaved n s
  | .operationResume q idx => Sys2Proof.Machine.execOperationResume q idx s
  | .waitClockExpire q idx => Sys2Proof.Machine.execWaitClockExpire q idx s
  | .runClockExpire q idx => Sys2Proof.Machine.execRunClockExpire q idx s
  | .operationComplete q idx => Sys2Proof.Machine.execOperationComplete q idx s
  | .completionRingHeadRead q head => Sys2Proof.Machine.execCompletionRingHeadRead q head s
  | .partitionReset agent p value => Sys2Proof.Machine.execPartitionReset agent p value s
  | .viReset v => Sys2Proof.Machine.execViReset v s
  | .interruptTake t => Sys2Proof.Machine.execInterruptTake t s
  | .icTgtEoiWrite agent t value => Sys2Proof.Machine.execIcTgtEoiWrite agent t value s
  | .icSwiWrite agent value => Sys2Proof.Machine.execIcSwiWrite agent value s
  | .icSrcCfgWrite agent src value => Sys2Proof.Machine.execIcSrcCfgWrite agent src value s
  | .icTgtCtrlWrite agent t value => Sys2Proof.Machine.execIcTgtCtrlWrite agent t value s
  | .icViNoticeWrite agent v value => Sys2Proof.Machine.execIcViNoticeWrite agent v value s
  | .icViEoiWrite agent v value => Sys2Proof.Machine.execIcViEoiWrite agent v value s
  | .portEnable agent p value => Sys2Proof.Machine.execPortEnable agent p value s
  | .portRetrain agent p value => Sys2Proof.Machine.execPortRetrain agent p value s
  | .portRetireWrite agent p value => Sys2Proof.Machine.execPortRetireWrite agent p value s
  | .laneOffChange agent p value => Sys2Proof.Machine.execLaneOffChange agent p value s
  | .laneSignalDetect p => Sys2Proof.Machine.execLaneSignalDetect p s
  | .linkTrainingDone p => Sys2Proof.Machine.execLinkTrainingDone p s
  | .fecLockDone p => Sys2Proof.Machine.execFecLockDone p s
  | .bringupStepTimeout p failed => Sys2Proof.Machine.execBringupStepTimeout p failed s
  | .initFlitReceive p flit => Sys2Proof.Machine.execInitFlitReceive p flit s
  | .laneLockLoss p lane => Sys2Proof.Machine.execLaneLockLoss p lane s
  | .dataFlitReceive p flit fec => Sys2Proof.Machine.execDataFlitReceive p flit fec s
  | .controlFlitReceive p flit fec => Sys2Proof.Machine.execControlFlitReceive p flit fec s
  | .nakReceive p flit fec => Sys2Proof.Machine.execNakReceive p flit fec s
  | .nakRepeatTimer p => Sys2Proof.Machine.execNakRepeatTimer p s
  | .ackProgressTimeout p => Sys2Proof.Machine.execAckProgressTimeout p s
  | .replayGiveUp p => Sys2Proof.Machine.execReplayGiveUp p s
  | .messageTransmit p => Sys2Proof.Machine.execMessageTransmit p s
  | .readReqServe idx => Sys2Proof.Machine.execReadReqServe idx s
  | .readCplReceive idx => Sys2Proof.Machine.execReadCplReceive idx s
  | .routeWaitTimeout p => Sys2Proof.Machine.execRouteWaitTimeout p s
  | .windowArm agent p w value => Sys2Proof.Machine.execWindowArm agent p w value s
  | .windowOpen p w => Sys2Proof.Machine.execWindowOpen p w s
  | .windowClose p => Sys2Proof.Machine.execWindowClose p s
  | .bucketLeak kind => Sys2Proof.Machine.execBucketLeak kind s
  | .channelRetire ch => Sys2Proof.Machine.execChannelRetire ch s
  | .rasRetireWrite agent value => Sys2Proof.Machine.execRasRetireWrite agent value s
  | .remoteResend idx => Sys2Proof.Machine.execRemoteResend idx s
  | .remoteGiveUp idx => Sys2Proof.Machine.execRemoteGiveUp idx s
  | .receiptEntryRelease h idx => Sys2Proof.Machine.execReceiptEntryRelease h idx s
  | .bridgeFlitCrcError lane => Sys2Proof.Machine.execBridgeFlitCrcError lane s
  | .bridgeLaneLockLoss lane relocked => Sys2Proof.Machine.execBridgeLaneLockLoss lane relocked s
  | .rasRecordStore => Sys2Proof.Machine.execRasRecordStore s
  | .rasRecCmdWrite agent value => Sys2Proof.Machine.execRasRecCmdWrite agent value s
  | .scanRoundStart => Sys2Proof.Machine.execScanRoundStart s
  | .scanChunkDeliver => Sys2Proof.Machine.execScanChunkDeliver s
  | .scanRoundEnd h mask => Sys2Proof.Machine.execScanRoundEnd h mask s
  | .scanRetestEnd h mask pattern diff => Sys2Proof.Machine.execScanRetestEnd h mask pattern diff s
  | .packInstall => Sys2Proof.Machine.execPackInstall s
  | .scanAreaUpdate => Sys2Proof.Machine.execScanAreaUpdate s
  | .focusPackEvaluate => Sys2Proof.Machine.execFocusPackEvaluate s
  | .injArmWrite agent idx value => Sys2Proof.Machine.execInjArmWrite agent idx value s
  | .injDisarmWrite agent idx value => Sys2Proof.Machine.execInjDisarmWrite agent idx value s
  | .injArmingPoint idx => Sys2Proof.Machine.execInjArmingPoint idx s
  | .bar4Read v off len => Sys2Proof.Machine.execBar4Read v off len s
  | .bar4Write v off bytes ep => Sys2Proof.Machine.execBar4Write v off bytes ep s
  | .vfFlr v => Sys2Proof.Machine.execVfFlr v s
  | .pfFlr => Sys2Proof.Machine.execPfFlr s
  | .vfEnableClear => Sys2Proof.Machine.execVfEnableClear s
  | .atsInvalidate v pasid page pages => Sys2Proof.Machine.execAtsInvalidate v pasid page pages s
  | .hostAccessFail v access kind ring => Sys2Proof.Machine.execHostAccessFail v access kind ring s
  | .pcieLinkDown => Sys2Proof.Machine.execPcieLinkDown s
  | .msixUnmask v entry => Sys2Proof.Machine.execMsixUnmask v entry s
  | .setEndpointId eid => Sys2Proof.Machine.execSetEndpointId eid s
  | .mctpControlMessage typ pldm => Sys2Proof.Machine.execMctpControlMessage typ pldm s
  | .mgtRegisterRead addr => Sys2Proof.Machine.execMgtRegisterRead addr s
  | .mgtRegisterWrite addr value => Sys2Proof.Machine.execMgtRegisterWrite addr value s
  | .getSensorReading id => Sys2Proof.Machine.execGetSensorReading id s
  | .fruDataRead => Sys2Proof.Machine.execFruDataRead s
  | .requestUpdate => Sys2Proof.Machine.execRequestUpdate s
  | .firmwareComponentVerify c => Sys2Proof.Machine.execFirmwareComponentVerify c s
  | .firmwareComponentApply => Sys2Proof.Machine.execFirmwareComponentApply s
  | .activateFirmware => Sys2Proof.Machine.execActivateFirmware s
  | .flashOperation ok => Sys2Proof.Machine.execFlashOperation ok s
  | .idcode => Sys2Proof.Machine.execIdcode s
  | .samplePreload value => Sys2Proof.Machine.execSamplePreload value s
  | .extest => Sys2Proof.Machine.execExtest s
  | .clamp => Sys2Proof.Machine.execClamp s
  | .highz => Sys2Proof.Machine.execHighz s
  | .ijtagSel => Sys2Proof.Machine.execIjtagSel s
  | .bypass => Sys2Proof.Machine.execBypass s
  | .registerBridgeUpdate value => Sys2Proof.Machine.execRegisterBridgeUpdate value s
  | .coldReset => Sys2Proof.Machine.execColdReset s
  | .bootCtrlCold agent value => Sys2Proof.Machine.execBootCtrlCold agent value s
  | .bootCtrlWarm agent value => Sys2Proof.Machine.execBootCtrlWarm agent value s
  | .bootCtrlPartAll agent value => Sys2Proof.Machine.execBootCtrlPartAll agent value s
  | .perstNAssert => Sys2Proof.Machine.execPerstNAssert s
  | .perstNDeassert => Sys2Proof.Machine.execPerstNDeassert s
  | .resetWipeComplete => Sys2Proof.Machine.execResetWipeComplete s
  | .bootPmcImageVerified => Sys2Proof.Machine.execBootPmcImageVerified s
  | .bootHallImageVerified => Sys2Proof.Machine.execBootHallImageVerified s
  | .bootHallStart => Sys2Proof.Machine.execBootHallStart s
  | .bootReady => Sys2Proof.Machine.execBootReady s
  | .bootWatchdogExpire => Sys2Proof.Machine.execBootWatchdogExpire s
  | .pmcServiceTimerExpire => Sys2Proof.Machine.execPmcServiceTimerExpire s
  | .pmcFault => Sys2Proof.Machine.execPmcFault s
  | .bootOverrideWrite agent value => Sys2Proof.Machine.execBootOverrideWrite agent value s
  | .lcArm agent value => Sys2Proof.Machine.execLcArm agent value s
  | .lcCommit agent value => Sys2Proof.Machine.execLcCommit agent value s
  | .lcArmLapse => Sys2Proof.Machine.execLcArmLapse s
  | .lcStoreId agent value => Sys2Proof.Machine.execLcStoreId agent value s
  | .pwrOkInFall => Sys2Proof.Machine.execPwrOkInFall s
  | .railRegulationTimeout rail => Sys2Proof.Machine.execRailRegulationTimeout rail s
  | .powerLimitEvaluate watts mv good => Sys2Proof.Machine.execPowerLimitEvaluate watts mv good s
  | .clockGlideStep h => Sys2Proof.Machine.execClockGlideStep h s
  | .throttleNFall => Sys2Proof.Machine.execThrottleNFall s
  | .throttleNRise => Sys2Proof.Machine.execThrottleNRise s
  | .thermalSample h t => Sys2Proof.Machine.execThermalSample h t s
  | .thermalTrip => Sys2Proof.Machine.execThermalTrip s
  | .railFaultInService rail => Sys2Proof.Machine.execRailFaultInService rail s
  | .alcoveIslandSilent n => Sys2Proof.Machine.execAlcoveIslandSilent n s
  | .ppsPresentExpire => Sys2Proof.Machine.execPpsPresentExpire s
  | .vfEnableSet num => Sys2Proof.Machine.execVfEnableSet num s
  | .pcieLinkUp rate width flit => Sys2Proof.Machine.execPcieLinkUp rate width flit s
  | .quarantineVerifyDone => Sys2Proof.Machine.execQuarantineVerifyDone s

end Sys2Proof.Machine
end

