-- ==== Sys2Proof/Safety.lean ====
section
/-! DEFINITION. The terms in which claims speak of good states: tables and memories in canonical form, states in which
nothing is due, and the state of the queue. -/

namespace Sys2Proof.Machine

/-- A table lists keys rising strictly, and no entry equal to what an unlisted key holds. -/
def tcanonical {α : Type} [DecidableEq α] (d : α) (t : Tbl α) : Bool := tsorted t && t.all fun p => p.2 != d

/-- A byte memory in canonical form. -/
def Memory.wf (cells : List Host.Cell) : Bool := tcanonical 0 cells

/-- Every byte memory of the package in canonical form: stacked memory, galleries, alcove stores and the data stores of
the controllers. -/
def State.memoryWf (s : State) : Bool :=
  Memory.wf s.hbm.cells && Memory.wf s.mem.g && s.alcoves.all (fun p => Memory.wf p.2.store) &&
    s.hcs.all fun p => Memory.wf p.2.dstore

/-- The register table in canonical form but for values equal to a register's reset value. -/
def State.regsSorted (s : State) : Bool := tsorted s.regs

/-! ## How statements speak of a command -/

/-- The command answers a next state, and the property holds of it. -/
def Answers (c : Instr) (s : State) (P : State → Prop) : Prop := ∃ t, exec c s = .next t ∧ P t

/-- The command's own effect gives a state of which the property holds, and what falls due at once follows it; in a quiet
state nothing does. -/
def Performs (c : Instr) (s : State) (P : State → Prop) : Prop := ∃ t, exec c s = .next t.settle ∧ P t

/-- No injector has a shot due. -/
def State.noShots (s : State) : Bool := (List.range 16).all fun i => !(s.injector i).due

/-- Nothing falls due at once: no retirement of a hard signature is owed, no admin command waits for an event, and no
reset waits for launched operations. -/
def State.quiet (s : State) : Bool :=
  !(s.ras.owed.any (·.hard)) && s.vst.admin.all (fun p => p.2.wait.isNone) && !(s.boot.resets.any (·.waiting))

/-- A register whose write has no effect beyond its stored fields. -/
def Reg.plain (r : Reg) : Bool :=
  !([.TIME_CTRL, .ALC_CTRL, .ALC_HC_CTRL, .MEZ_CTRL, .TGEN_CTRL, .SYNC_CMD, .VST_ADMIN_CTRL, .PART_CTRL, .IC_SRC_CFG,
    .IC_TGT_CTRL, .IC_TGT_EOI, .IC_SWI, .IC_VI_NOTICE, .IC_VI_EOI, .CLZ_PORT_CTRL, .CLZ_WIN_CFG, .CLZ_DIM, .CLZ_DIR_LO,
    .CLZ_DIR_HI, .CLZ_FLOW, .CLZ_EXC_MATCH, .CLZ_EXC_MASK, .CLZ_EXC_PORTS_LO, .CLZ_EXC_PORTS_HI, .RAS_REC_CMD,
    .RAS_RETIRE, .SDC_SH_CTRL, .INJ_CTRL, .BOOT_CTRL, .BOOT_OVERRIDE, .LC_CMD] : List Reg).contains r

/-- Every register reads the stored value it read before, but for those of a list. -/
def State.sameRegsBut (s t : State) (l : List (Reg × Nat × Nat)) : Prop :=
  ∀ (r : Reg) (w i : Nat), w < r.row.windows → i < r.row.count → (r, w, i) ∉ l → t.reg r w i = s.reg r w i

/-- `s` with what an interrupt may change taken from `t`: registers, sources, pending MSI-X bits and messages sent. -/
def State.raised (s t : State) : State :=
  { s with regs := t.regs, ic := t.ic, host := { s.host with msix := t.host.msix }, out := t.out }

/-- A write of instance `i` of register `r` in window `w` by agent `a` reaches the register: its view shows it there to
be written (R343, R518), the agent may write it (R520, R521), and the register is not dark (R480, R522). -/
def State.reaches (s : State) (a : Agent) (r : Reg) (w : Nat := 0) (i : Nat := 0) : Bool :=
  a.mayWrite r i && !s.dark r w && (r != .RAS_BUCKET || isChannel i) &&
    match a with
    | .host v => s.barOpen v.val && barGood (a.addrOf r w i) 4 &&
        (match barPlace v.val (a.addrOf r w i) with
          | .reg x ro => !ro && x == r.addr w i
          | _ => false)
    | _ => true

/-! ## How statements speak of stacked memory -/

/-- A sector whose accesses meet nothing but its data: no wrong symbol, no poison, no retry and no retirement. -/
def State.soundSector (s : State) (k : Nat) : Bool :=
  s.upsetAt k == .none && !s.sectorPoison k && (s.retryOf k).isNone && !s.sectorRetired k && !s.inRetiredPage k

/-! ## How statements speak of a bundle -/

/-- A core after a bundle that does not branch, with no loop active: the next bundle is the one after. -/
def Core.after (c : Core) : Core := { c with pc := c.pc + 1, passBreak := false, prefetch := c.prefetch.tail }

/-- Slot `k` of a bundle holds `w`, and every other slot a `NOP`. -/
def alone (b : BitVec 1024) (k : Nat) (w : SlotWord) : Prop :=
  bundleSlot b k = w ∧ ∀ j, j < 8 → j ≠ k → slotOp (bundleSlot b j) = 0

/-- Core `n` stands before bundle `f`: it runs, takes no interrupt instead, and `f` is the first bundle it holds once
fetched. -/
def State.standsBefore (s : State) (n : Nat) (f : Fetched) : Bool :=
  s.mayIssue n && (s.takesInstead n).isNone && ((s.fetch n).coreAt n).prefetch.head? == some f &&
    (isFirmwareCore n || !((s.fetch n).alcove n).atSavePoint)

/-- The bundle is clean, legal and ready (R63, R72). -/
def State.readyFor (s : State) (n : Nat) (f : Fetched) : Bool :=
  s.standsBefore n f && !f.poison &&
    (bundleIllegal (isFirmwareCore n) ((s.fetch n).alcove n).modeIssued f.bits).isNone && (s.fetch n).bundleReady n f.bits

/-- Core `n` issues bundle `f`: it is ready, no slot of it faults, and no halt is due before it. -/
def State.issues (s : State) (n : Nat) (f : Fetched) : Bool :=
  s.readyFor n f && ((s.fetch n).bundleFault n f.bits).isNone && !((s.fetch n).coreAt n).haltReq && !(s.fetch n).breaks n

/-- What a bundle of alcove `n` may change where it starts no engine, reads no store and ends no operation: the alcove
and its count of bundles. -/
def State.bundleFrame (s u : State) (n : Nat) : Prop :=
  (∀ j, j ≠ n → u.alcove j = (s.fetch n).alcove j) ∧
    (s.fetch n).sameRegsBut u [(.ALC_BUNDLE_COUNT, n, 0)] ∧
    u.fld F.ALC_BUNDLE_COUNT_COUNT n = ((s.fetch n).fld F.ALC_BUNDLE_COUNT_COUNT n + 1) % 2 ^ 32 ∧
    u = { s.fetch n with alcoves := u.alcoves, regs := u.regs }

/-! ## How statements speak of the vestibule -/

/-- Host memory answers virtual interface `v` at once: the link is up, and neither a translation nor a shot comes
between. -/
def State.hostClear (s : State) (v : Nat) : Bool := s.host.linkUp && !(s.host.func v).atsEnable && s.noShots

/-- The admin queue of `v` has command `e` of an opcode in hand: its header is right, its interface is bound, restricted
mode is over, its completion ring has room, and host memory takes the entry (R285 to R287, R321, R483). -/
def State.adminHas (s : State) (v op : Nat) (e : List Nat) : Prop :=
  (s.adminQ v).current = some e ∧ (s.adminQ v).wait = none ∧ byteAt e 0 = op ∧ byteAt e 1 = 0 ∧ field e 4 4 = 0 ∧
    s.boot.restricted = false ∧ (s.viPart v).isSome = true ∧
    ((s.adminQ v).written + 2 ^ 32 - (s.adminQ v).head) % 2 ^ 32 < 2 ^ s.cqLog v ∧ s.hostClear v = true

/-- The command that the admin queue of `v` had in hand has completed: its entry stands in the ring with the phase of
the pass (R285), and no other admin queue has changed. -/
def State.adminAnswered (s u : State) (v status detail result : Nat) : Prop :=
  let a := s.adminQ v
  u.adminQ v = { a with current := none, wait := none, stalled := none, written := (a.written + 1) % 2 ^ 32 } ∧
    (∀ k, k ≠ v → u.adminQ k = s.adminQ k) ∧
    .hostWrite v (s.adminCq v + 16 * (a.written % 2 ^ s.cqLog v)) (s.pasidOf v)
      (adminEntry (a.current.elim 0 fun e => field e 2 2) status (1 - a.written / 2 ^ s.cqLog v % 2) detail result) ∈ u.out

/-- No target is under structural scan. -/
def State.noScan (s : State) : Bool := s.sdc.scans.all fun p => p.2.isNone

/-- No injector is ARMED. -/
def State.noArmed (s : State) : Bool := (List.range 16).all fun i => s.fld F.INJ_CTRL_STATE i != 1

/-- What a change of operation `i` of queue `q` leaves: every other queue and operation, and the rest of the queue. -/
def State.opFrame (s u : State) (q i : Nat) : Prop :=
  (∀ k, k ≠ q → u.queue k = s.queue k) ∧ (∀ j, j ≠ i → u.op? q j = s.op? q j) ∧
    (u.queue q).map (fun w => { w with buffer := none }) = (s.queue q).map (fun w => { w with buffer := none }) ∧
    u.vst = { s.vst with queues := u.vst.queues }

/-! ## How statements speak of links -/

/-- No message waits at a port for a way on. -/
def State.noWaiting (s : State) : Bool := (List.range 64).all fun p => (s.port p).ingress.isEmpty

/-- A port that has just entered a state. -/
def Port.entered (x : Port) (st : PortState) (tick : Nat) : Port :=
  { x with state := st, since := tick, lastInit := none, initCount := 0 }

/-- The same without what waited to leave by it. -/
def Port.cleared (x : Port) : Port := { x with queues := [], flows := [], openWindow := none }

/-- What a change of port `p` leaves: every other port, and all but registers, interrupts, what the device puts out, and
records. -/
def State.portFrame (s u : State) (p : Nat) : Prop :=
  (∀ q, q ≠ p → u.port q = s.port q) ∧
    u = { s.raised u with clz := { s.clz with ports := u.clz.ports }, ras := u.ras }

/-- A write of `CLZ_PORT_CTRL` that names no retrain and no retirement and keeps LANE_OFF. -/
def State.plainPortWrite (s : State) (p x : Nat) : Bool :=
  F.CLZ_PORT_CTRL_RETRAIN.of x == 0 && F.CLZ_PORT_CTRL_RETIRE.of x == 0 &&
    F.CLZ_PORT_CTRL_LANE_OFF.of x == s.fld F.CLZ_PORT_CTRL_LANE_OFF p

/-- The port has sent a flit of a kind with a payload. -/
def State.flitSent (u : State) (p kind : Nat) (payload : List Nat) : Prop :=
  ∃ h : FlitHdr, h.kind = kind ∧ .flit p (h.encode payload) ∈ u.out

/-! ## Values that the layouts of links admit (R365, R367, R376 to R378) -/

def FlitHdr.fits (h : FlitHdr) : Prop :=
  h.ack < 65536 ∧ h.seq < 65536 ∧ (h.a.1 ≤ 8 ∨ h.a.1 = 15) ∧ h.a.2 < 4096 ∧ (h.b.1 ≤ 8 ∨ h.b.1 = 15) ∧ h.b.2 < 4096 ∧
    h.kind < 4 ∧ h.cont < 16

def LongHdr.fits (h : LongHdr) : Prop :=
  h.vc < 8 ∧ 0 < h.bytes ∧ h.bytes ≤ 256 ∧ h.flow < 256 ∧ h.hops < 256 ∧ h.dst < 2 ^ 17 ∧ h.src < 2 ^ 17 ∧
    h.job < 65536 ∧ h.counter < 65536 ∧ h.addr < 2 ^ 47 ∧ h.poison < 256 ∧ h.afmt < 8 ∧ h.aop < 16 ∧ h.agent < 256 ∧
    h.cls < 4 ∧ h.status < 4 ∧ h.pseq < 2 ^ 32

/-- The data of a message: as many bytes as its header says. -/
def LongHdr.holds (h : LongHdr) (data : List Nat) : Prop := data.length = h.bytes ∧ ∀ b, b ∈ data → b < 256

def LinkMsg.fits : LinkMsg → Prop
  | .write h d | .atomic h d => h.fits ∧ h.holds d
  | .readReq h => h.fits
  | .readCpl h d => h.fits ∧ if h.status = 0 then h.holds d else d = []
  | .ack vc status agent hops dst pseq =>
    vc < 8 ∧ status < 4 ∧ agent < 256 ∧ hops < 256 ∧ dst < 2 ^ 17 ∧ pseq < 2 ^ 32
  | .ascent phase _ tree sln | .descent phase _ tree sln => phase < 2 ∧ tree < 256 ∧ sln < 65536
  | .announce _ role prio hops root sender => role < 4 ∧ prio < 256 ∧ hops < 256 ∧ root < 2 ^ 32 ∧ sender < 2 ^ 32
  | .beat frac int => frac < 2 ^ 24 ∧ int < 2 ^ 64
  | .delayReq n => n < 256
  | .delayResp n t u | .delayFollow n t u => n < 256 ∧ t < 2 ^ 56 ∧ u < 2 ^ 56
  | .reserved n => 13 ≤ n ∧ n < 16

def InitInfo.fits (i : InitInfo) : Prop :=
  i.version < 65536 ∧ i.caps < 65536 ∧ i.device < 2 ^ 17 ∧ i.port < 256 ∧ i.role < 256 ∧ i.lanes < 16 ∧
    i.rxNext < 65536 ∧ i.credits.length = 9 ∧ ∀ c, c ∈ i.credits → c < 65536

/-! ## How statements speak of faults -/

/-- An event of a class has been charged to channel `ch`: its bucket has grown by `w`, up to its top, and a record of its
own says so (R426, R441). -/
def State.charged (s u : State) (ch kind detector w : Nat) : Prop :=
  u.fld F.RAS_BUCKET_LEVEL 0 ch = min 0xFFFF (s.fld F.RAS_BUCKET_LEVEL 0 ch + w) ∧ u.fld F.RAS_EVENT_RECORD = 1 ∧
    ∃ r, r ∈ u.ras.unstored ∧ r.channel = ch ∧ r.kind = kind ∧ r.detector = detector ∧
      r.recordId = nextRecordId s.ras.lastId ∧ r.rootId = r.recordId

/-- Channel `ch` has been retired (R434, R487): its bucket and the retirement list say so, a record of its own names it,
and its retirement is owed no longer. -/
def State.retiredNow (s u : State) (ch : Nat) : Prop :=
  u.retired ch = true ∧ ch ∈ u.boot.retireA ∧ u.fld F.RAS_EVENT_RETIRED = 1 ∧ (∀ o, o ∈ u.ras.owed → o.channel ≠ ch) ∧
    ∃ r, r ∈ u.ras.unstored ∧ r.channel = ch ∧ r.kind = kindRetired ∧ r.recordId = nextRecordId s.ras.lastId

end Sys2Proof.Machine
end

