-- ==== Sys2Proof/Certificates/Slice0/Obligations.lean ====
section
/-! DEFINITION. What the provers are asked to prove. `Answers c s P` says that command `c` answers a next state of which
`P` holds; `reaches` says that a register write gets to its register; `quiet` says that nothing falls due at once, so
that the next state is the command's own effect. A frame is written `u = s.raised u` or `u = { s with … := u.… }`: every
part of the state that the right side does not take from `u` is unchanged. -/

open Sys2Proof Sys2Proof.Machine

/-! ## Registers (00_scope.md, 22_register_reference.md) -/

/-- R7, R9, R516, R521: a write that reaches a register whose writing has no further effect stores each field by its
access code: RW and RWS take the value, a 1 clears a W1C bit, RO and WO fields store nothing (the map has no field of
another code). A field that only other agents may write keeps its value. No other register and no other part of the
state changes. R10: a hardware update of a field in the cycle of a write to its register. Under HW the hardware value
is stored; under SET the hardware's bits win over the software clear; under ADD the software value is stored first and
the count is then added, a saturating counter at its maximum. R7, R515, R520: a read by management, a hall controller
or the PMC returns what the register shows and changes nothing else; a read of reserved space returns zero and is
logged. -/
def Obligations.RegisterWritesAndReads : Prop :=
  (∀ (a : Agent) (r : Reg) (w i v : Nat) (s : State), w < r.row.windows → i < r.row.count → s.reaches a r w i → s.quiet →
    r.plain → s.locked r w = false →
    Answers (.registerWrite a (a.addrOf r w i) 4 v none) s fun u =>
      (∀ f ∈ r.fields, a.mayField f → (f.acc = .rw ∨ f.acc = .rws) → u.fld f w i = f.of (v % 2 ^ 32)) ∧
      (∀ f ∈ r.fields, a.mayField f → f.acc = .w1c → ∀ j, (u.fld f w i).testBit j =
        ((s.fld f w i).testBit j && !(f.of (v % 2 ^ 32)).testBit j)) ∧
      (∀ f ∈ r.fields, a.mayField f = false ∨ f.acc = .ro ∨ f.acc = .wo → u.fld f w i = s.fld f w i) ∧
      s.sameRegsBut u [(r, w, i)] ∧ u = { s with regs := u.regs }) ∧
  (∀ (r : Reg) (f : Fld) (w i v : Nat) (h : HwUpdate) (s : State), w < r.row.windows → i < r.row.count →
    s.reaches .mgt r w i → s.quiet → r.plain → s.locked r w = false → f ∈ r.fields →
    setSource r f w = none → r ≠ .VI_EVENT → r ≠ .IC_VI_SYNC →
    Answers (.registerWrite .mgt (r.addr w i) 4 v (some { hi := f.hi, lo := f.lo, upd := h })) s fun u =>
      (∀ x, f.same = .hw → h = .store x → u.fld f w i = x % (f.max + 1)) ∧
      (∀ x, f.same = .set → f.acc = .w1c → h = .setBits x → ∀ j, j < f.hi + 1 - f.lo → (u.fld f w i).testBit j =
        (((s.fld f w i).testBit j && !(f.of (v % 2 ^ 32)).testBit j) || x.testBit j)) ∧
      (∀ n, f.same = .add → f.acc = .rw → h = .add n → wraps r = false →
        u.fld f w i = min f.max (f.of (v % 2 ^ 32) + n)) ∧
      s.sameRegsBut u [(r, w, i)] ∧ u = { s with regs := u.regs }) ∧
  ((∀ (a : Agent) (r : Reg) (w i : Nat) (s : State), (∀ v, a ≠ .host v) → w < r.row.windows → i < r.row.count →
    (r ≠ .RAS_BUCKET ∨ isChannel i = true) → r ≠ .TIME_NOW_LO → r ≠ .TIME_NOW_HI → s.dark r w = false →
    Answers (.registerClearingRead a (r.addr w i) 4 none) s fun u =>
      u = { s with readData := BitVec.ofNat 64 (s.regValue r w i) }) ∧
  (∀ (h : Fin 8) (addr : Nat) (s : State), regAt addr = none → s.fld F.GLB_DENY_LOG_VALID = 0 → addr / 4 < 2 ^ 24 →
    Answers (.registerClearingRead (.hc h) addr 4 none) s fun u =>
      u.readData = 0 ∧ u.reg .GLB_DENY_LOG = 2 ^ 31 + s.fld F.GLB_DENY_LOG_OVERRUN * 2 ^ 30 + h.val * 2 ^ 25 + addr / 4 ∧
      u.fld F.GLB_DENY_COUNT_COUNT = min 0xFFFFFFFF (s.fld F.GLB_DENY_COUNT_COUNT + 1) ∧
      s.sameRegsBut u [(.GLB_DENY_LOG, 0, 0), (.GLB_DENY_COUNT, 0, 0)] ∧
      u = { s with regs := u.regs, readData := u.readData }))

/-- R520: a denied write is dropped and no field changes but those of the log. From a hall controller a second denial
while VALID is 1 keeps the first and sets OVERRUN; from a function it goes to PCI_BAR_ERR with KIND 0, ACCESS 0 and
the virtual interface. R411, R414, R422: a management WRITE and a write of the register bridge are writes with
management's rights, and a READ returns the register; an address that is no multiple of four is refused. -/
def Obligations.DeniedAccessesAreLogged : Prop :=
  ((∀ (h : Fin 8) (r : Reg) (w i v : Nat) (s : State), w < r.row.windows → i < r.row.count → chiefOnly r = true →
    r ≠ .RAS_BUCKET → s.dark r w = false → s.quiet → s.fld F.GLB_DENY_LOG_VALID = 0 →
    Answers (.registerWrite (.hc h) (r.addr w i) 4 v none) s fun u =>
      u.fld F.GLB_DENY_LOG_VALID = 1 ∧ u.fld F.GLB_DENY_LOG_AGENT = 0 ∧ u.fld F.GLB_DENY_LOG_HALL = h.val ∧
      u.fld F.GLB_DENY_LOG_WRITE = 1 ∧ u.fld F.GLB_DENY_LOG_WORD = r.addr w i / 4 % 2 ^ 24 ∧
      u.fld F.GLB_DENY_COUNT_COUNT = min 0xFFFFFFFF (s.fld F.GLB_DENY_COUNT_COUNT + 1) ∧
      s.sameRegsBut u [(.GLB_DENY_LOG, 0, 0), (.GLB_DENY_COUNT, 0, 0)] ∧ u = { s with regs := u.regs }) ∧
  (∀ (h : Fin 8) (r : Reg) (w i v : Nat) (s : State), w < r.row.windows → i < r.row.count → chiefOnly r = true →
    r ≠ .RAS_BUCKET → s.dark r w = false → s.quiet → s.fld F.GLB_DENY_LOG_VALID = 1 →
    Answers (.registerWrite (.hc h) (r.addr w i) 4 v none) s fun u =>
      (∀ f ∈ Reg.GLB_DENY_LOG.fields, f ≠ F.GLB_DENY_LOG_OVERRUN → u.fld f = s.fld f) ∧
      u.fld F.GLB_DENY_LOG_OVERRUN = 1 ∧
      u.fld F.GLB_DENY_COUNT_COUNT = min 0xFFFFFFFF (s.fld F.GLB_DENY_COUNT_COUNT + 1) ∧
      s.sameRegsBut u [(.GLB_DENY_LOG, 0, 0), (.GLB_DENY_COUNT, 0, 0)] ∧ u = { s with regs := u.regs }) ∧
  (∀ (n : Fin 256) (off v : Nat) (s : State), n.val ≠ 0 → s.barOpen n = true → off % 4 = 0 → viewAddr n off = none →
    ¬(0xF0000 ≤ off ∧ off < 0xF8100) → s.quiet → s.fld F.PCI_BAR_ERR_VALID = 0 →
    Answers (.registerWrite (.host n) off 4 v none) s fun u =>
      u.fld F.PCI_BAR_ERR_VALID = 1 ∧ u.fld F.PCI_BAR_ERR_KIND = 0 ∧ u.fld F.PCI_BAR_ERR_ACCESS = 0 ∧
      u.fld F.PCI_BAR_ERR_VI = n.val ∧ u = s.raised u)) ∧
  ((∀ (r : Reg) (w i v : Nat) (s : State), w < r.row.windows → i < r.row.count → s.reaches .mgt r w i → s.quiet →
    r.plain → s.locked r w = false → s.mgtUp = true →
    Answers (.mgtRegisterWrite (r.addr w i) v) s fun u =>
      (∀ f ∈ r.fields, (f.acc = .rw ∨ f.acc = .rws) → u.fld f w i = f.of (v % 2 ^ 32)) ∧
      s.sameRegsBut u [(r, w, i)] ∧ u = { s with regs := u.regs, out := .reply (.ok []) :: s.out }) ∧
  (∀ (r : Reg) (w i : Nat) (s : State), w < r.row.windows → i < r.row.count → (r ≠ .RAS_BUCKET ∨ isChannel i = true) →
    r ≠ .TIME_NOW_LO → r ≠ .TIME_NOW_HI → s.dark r w = false → s.mgtUp = true →
    Answers (.mgtRegisterRead (r.addr w i)) s fun u =>
      u = { s with readData := BitVec.ofNat 64 (s.regValue r w i),
                   out := .reply (.ok (toBytes 4 (s.regValue r w i))) :: s.out }) ∧
  (∀ (addr v : Nat) (s : State), addr % 4 ≠ 0 → s.mgtUp = true → s.quiet →
    exec (.mgtRegisterWrite addr v) s = .next (s.emit (.reply .misaligned)) ∧
    exec (.mgtRegisterRead addr) s = .next (s.emit (.reply .misaligned))) ∧
  (∀ (r : Reg) (w i v : Nat) (s : State), w < r.row.windows → i < r.row.count → s.reaches .bridge r w i → s.quiet →
    r.plain → s.locked r w = false → s.host.jtag = .ijtag →
    Answers (.registerBridgeUpdate (2 ^ 64 + r.addr w i * 2 ^ 32 + v % 2 ^ 32)) s fun u =>
      (∀ f ∈ r.fields, (f.acc = .rw ∨ f.acc = .rws) → u.fld f w i = f.of (v % 2 ^ 32)) ∧
      s.sameRegsBut u [(r, w, i)] ∧
      u.host.bridge = { data := BitVec.ofNat 32 v, address := BitVec.ofNat 32 (r.addr w i), write := true } ∧
      u = { s with regs := u.regs, host := { s.host with bridge := u.host.bridge } }))

/-- R24, R346, R471, R524: what reset leaves. Registers hold the reset values of the table, replicas count from 0 in
FREE, every source is INACTIVE, and no command waits. -/
def Obligations.ResetLeaves : Prop :=
  State.reset.pending = [] ∧
  State.reset.regValue .GLB_ID 0 0 = 0xB0005A10 ∧ State.reset.regValue .GLB_MAP 0 0 = 1 ∧
  State.reset.regValue .TIME_CTRL 0 0 = 0x80000000 ∧ State.reset.regValue .XU_CHK_CTRL 3 0 = 0x2C00 ∧
  State.reset.regValue .ALC_ID 150 0 = 0x100 + 150 ∧ State.reset.regValue .MEZ_CTRL 7 0 = 1 ∧
  State.reset.regValue .HBM_CLASS_WEIGHT 2 0 = 0x08080402 ∧ State.reset.regValue .TGEN_CTRL 255 0 = 0x00C00000 ∧
  State.reset.regValue .VST_ADMIN_CTRL 41 0 = 0x05220000 ∧ State.reset.regValue .VI_CFG 41 0 = 0x07000000 ∧
  State.reset.regValue .IC_TGT_STATUS 9 0 = 0x0FC00000 ∧ State.reset.regValue .PCI_ID 0 0 = 0x5A101F3B ∧
  State.reset.regValue .MGT_STATUS 0 0 = 0xC0000000 ∧ State.reset.regValue .MGT_CTRL 0 0 = 2 ∧
  State.reset.regValue .RAS_CTRL 0 0 = 6 ∧ State.reset.regValue .SDC_SH_CTRL 1 0 = 0x8A0003E8 ∧
  State.reset.regValue .SDC_CTRL 0 0 = 0x8F0003E8 ∧ State.reset.regValue .PWR_CTRL 0 0 = 0xC0000000 ∧
  State.reset.regValue .IC_EVENT 0 0 = 0 ∧ State.reset.regValue .BOOT_CTRL 0 0 = 0 ∧
  State.reset.timeState = .free ∧ (∀ k, State.reset.count k = 0) ∧ (∀ x, (State.reset.icSource x).state = .inactive) ∧
  State.reset.time.counting = false ∧ State.reset.boot.step = 0

/-! ## The queue of commands (00_scope.md) -/

/-- The command in front of the queue runs on the state with the rest of the queue; with none waiting, a tread of the
local reference passes (log 1: the model's own choice). -/
def Obligations.StepRunsFrontCommand : Prop :=
  (∀ (c : Instr) (rest : List Instr) (s : State), s.pending = c :: rest →
    step s = exec c { s with pending := rest }) ∧
  (∀ s : State, s.pending = [] → step s = .next s.tickOn)

/-! ## Stair time (02_stair_time.md) -/

/-- R38, R39: a device that loses TIME_REF_IN sets REF_LOST; a LOCKED root enters HOLDOVER, a follower keeps every
replica. R32, R38: when the reference is present again, a root in HOLDOVER for its loss returns to LOCKED in that
cycle and its replica is not stepped. R31, R50: a pulse leaves on TIME_PPS_OUT while PPS_OUT_EN is 1 and none
otherwise; PPS_PRESENT falls 1.1 s after the last edge. R30: the domain count starts at a root, with its replica at
the starting value: when it reaches LOCKED with PPS input off, at an edge on a whole second, or after 2 s without an
edge. A count that exists is not moved by an edge. R50, R519: a write of TIME_CTRL stores PRIORITY, ROLE and the PPS
enables and leaves REF_FREQ; a change of role starts election; clearing PPS_IN_EN while a root waits starts the count.
A read of TIME_NOW_LO returns the low half of the master's replica and keeps the high half for that reader alone. -/
def Obligations.ReferencePpsAndControl : Prop :=
  ((∀ s : State, s.time.refPresent = true → Answers .timeRefInLost s fun u =>
    u.time.refPresent = false ∧ u.fld F.TIME_EVENT_REF_LOST = 1 ∧
    (s.isRoot = false → u.time = { s.time with refPresent := false }) ∧
    (s.isRoot = true → s.time.upstream = none → (s.replica 0).state = .locked →
      u.replica 0 = { s.replica 0 with state := .holdover, left := true } ∧ u.time.rootHoldover = true) ∧
    u = { s.raised u with time := u.time }) ∧
  (∀ s : State, s.time.refPresent = false → Answers .timeRefInPresent s fun u =>
    u.time.refPresent = true ∧ u.time.rootHoldover = false ∧
    (s.time.rootHoldover = true → s.isRoot = true → s.time.upstream = none → (s.replica 0).state = .holdover →
      u.replica 0 = { s.replica 0 with state := .locked, left := false }) ∧
    (∀ k, k ≠ s.master → u.replica k = s.replica k) ∧ u = { s.raised u with time := u.time })) ∧
  ((∀ s : State, Answers .ppsOutPulse s fun u =>
    u = if s.fld F.TIME_CTRL_PPS_OUT_EN = 1 then { s with out := .ppsOut :: s.out } else s) ∧
  (∀ (s : State) (t : Nat), s.time.ppsSeen = some t → 1100000000 ≤ s.time.tick - t →
    Answers .ppsPresentExpire s fun u => u = { s with time := { s.time with ppsSeen := none } })) ∧
  ((∀ s : State, s.isRoot = true → s.time.upstream = none → (s.replica 0).state ≠ .locked → s.time.counting = false →
    s.fld F.TIME_CTRL_PPS_IN_EN = 0 → s.count 0 < 2 ^ 88 → Answers .domainCountStart s fun u =>
      u.time.counting = true ∧ (u.replica 0).state = .locked ∧
      u.now 0 = max (s.reg .TIME_EPOCH_LO + 2 ^ 32 * s.reg .TIME_EPOCH_HI) (s.now 0) ∧
      u = { s.raised u with time := u.time }) ∧
  (∀ (s : State) (since : Nat), s.isRoot = true → s.time.pps = .waiting since → s.time.counting = false →
    s.count 0 < 2 ^ 88 → s.startingValue + 999999999 < 2 ^ 64 → Answers .ppsInEdge s fun u =>
      u.time.counting = true ∧ u.time.ppsSeen = some s.time.tick ∧ s.startingValue ≤ u.now 0 ∧
      u.now 0 < s.startingValue + 1000000000 ∧ 1000000000 ∣ u.now 0 ∧ u = { s with time := u.time }) ∧
  (∀ s : State, s.time.counting = true → Answers .ppsInEdge s fun u =>
    u = { s with time := { s.time with ppsSeen := some s.time.tick } }) ∧
  (∀ (s : State) (since : Nat), s.isRoot = true → s.time.pps = .waiting since → 2000000000 ≤ s.time.tick - since →
    s.time.counting = false → s.count 0 < 2 ^ 88 → Answers .ppsWaitTimeout s fun u =>
      u.time.counting = true ∧ u.time.ppsSeen = none ∧ u.now 0 = s.startingValue ∧ u = { s with time := u.time })) ∧
  ((∀ (a : Agent) (v : Nat) (s : State), s.reaches a .TIME_CTRL → s.quiet →
    Answers (.timeCtrlWrite a v) s fun u =>
      (∀ f ∈ [F.TIME_CTRL_PRIORITY, F.TIME_CTRL_ROLE, F.TIME_CTRL_PPS_IN_EN, F.TIME_CTRL_PPS_OUT_EN],
        u.fld f = f.of (v % 2 ^ 32)) ∧
      u.fld F.TIME_CTRL_REF_FREQ = s.fld F.TIME_CTRL_REF_FREQ ∧
      (F.TIME_CTRL_ROLE.of (v % 2 ^ 32) ≠ s.fld F.TIME_CTRL_ROLE → u.time.root = u.bestRoot) ∧
      (∀ since, s.time.pps = .waiting since → s.isRoot = true → s.time.counting = false →
        F.TIME_CTRL_ROLE.of (v % 2 ^ 32) = s.fld F.TIME_CTRL_ROLE → F.TIME_CTRL_PPS_IN_EN.of (v % 2 ^ 32) = 0 →
        u.time.counting = true ∧ u.time.pps = .idle) ∧
      u = { s.raised u with time := u.time }) ∧
  (∀ (a : Agent) (same : Option SameUpdate) (s : State), s.fld F.BOOT_STATUS_STATE ≠ 5 →
    (∀ v, a = .host v → s.barOpen v = true) →
    Answers (.timeNowLoRead a same) s fun u =>
      u.readData = BitVec.ofNat 64 (s.masterNow % 2 ^ 32) ∧
      tget 0 u.time.nowHi a.latch = BitVec.ofNat 32 (s.masterNow / 2 ^ 32) ∧
      (∀ k, k ≠ a.latch → tget 0 u.time.nowHi k = tget 0 s.time.nowHi k) ∧
      u = { s with readData := u.readData, time := { s.time with nowHi := u.time.nowHi } }))

/-- R27: a root announcement goes out on every working time port and on no other; an announcement received is kept for
its port, and the root followed is then the best root known. R27, R28: the root chosen is a candidate, and none goes
before it: a configured root wins over a candidate, then the lower priority, then the lower device ID. R29, R40: a
silent upstream port is given up; another port that reaches the same root takes over, and the count does not go back;
with no such port, election runs again. -/
def Obligations.RootsAndUpstreamPorts : Prop :=
  ((∀ s : State, Answers .rootAnnouncementSend s fun u =>
    (∀ p, p < 64 → s.timePort p = true → u.port p = { s.port p with
      queues := tset [] (s.port p).queues 7 (tget [] (s.port p).queues 7 ++ [s.ownAnnounce]) }) ∧
    (∀ p, p < 64 → s.timePort p = false → u.port p = s.port p) ∧ u = { s with clz := { s.clz with ports := u.clz.ports } }) ∧
  (∀ (p : Fin 64) (s s1 : State) (x : TimeArrival) (role prio hops id dev : Nat),
    s.takeTime p (fun m => match m with | .announce .. => true | _ => false) = some (x, s1) →
    x.msg = .announce true role prio hops id dev →
    Answers (.announceReceive p) s fun u =>
      tget none u.time.announces p =
        some { root := { id := id, configured := role == 2, priority := prio }, hops := hops, heard := s.time.tick } ∧
      u.time.root = u.bestRoot ∧ u.clz = s1.clz ∧ u = { s.raised u with time := u.time, clz := u.clz })) ∧
  (∀ (s : State) (r : RootInfo), s.bestRoot = some r →
    r ∈ s.ownCandidacy.toList ++ s.heardRoots.map (·.2.root) ∧
    ∀ x ∈ s.ownCandidacy.toList ++ s.heardRoots.map (·.2.root),
      x.priority < 256 → r.priority < 256 → x.id < 2 ^ 32 → r.id < 2 ^ 32 →
      (x.configured = true → r.configured = true) ∧
      (x.configured = r.configured → r.priority ≤ x.priority ∧ (r.priority = x.priority → r.id ≤ x.id))) ∧
  ((∀ s : State, s.upstreamSilent = true → Answers .upstreamPathLost s fun u =>
    u.time.lostAt = some s.time.tick ∧ (∀ p, s.time.upstream = some p → tget none u.time.announces p = none) ∧
    u = { s with time := { s.time with lostAt := u.time.lostAt, announces := u.time.announces } }) ∧
  (∀ (s : State) (n p hops : Nat) (r : RootInfo), s.time.lostAt = some n → s.time.root = some r →
    s.bestPort r = some (p, hops) → Answers .upstreamPortSwitch s fun u =>
      u.time.upstream = some p ∧ u.time.hops = min 31 (hops + 1) ∧ u.time.lostAt = none ∧ u.time.root = some r ∧
      s.masterNow ≤ u.count u.master / treadUnit ∧ u = { s.raised u with time := u.time }) ∧
  (∀ (s : State) (n : Nat) (r : RootInfo), s.time.lostAt = some n → s.time.root = some r → s.bestPort r = none →
    Answers .rootElectionComplete s fun u =>
      u.time.lostAt = none ∧ u.time.root = u.bestRoot ∧ u = { s.raised u with time := u.time }))

/-- R33 to R36, R40: beats go from the master's slice to the other slices, from each slice to its islands, and on
working ports that are not quiet; a beat that arrives disciplines the replica it is for and no other; a LOCKED replica
without a beat for eight intervals goes to HOLDOVER with its count and its frequency correction kept. -/
def Obligations.BeatsDiscipline : Prop :=
  (∀ s : State, Answers .timeBeatSend s fun u =>
    (∀ h, h < 8 → h ≠ s.master → { dest := h, sent := s.count s.master } ∈ u.time.beats) ∧
    (∀ h, h < 8 → ∀ k ∈ hallIslands h, { dest := k, sent := s.count h } ∈ u.time.beats) ∧
    (∀ p, p < 64 → s.timePort p = true → (s.exchange p).quiet = false → u.port p = { s.port p with
      queues := tset [] (s.port p).queues 7 (tget [] (s.port p).queues 7 ++ [.beat 0 0]) }) ∧
    (∀ p, p < 64 → s.timePort p = false ∨ (s.exchange p).quiet = true → u.port p = s.port p) ∧
    u = { s with time := { s.time with beats := u.time.beats }, clz := { s.clz with ports := u.clz.ports } }) ∧
  (∀ (i : Island) (b : Beat) (s : State), s.time.beats.find? (fun b => b.dest == i.key) = some b →
    Answers (.timeBeatReceive (.inl i)) s fun u =>
      u.replica i.key = (s.replica i.key).beat s.time.tick ((b.sent / 2 ^ 20 + s.spurDelayOf i.key : Nat) : Int)
        (s.stamp i.key : Int) ∧
      (∀ k, k ≠ i.key → u.replica k = s.replica k) ∧ u.time.beats = s.time.beats.erase b ∧
      u = { s.raised u with time := { s.time with replicas := u.time.replicas, beats := u.time.beats } }) ∧
  (∀ (i : Island) (s : State), (s.replica i.key).state = .locked → 2048 ≤ s.time.tick - (s.replica i.key).beatAt →
    ¬(s.isRoot = true ∧ i.key = 0) → Answers (.beatLossHoldover i) s fun u =>
      (u.replica i.key).state = .holdover ∧ u.count i.key = s.count i.key ∧
      (u.replica i.key).freq = (s.replica i.key).freq ∧
      (u.replica i.key).inc = ((treadUnit : Int) + (s.replica i.key).freq).toNat ∧
      (∀ k, k ≠ i.key → u.replica k = s.replica k) ∧
      u = { s.raised u with time := { s.time with replicas := u.time.replicas } }) ∧
  (∀ (h : Fin 8) (d : Nat) (s : State), Answers (.bridgePathDelayMeasure h d) s fun u =>
    tget 0 u.time.bridgeDelay h = d ∧ (∀ k, k ≠ h.val → tget 0 u.time.bridgeDelay k = tget 0 s.time.bridgeDelay k) ∧
    u = { s with time := { s.time with bridgeDelay := u.time.bridgeDelay } })

/-- R26, R35: no beat moves a replica backward, now or later; a LOCKED replica whose offset is at most 4,096 treads
keeps its count and changes its rate by at most 1/1,024 of nominal beside a frequency correction within 200 ppm; a
replica that a beat moves or holds is in ACQUIRE. -/
def Obligations.LockedReplicasOnlySlew : Prop :=
  (∀ (r : Replica) (now later : Nat) (sent here : Int), now ≤ later →
    r.at now ≤ (r.beat now sent here).at later) ∧
  (∀ (r : Replica) (now : Nat) (sent here : Int), r.state = .locked → (sent - here).natAbs ≤ 65536 →
    (r.beat now sent here).at now = r.at now ∧ (r.beat now sent here).freq.natAbs ≤ 3355 ∧
    (((r.beat now sent here).inc : Int) - ((treadUnit : Int) + (r.beat now sent here).freq)).natAbs ≤ 16384) ∧
  (∀ (r : Replica) (now : Nat) (sent here : Int), r.since ≤ now →
    (r.beat now sent here).at now ≠ r.at now ∨ now < (r.beat now sent here).since → (r.beat now sent here).state = .acquire)

/-- R37, R386: the four messages of a delay exchange. The upstream side asks; the downstream side keeps its arrival
stamp and answers; the upstream side keeps its own and follows up; with four stamps a side has delay and offset. An
exchange left open for 65,536 treads is discarded. -/
def Obligations.DelayExchangeRuns : Prop :=
  (∀ (p : Fin 64) (s : State), s.timePort p = true → s.upstreamSide p = true →
    Answers (.delayExchangeStart p) s fun u =>
      u.exchange p = { s.exchange p with
        num := ((s.exchange p).num + 1) % 256, awaiting := true, t1 := none, t2 := none, t3 := none, t4 := none,
        began := s.time.tick } ∧
      tget [] (u.port p).queues 7 = tget [] (s.port p).queues 7 ++ [.delayReq (((s.exchange p).num + 1) % 256)] ∧
      (∀ k, k ≠ p.val → u.exchange k = s.exchange k ∧ u.port k = s.port k) ∧
      u = { s with time := { s.time with exchanges := u.time.exchanges }, clz := { s.clz with ports := u.clz.ports } }) ∧
  (∀ (p : Fin 64) (s s1 : State) (x : TimeArrival) (n : Nat),
    s.takeTime p (fun m => match m with | .delayReq _ => true | _ => false) = some (x, s1) → x.msg = .delayReq n →
    Answers (.delayReqReceive p) s fun u =>
      u.exchange p = { s.exchange p with
        num := n, awaiting := true, t1 := none, t2 := some (x.stamp % 2 ^ 56), t3 := none, t4 := none,
        began := s.time.tick } ∧
      tget [] (u.port p).queues 7 = tget [] (s.port p).queues 7 ++ [.delayResp n (x.stamp % 2 ^ 56) 0] ∧
      u = { s with
        time := { s.time with exchanges := u.time.exchanges }
        clz := { s.clz with ports := u.clz.ports, inbox := u.clz.inbox } }) ∧
  (∀ (p : Fin 64) (s s1 : State) (x : TimeArrival) (n t1 t2 t3 : Nat),
    s.takeTime p (fun m => match m with | .delayResp .. => true | _ => false) = some (x, s1) →
    x.msg = .delayResp n t2 t3 → (s.exchange p).awaiting = true → (s.exchange p).num = n → (s.exchange p).t1 = some t1 →
    Answers (.delayRespReceive p) s fun u =>
      (u.exchange p).offset = (stampDiff t2 t1 - stampDiff (x.stamp % 2 ^ 56) t3) / 2 - s.asym p / 2 ∧
      (u.exchange p).last =
        ((stampDiff (x.stamp % 2 ^ 56) t1 - stampDiff t3 t2) / 2 :: (s.exchange p).last).take 8 ∧
      (u.exchange p).done = (s.exchange p).done + 1 ∧ (u.exchange p).awaiting = false ∧
      tget [] (u.port p).queues 7 = tget [] (s.port p).queues 7 ++ [.delayFollow n t1 (x.stamp % 2 ^ 56)] ∧
      u = { s with
        time := { s.time with exchanges := u.time.exchanges }
        clz := { s.clz with ports := u.clz.ports, inbox := u.clz.inbox } }) ∧
  (∀ (p : Fin 64) (s s1 : State) (x : TimeArrival) (n t1 t2 t3 t4 : Nat),
    s.takeTime p (fun m => match m with | .delayFollow .. => true | _ => false) = some (x, s1) →
    x.msg = .delayFollow n t1 t4 → (s.exchange p).awaiting = true → (s.exchange p).num = n →
    (s.exchange p).t2 = some t2 → (s.exchange p).t3 = some t3 →
    Answers (.delayFollowReceive p) s fun u =>
      (u.exchange p).offset = (stampDiff t2 t1 - stampDiff t4 t3) / 2 - s.asym p / 2 ∧
      (u.exchange p).last = ((stampDiff t4 t1 - stampDiff t3 t2) / 2 :: (s.exchange p).last).take 8 ∧
      (u.exchange p).done = (s.exchange p).done + 1 ∧ (u.exchange p).awaiting = false ∧
      u = { s with time := { s.time with exchanges := u.time.exchanges }, clz := { s.clz with inbox := u.clz.inbox } }) ∧
  (∀ (p : Fin 64) (s : State), (s.exchange p).awaiting = true → 65536 ≤ s.time.tick - (s.exchange p).began →
    Answers (.delayExchangeDiscard p) s fun u =>
      u.exchange p = { s.exchange p with awaiting := false, t1 := none, t2 := none, t3 := none, t4 := none } ∧
      (∀ k, k ≠ p.val → u.exchange k = s.exchange k) ∧ u = { s with time := { s.time with exchanges := u.time.exchanges } })

/-! ## Alcove cores and hall controllers (03_alcove_core.md) -/

/-- R81, R83: HALT asks a running or waiting core to stop at its next bundle boundary; RESUME takes a halted one on;
STEP takes it on for exactly one bundle. A hall controller has HALT and RESUME. Only the core named changes. R83,
R355, R475: a restarted controller is at bundle 0 with cleared registers and an empty interrupt stack, and no source
is ACTIVE at it any more. The PMC restarts a faulted controller by itself until its third fault within an hour; then
it leaves it halted and reports it. -/
def Obligations.CoresHaltAndRestart : Prop :=
  ((∀ (a : Agent) (n : Fin 256) (v : Nat) (s : State), s.reaches a .ALC_CTRL n → s.quiet →
    ((s.alcove n).core.state = .running ∨ (s.alcove n).core.state = .waiting) →
    Answers (.alcHalt a n v) s fun u =>
      u.alcove n = { s.alcove n with core := { (s.alcove n).core with haltReq := true } } ∧
      (∀ k, k ≠ n.val → u.alcove k = s.alcove k) ∧ s.sameRegsBut u [(.ALC_CTRL, n.val, 0)] ∧
      u = { s with regs := u.regs, alcoves := u.alcoves }) ∧
  (∀ (a : Agent) (n : Fin 256) (v : Nat) (s : State), s.reaches a .ALC_CTRL n → s.quiet →
    (s.alcove n).core.state = .halted → Answers (.alcResume a n v) s fun u =>
      u.alcove n = { s.alcove n with core := { (s.alcove n).core with
        state := if (s.alcove n).core.wait.isSome then .waiting else .running, haltReq := false, stepOne := false,
        passBreak := true } } ∧
      (∀ k, k ≠ n.val → u.alcove k = s.alcove k) ∧ s.sameRegsBut u [(.ALC_CTRL, n.val, 0)] ∧
      u = { s with regs := u.regs, alcoves := u.alcoves }) ∧
  (∀ (a : Agent) (n : Fin 256) (v : Nat) (s : State), s.reaches a .ALC_CTRL n → s.quiet →
    (s.alcove n).core.state = .halted → F.ALC_CTRL_RESUME.of (v % 2 ^ 32) = 0 → Answers (.alcStep a n v) s fun u =>
      u.alcove n = { s.alcove n with core := { (s.alcove n).core with
        state := if (s.alcove n).core.wait.isSome then .waiting else .running, haltReq := false, stepOne := true,
        passBreak := true } } ∧
      (∀ k, k ≠ n.val → u.alcove k = s.alcove k) ∧ s.sameRegsBut u [(.ALC_CTRL, n.val, 0)] ∧
      u = { s with regs := u.regs, alcoves := u.alcoves }) ∧
  (∀ (a : Agent) (h : Fin 8) (v : Nat) (s : State), s.reaches a .ALC_HC_CTRL h → s.quiet →
    ((s.hc h).core.state = .running ∨ (s.hc h).core.state = .waiting) → F.ALC_HC_CTRL_RESTART.of (v % 2 ^ 32) = 0 →
    Answers (.hcHalt a h v) s fun u =>
      u.hc h = { s.hc h with core := { (s.hc h).core with haltReq := true } } ∧
      (∀ k, k ≠ h.val → u.hc k = s.hc k) ∧ u = { s.raised u with hcs := u.hcs }) ∧
  (∀ (a : Agent) (h : Fin 8) (v : Nat) (s : State), s.reaches a .ALC_HC_CTRL h → s.quiet →
    (s.hc h).core.state = .halted → F.ALC_HC_CTRL_RESTART.of (v % 2 ^ 32) = 0 → Answers (.hcResume a h v) s fun u =>
      u.hc h = { s.hc h with core := { (s.hc h).core with
        state := if (s.hc h).core.wait.isSome then .waiting else .running, haltReq := false, stepOne := false,
        passBreak := true } } ∧
      (∀ k, k ≠ h.val → u.hc k = s.hc k) ∧ u = { s.raised u with hcs := u.hcs })) ∧
  ((∀ (a : Agent) (h : Fin 8) (v : Nat) (s : State), s.reaches a .ALC_HC_CTRL h → s.quiet →
    (a = .pmc ∨ a.isManagement = true) → Answers (.hcRestart a h v) s fun u =>
      u.hc h = (s.hc h).restarted ∧ (u.hc h).core.pc = 0 ∧ (u.hc h).core.g = [] ∧ (u.hc h).core.state = .running ∧
      tget [] u.ic.frames h = [] ∧ tget [] u.ic.taken h = [] ∧
      (∀ src, (u.icSource src).target = some h.val → (u.icSource src).state ≠ .active ∧
        (u.icSource src).state ≠ .activePending) ∧
      (∀ k, k ≠ h.val → u.hc k = s.hc k) ∧ u = { s.raised u with hcs := u.hcs }) ∧
  (∀ (h : Fin 8) (s : State), (s.hc h).core.state = .faulted → s.boot.step ≠ 8 →
    ((s.hc h).faults.filter fun t => s.time.tick - t < 3600000000000).length < 2 →
    Answers (.hcAutoRestart h) s fun u =>
      (u.hc h).core = { Core.reset with state := .running } ∧ (u.hc h).fault = none ∧
      (u.hc h).faults = s.time.tick :: (s.hc h).faults.filter (fun t => s.time.tick - t < 3600000000000) ∧
      tget [] u.ic.frames h = [] ∧ (∀ k, k ≠ h.val → u.hc k = s.hc k) ∧ u = { s.raised u with hcs := u.hcs }) ∧
  (∀ (h : Fin 8) (s : State), (s.hc h).core.state = .faulted → s.boot.step ≠ 8 →
    2 ≤ ((s.hc h).faults.filter fun t => s.time.tick - t < 3600000000000).length →
    Answers (.hcAutoRestart h) s fun u =>
      (u.hc h).core.state = .halted ∧ u.fld F.BOOT_EVENT_HC_HALTED = 1 ∧ (∀ k, k ≠ h.val → u.hc k = s.hc k) ∧
      u = { s.raised u with hcs := u.hcs, ras := u.ras }))

/-- R75: an alcove whose group has faulted stops at its next bundle boundary in FAULTED with code GROUP_ABORT, slot 0
and the number of the faulting alcove as detail. A fault recorded over a valid one sets OVERRUN (R76). R63, R70, R109:
a result on its way is written to its register with its flags; a core in WAITING goes on once what it waits for holds,
and not before; a drained alcove reports and is IDLE again, or stays FAULTED. R82: an alcove that meets a tile advance
while a pause is wanted stands at its save point: it closes its streams, issues nothing more, and once it is drained
hands over its state with its pc kept. R55: once no weight shift is incomplete, one held bundle is written whole;
while one is, none is. -/
def Obligations.GroupsWaitAndReport : Prop :=
  (∀ (n : Fin 256) (m : Nat) (s : State), (s.alcove n).abortBy = some m → m < 256 → s.quiet →
    ((s.alcove n).core.state = .running ∨ (s.alcove n).core.state = .waiting ∨ (s.alcove n).core.state = .halted) →
    (s.alcove n).core.pc < 4096 →
    Answers (.groupAbort n) s fun u =>
      (u.alcove n).core.state = .faulted ∧ (u.alcove n).core.pc = (s.alcove n).core.pc ∧ (u.alcove n).abortBy = none ∧
      u.fld F.ALC_FAULT_VALID n = 1 ∧ u.fld F.ALC_FAULT_CODE n = 0x30 ∧ u.fld F.ALC_FAULT_SLOT n = 0 ∧
      u.fld F.ALC_FAULT_PC n = (s.alcove n).core.pc ∧ u.fld F.ALC_FAULT_DETAIL_DETAIL n = m ∧
      (s.fld F.ALC_FAULT_VALID n = 1 → u.fld F.ALC_FAULT_OVERRUN n = 1) ∧ (u.alcove n).store = (s.alcove n).store ∧
      (∀ k, k ≠ n.val → u.alcove k = s.alcove k) ∧
      u = { s.raised u with alcoves := u.alcoves, sync := u.sync, sdc := u.sdc }) ∧
  ((∀ (n : Fin 256) (k : Nat) (w : WriteBack) (s : State), (s.alcove n).core.wb[k]? = some w →
    Answers (.resultWriteback (n.castLE (by decide)) k) s fun u =>
      u.alcove n = { s.alcove n with core := ({ (s.alcove n).core with
        wb := (s.alcove n).core.wb.eraseIdx k }.write w.reg w.val).flags w.flags } ∧
      (∀ j, j ≠ n.val → u.alcove j = s.alcove j) ∧ u = { s with alcoves := u.alcoves }) ∧
  (∀ (n : Fin 256) (s : State), (s.alcove n).core.state = .waiting → s.waitHolds n (s.alcove n).core = true →
    Answers (.alcoveWaitRelease (n.castLE (by decide))) s fun u =>
      u.alcove n = { s.alcove n with core := { (s.alcove n).core with
        state := .running, wait := none, granted := false } } ∧
      (∀ j, j ≠ n.val → u.alcove j = s.alcove j) ∧ u = { s with alcoves := u.alcoves }) ∧
  (∀ (n : Fin 265) (s : State), s.waitHolds n (s.coreAt n) = false → exec (.alcoveWaitRelease n) s = .next s) ∧
  (∀ (n : Fin 256) (g : Grant) (o : Operation) (r : Rank) (s : State), (s.alcove n).grant = some g →
    (s.alcove n).core.state = .draining → (s.alcove n).quiet = true → s.op? g.queue g.op = some o →
    o.ranks[g.rank]? = some r → r.reported = false → o.pauseWanted = false →
    Performs (.alcoveReportCompletion n) s fun u =>
      (u.alcove n).core.state = .idle ∧ (u.alcove n).core.busy = [] ∧ (u.alcove n).copies = [] ∧
      (∃ o', u.op? g.queue g.op = some o' ∧ o'.ranks = o.ranks.modify g.rank fun r =>
        { r with reported := true, ended := (s.alcove n).ended }) ∧
      (∀ j, j ≠ n.val → u.alcove j = s.alcove j) ∧ u = { s with alcoves := u.alcoves, vst := u.vst })) ∧
  (∀ (n : Fin 256) (g : Grant) (s : State), (s.alcove n).atSavePoint = true → (s.alcove n).quiet = true →
    (s.alcove n).core.busy = [] → (s.alcove n).grant = some g → (∀ o, s.op? g.queue g.op = some o → o.status ≠ stPartial) →
    Performs (.savePoint n) s fun u =>
      (u.alcove n).saving = true ∧ (u.alcove n).core = { (s.alcove n).core with prefetch := [] } ∧
      (u.alcove n).walker.next = (s.alcove n).walker.next ∧
      (u.alcove n).walker.done = max (s.alcove n).walker.done (s.alcove n).walker.next ∧
      (u.alcove n).store = (s.alcove n).store ∧ (∀ j, j ≠ n.val → u.alcove j = s.alcove j) ∧
      u = { s with alcoves := u.alcoves, sdc := u.sdc, regs := u.regs }) ∧
  ((∀ (n : Fin 256) (w : HeldWrite) (rest : List HeldWrite) (s : State), (s.alcove n).held = w :: rest →
    (s.alcove n).shifting = false → w.last = false → Answers (.heldIstoreWriteApply n) s fun u =>
      tget 0 (u.alcove n).istore w.bundle = w.bits ∧ tget false (u.alcove n).istorePoison w.bundle = w.poison ∧
      (∀ b, b ≠ w.bundle → tget 0 (u.alcove n).istore b = tget 0 (s.alcove n).istore b) ∧
      (u.alcove n).held = rest ∧ (∀ j, j ≠ n.val → u.alcove j = s.alcove j) ∧ u = { s with alcoves := u.alcoves }) ∧
  (∀ (n : Fin 256) (s : State), (s.alcove n).shifting = true → exec (.heldIstoreWriteApply n) s = .next s))

/-- R115, R116, R126, R127: a queued shift begins unless a shift is under way, a write is held or a fence stands
before its stream; an exchange swaps the two planes of each unit it names; a mode change takes effect at four drained
units. R56, R115: the last row of a shift fills the shadow plane with the 64 rows read from the stream; in a unit that
a forced write has made invalid the plane is invalid too. The active plane stays. -/
def Obligations.PlanesShift : Prop :=
  ((∀ (n : Fin 256) (u : Fin 4) (tag first fmt : Nat) (bs : Bool) (rest : List XOp) (k : Nat) (t : Stream) (s : State),
    ((s.alcove n).unit u).queue = .wshift tag first fmt bs :: rest → (s.alcove n).streamAt tag = some (k, t) →
    ((s.alcove n).unit u).shift = none → (s.alcove n).held = [] → (s.alcove n).fenced k = false →
    Answers (.weightShiftStart n u) s fun z =>
      (z.alcove n).unit u = { (s.alcove n).unit u with queue := rest, shift := some (.wshift tag first fmt bs) } ∧
      (∀ j, j ≠ u.val → (z.alcove n).unit j = (s.alcove n).unit j) ∧ (z.alcove n).core = (s.alcove n).core ∧
      (∀ j, j ≠ n.val → z.alcove j = s.alcove j) ∧ z = { s with alcoves := z.alcoves, sdc := z.sdc }) ∧
  (∀ (n : Fin 256) (u : Fin 4) (rest : List XOp) (s : State),
    ((s.alcove n).unit u).queue = .wswap false :: rest → ((s.alcove n).unit u).idle = true →
    Answers (.wswapExchange n u) s fun z =>
      (z.alcove n).unit u = { (s.alcove n).unit u with
        active := ((s.alcove n).unit u).shadow, shadow := ((s.alcove n).unit u).active, queue := rest } ∧
      (∀ j, j ≠ u.val → (z.alcove n).unit j = (s.alcove n).unit j) ∧ (∀ j, j ≠ n.val → z.alcove j = s.alcove j) ∧
      z = { s with alcoves := z.alcoves, sdc := z.sdc }) ∧
  (∀ (n : Fin 256) (u : Fin 4) (s : State),
    (∀ v, v < 4 → ((s.alcove n).unit v).queue.head? = some (.wswap true) ∧ ((s.alcove n).unit v).idle = true) →
    Answers (.wswapExchange n u) s fun z =>
      (∀ v, v < 4 → (z.alcove n).unit v = { (s.alcove n).unit v with
        active := ((s.alcove n).unit v).shadow, shadow := ((s.alcove n).unit v).active,
        queue := ((s.alcove n).unit v).queue.tail }) ∧
      (∀ j, j ≠ n.val → z.alcove j = s.alcove j) ∧ z = { s with alcoves := z.alcoves, sdc := z.sdc }) ∧
  (∀ (n : Fin 256) (m : Gang) (s : State),
    (∀ v, v < 4 → ((s.alcove n).unit v).queue.head? = some (.gang m) ∧ ((s.alcove n).unit v).idle = true) →
    Answers (.gangChange n) s fun z =>
      (z.alcove n).mode = m ∧
      (∀ v, v < 4 → (z.alcove n).unit v = { (s.alcove n).unit v with queue := ((s.alcove n).unit v).queue.tail }) ∧
      (∀ j, j ≠ n.val → z.alcove j = s.alcove j) ∧ z = { s with alcoves := z.alcoves })) ∧
  (∀ (n : Fin 256) (u : Fin 4) (tag first fmt : Nat) (bs : Bool) (k : Nat) (t : Stream) (s : State),
    ((s.alcove n).unit u).shift = some (.wshift tag first fmt bs) → (s.alcove n).streamAt tag = some (k, t) →
    s.noShots → (s.alcove n).upsets = [] →
    Performs (.weightShiftComplete n u) s fun z =>
      let rows := (List.range 64).map fun i => t.readRow [] (first + i) (rowBytes (fmtOf fmt) 64 bs)
      ((z.alcove n).unit u).shadow = {
        state := if ((s.alcove n).unit u).active.state = .invalid then .invalid else .valid, fmt := fmt, bs := bs,
        rows := rows.map (·.1), poison := rows.any (·.2) } ∧
      ((z.alcove n).unit u).active = ((s.alcove n).unit u).active ∧ ((z.alcove n).unit u).shift = none ∧
      (∀ j, j ≠ u.val → (z.alcove n).unit j = (s.alcove n).unit j) ∧ (∀ j, j ≠ n.val → z.alcove j = s.alcove j) ∧
      z = { s with alcoves := z.alcoves, sdc := z.sdc })

/-- R128, R132: an operation leaves the queue of its unit for the pass pipe; a pass carries the tiles that its rows
and planes give; when it completes its tiles are written, ACCRD writes its register, and the marks it kept are free.
Other tiles are untouched. R136: a parity error poisons its tile, keeps the elements, and is charged to the tile's
matrix unit. -/
def Obligations.PassesComplete : Prop :=
  ((∀ (n : Fin 256) (u : Fin 4) (acc cols : Nat) (rest : List XOp) (s : State),
    ((s.alcove n).unit u).queue = .accz acc cols :: rest → Performs (.passStart n u) s fun z =>
      (z.alcove n).unit u = { (s.alcove n).unit u with
        queue := rest,
        pipe := ((s.alcove n).unit u).pipe ++
          [(XOp.accz acc cols).plainJob [(acc, accZero ((s.alcove n).tile acc) cols)]] } ∧
      (∀ j, j ≠ u.val → (z.alcove n).unit j = (s.alcove n).unit j) ∧
      (∀ x, (z.alcove n).tile x = (s.alcove n).tile x) ∧ z = { s with alcoves := z.alcoves }) ∧
  (∀ (n : Fin 256) (u : Fin 4) (v : Nat) (x : VecReg) (rest : List PassJob) (j : PassJob) (s : State),
    ((s.alcove n).unit u).pipe = j :: rest → j.op = .accrd v x → j.tiles = [] → j.flags = 0 →
    Performs (.passComplete n u) s fun z =>
      tget .zero (z.alcove n).core.v v = x ∧ (∀ k, k ≠ v → tget .zero (z.alcove n).core.v k = tget .zero (s.alcove n).core.v k) ∧
      ((z.alcove n).unit u).pipe = rest ∧ { file := .v, idx := v } ∉ (z.alcove n).core.busy ∧
      (∀ t, (z.alcove n).tile t = (s.alcove n).tile t) ∧ (∀ k, k ≠ n.val → z.alcove k = s.alcove k) ∧
      z = { s with alcoves := z.alcoves }) ∧
  (∀ (n : Fin 256) (u : Fin 4) (acc tag first rows depth fmtA fmtW cols round sat pc k : Nat) (add chk bs : Bool)
    (m : Gang) (rest : List XOp) (t : Stream) (s : State),
    ((s.alcove n).unit u).queue = .mpass acc tag first rows depth fmtA fmtW add chk bs cols round sat pc m :: rest →
    (s.alcove n).streamAt tag = some (k, t) → (s.alcove n).fenced k = false → s.noShots → (s.alcove n).upsets = [] →
    Performs (.passStart n u) s fun z =>
      ((z.alcove n).unit u).queue = rest ∧
      (∃ j, ((z.alcove n).unit u).pipe = ((s.alcove n).unit u).pipe ++ [j] ∧
        j.op = .mpass acc tag first rows depth fmtA fmtW add chk bs cols round sat pc m) ∧
      (∀ x, (z.alcove n).tile x = (s.alcove n).tile x) ∧
      (∀ j, j ≠ u.val → (z.alcove n).unit j = (s.alcove n).unit j) ∧ (∀ j, j ≠ n.val → z.alcove j = s.alcove j) ∧
      z = { s with alcoves := z.alcoves, drawn := z.drawn }) ∧
  (∀ (n : Fin 256) (u : Fin 4) (rest : List PassJob) (j : PassJob) (s : State),
    ((s.alcove n).unit u).pipe = j :: rest → j.checks = [] → (j.tiles.map (·.1)).Nodup → s.noShots →
    Performs (.passComplete n u) s fun z =>
      (∀ p ∈ j.tiles, (z.alcove n).tile p.1 = p.2) ∧
      (∀ x, x ∉ j.tiles.map (·.1) → (z.alcove n).tile x = (s.alcove n).tile x) ∧
      ((z.alcove n).unit u).pipe = rest ∧ (∀ r ∈ j.op.busyRegs, r ∉ (z.alcove n).core.busy) ∧
      (z.alcove n).core.fstat = (s.alcove n).core.fstat ||| BitVec.ofNat 64 j.flags ∧
      (∀ k, k ≠ n.val → z.alcove k = s.alcove k) ∧ z = { s with alcoves := z.alcoves, sdc := z.sdc, regs := z.regs })) ∧
  (∀ (n : Fin 256) (t : Fin 16) (s : State), s.retired (unitChannel n (t / 4)) = false →
    Performs (.accumulatorParityError n t) s fun z =>
      (z.alcove n).tile t = { (s.alcove n).tile t with poison := true, clean := 0 } ∧
      (∀ k, k ≠ t.val → (z.alcove n).tile k = (s.alcove n).tile k) ∧ (z.alcove n).core = (s.alcove n).core ∧
      (∀ k, k ≠ n.val → z.alcove k = s.alcove k) ∧
      z.fld F.RAS_BUCKET_LEVEL 0 (unitChannel n (t / 4)) =
        min 0xFFFF (s.fld F.RAS_BUCKET_LEVEL 0 (unitChannel n (t / 4)) + s.fld F.RAS_THRESH_B_W_TUE 0 5) ∧
      z = { s.raised z with alcoves := z.alcoves, ras := z.ras })

/-- R106, R120, R163, R173: a feeding stream completes when its rows are delivered and it is closed or all claimed; a
drain writes its rows to the alcove store in order, and nothing outside the writes; the done count takes the advances
whose commands are complete. -/
def Obligations.StreamsAndDrainsComplete : Prop :=
  (∀ (n : Fin 256) (k : Nat) (t : Stream) (s : State), (s.alcove n).streams[k]? = some t →
    (t.kind = .sbcast ∨ t.kind = .swgt) → (s.alcove n).fenced k = false → (s.alcove n).undelivered t.tag = false →
    (t.closed = true ∨ t.claimedAll = true) → Answers (.streamComplete n k) s fun z =>
      (z.alcove n).streams = dropFences ((s.alcove n).streams.eraseIdx k) ∧
      (z.alcove n).store = (s.alcove n).store ∧ (z.alcove n).core = (s.alcove n).core ∧
      (∀ j, j ≠ n.val → z.alcove j = s.alcove j) ∧ z = { s with alcoves := z.alcoves }) ∧
  (∀ (n : Fin 256) (t : Stream) (rest : List Stream) (s : State), (s.alcove n).streams = t :: rest → t.kind = .sdrain →
    Performs (.sdrainComplete n 0) s fun z =>
      let rs := (List.range t.rows).map t.drainRow
      let ws := t.writes (rs.map (·.1)) (s.now (256 + n))
      (∀ a, (∀ w ∈ ws, a < w.1 ∨ w.1 + w.2.1.length ≤ a) →
        tget 0 (z.alcove n).store a = tget 0 (s.alcove n).store a) ∧
      (z.alcove n).core.fstat = (s.alcove n).core.fstat ||| BitVec.ofNat 64 (rs.foldl (fun f r => f ||| r.2) 0) ∧
      (z.alcove n).core = { (s.alcove n).core with fstat := (z.alcove n).core.fstat } ∧
      (∀ j, j ≠ n.val → z.alcove j = s.alcove j) ∧ z = { s with alcoves := z.alcoves }) ∧
  (∀ (n : Fin 256) (s : State), Answers (.doneCountUpdate n) s fun z =>
    (∀ x ∈ (s.alcove n).walker.notes, x.tags = [] → x.share ≤ (z.alcove n).walker.done) ∧
    (s.alcove n).walker.done ≤ (z.alcove n).walker.done ∧
    (z.alcove n).walker.notes = (s.alcove n).walker.notes.filter (fun x => !x.tags.isEmpty) ∧
    (z.alcove n).walker.next = (s.alcove n).walker.next ∧ (z.alcove n).core = (s.alcove n).core ∧
    (∀ j, j ≠ n.val → z.alcove j = s.alcove j) ∧ z = { s with alcoves := z.alcoves })

/-! ## Bundles (03_alcove_core.md, 04_stavan_instruction_set.md) -/

/-- R51, R52, R54: a core whose buffer is empty fetches its next four bundles as its instruction store holds them. A
ready bundle without a fault issues in all its slots. A bundle of `NOP`s takes the pc to the next bundle and changes
nothing else but the count of bundles. R69: after the last bundle of the innermost loop its counter falls by 1; while
it is not 0 the loop begins again, and at 0 the loop ends and the core goes on. -/
def Obligations.BundlesIssueAndLoop : Prop :=
  ((∀ (n : Fin 256) (s : State), s.noShots → (s.alcove n).core.prefetch = [] → (s.alcove n).core.pc + 3 < 4096 →
    (s.fetch n).alcove n = { s.alcove n with core := { (s.alcove n).core with
      prefetch := (List.range 4).map fun i => s.storedBundle n ((s.alcove n).core.pc + i) } } ∧
    (∀ j, j ≠ n.val → (s.fetch n).alcove j = s.alcove j) ∧ s.fetch n = { s with alcoves := (s.fetch n).alcoves }) ∧
  (∀ (n : Fin 265) (f : Fetched) (s : State), s.issues n f → Performs (.bundleIssue n) s fun u =>
    u = ((s.fetch n).commit n f.bits).retake n (((s.fetch n).coreAt n).returns f.bits)) ∧
  (∀ (n : Fin 256) (f : Fetched) (s : State), s.issues n f → (∀ k, k < 8 → slotOp (bundleSlot f.bits k) = 0) →
    ((s.fetch n).alcove n).core.stepOne = false → ((s.fetch n).alcove n).core.loops = [] →
    Performs (.bundleIssue (n.castLE (by decide))) s fun u =>
      u.alcove n = { (s.fetch n).alcove n with core := ((s.fetch n).alcove n).core.after } ∧ s.bundleFrame u n)) ∧
  ((∀ (n : Fin 256) (f : Fetched) (r : LoopFrame) (rest : List LoopFrame) (s : State), s.issues n f →
    (∀ k, k < 8 → slotOp (bundleSlot f.bits k) = 0) → ((s.fetch n).alcove n).core.stepOne = false →
    ((s.fetch n).alcove n).core.loops = r :: rest → r.stop = ((s.fetch n).alcove n).core.pc →
    1 < ((s.fetch n).alcove n).core.lcReg r.lc → Performs (.bundleIssue (n.castLE (by decide))) s fun u =>
      (u.alcove n).core.pc = r.start ∧ (u.alcove n).core.loops = r :: rest ∧
      (u.alcove n).core.lcReg r.lc = ((s.fetch n).alcove n).core.lcReg r.lc - 1 ∧
      (∀ i, i ≠ r.lc → (u.alcove n).core.lcReg i = ((s.fetch n).alcove n).core.lcReg i) ∧
      u.alcove n = { (s.fetch n).alcove n with core := { ((s.fetch n).alcove n).core.after with
        pc := r.start, lc := (u.alcove n).core.lc } } ∧ s.bundleFrame u n) ∧
  (∀ (n : Fin 256) (f : Fetched) (r : LoopFrame) (s : State), s.issues n f →
    (∀ k, k < 8 → slotOp (bundleSlot f.bits k) = 0) → ((s.fetch n).alcove n).core.stepOne = false →
    ((s.fetch n).alcove n).core.loops = [r] → r.stop = ((s.fetch n).alcove n).core.pc →
    ((s.fetch n).alcove n).core.lcReg r.lc = 1 → Performs (.bundleIssue (n.castLE (by decide))) s fun u =>
      (u.alcove n).core.lcReg r.lc = 0 ∧
      (∀ i, i ≠ r.lc → (u.alcove n).core.lcReg i = ((s.fetch n).alcove n).core.lcReg i) ∧
      u.alcove n = { (s.fetch n).alcove n with core := { ((s.fetch n).alcove n).core.after with
        loops := [], lc := (u.alcove n).core.lc } } ∧ s.bundleFrame u n))

/-- R58, R63, R74, R96, R97: an `ADD` writes the sum of its operands, wrapping at 64 bits, and poison with it if an
operand carries some; a write of g0 is discarded; every other g register stays. A `MUL` sends the low 64 bits of the
product on its way to its register, 3 cycles later. R59, R99, R100: a store puts the low bytes of its register at its
effective address, lowest byte first, and no other byte of the alcove store changes; a post-stepping access then
advances its a register by STRIDE. A load sends the bytes of its address on its way, 4 cycles later, and stores
nothing. -/
def Obligations.ScalarsLoadsAndStores : Prop :=
  ((∀ (n : Fin 256) (f : Fetched) (w : SlotWord) (s : State), s.issues n f → alone f.bits 0 w → slotOp w = 0x100 →
    ((s.fetch n).alcove n).core.predBits w % 2 = 1 → ((s.fetch n).alcove n).core.stepOne = false →
    ((s.fetch n).alcove n).core.loops = [] → Performs (.bundleIssue (n.castLE (by decide))) s fun u =>
      let c := ((s.fetch n).alcove n).core
      let a := c.gReg (slotSrc1 w)
      let b := if modField w 0 1 = 1 then { val := BitVec.ofNat 64 (slotImm w), poison := false } else c.gReg (slotSrc2 w)
      (u.alcove n).core.gReg (slotDst w) =
        (if slotDst w = 0 then .zero else { val := a.val + b.val, poison := a.poison || b.poison }) ∧
      (∀ i, i ≠ slotDst w → (u.alcove n).core.gReg i = c.gReg i) ∧
      u.alcove n = { (s.fetch n).alcove n with core := { c.after with g := (u.alcove n).core.g } } ∧ s.bundleFrame u n) ∧
  (∀ (n : Fin 256) (f : Fetched) (w : SlotWord) (s : State), s.issues n f → alone f.bits 0 w → slotOp w = 0x118 →
    modField w 0 1 = 0 → ((s.fetch n).alcove n).core.predBits w % 2 = 1 →
    ((s.fetch n).alcove n).core.stepOne = false → ((s.fetch n).alcove n).core.loops = [] →
    Performs (.bundleIssue (n.castLE (by decide))) s fun u =>
      let c := ((s.fetch n).alcove n).core
      let a := c.gReg (slotSrc1 w)
      let b := c.gReg (slotSrc2 w)
      u.alcove n = { (s.fetch n).alcove n with core := { c.after with
        wb := c.wb ++ [{ reg := c.key { file := .g, idx := slotDst w },
                         val := .g { val := a.val * b.val, poison := a.poison || b.poison },
                         latency := 3, flags := 0, flagged := false }] } } ∧ s.bundleFrame u n)) ∧
  ((∀ (n : Fin 256) (f : Fetched) (w : SlotWord) (s : State), s.issues n f → alone f.bits 2 w → slotOp w = 0x201 →
    ((s.fetch n).alcove n).core.predBits w % 2 = 1 → ((s.fetch n).alcove n).core.stepOne = false →
    ((s.fetch n).alcove n).core.loops = [] → Performs (.bundleIssue (n.castLE (by decide))) s fun u =>
      let c := ((s.fetch n).alcove n).core
      let a := c.address w
      let k := 2 ^ modField w 0 2
      (∀ i, i < k → tget 0 (u.alcove n).store (a + i) =
        BitVec.ofNat 8 ((c.gReg (slotSrc3 w)).val.toNat / 256 ^ i)) ∧
      (∀ b, b < a ∨ a + k ≤ b → tget 0 (u.alcove n).store b = tget 0 ((s.fetch n).alcove n).store b) ∧
      (u.alcove n).core.aReg (slotSrc1 w) = (if modField w 3 2 = 1 then
        { c.aReg (slotSrc1 w) with addr := (c.aReg (slotSrc1 w)).addr + (c.aReg (slotSrc1 w)).stride }
        else c.aReg (slotSrc1 w)) ∧
      (∀ i, i ≠ slotSrc1 w → (u.alcove n).core.aReg i = c.aReg i) ∧
      u.alcove n = { (s.fetch n).alcove n with
        core := { c.after with a := (u.alcove n).core.a }, store := (u.alcove n).store,
        storePoison := (u.alcove n).storePoison, upsets := (u.alcove n).upsets } ∧ s.bundleFrame u n) ∧
  (∀ (n : Fin 256) (f : Fetched) (w : SlotWord) (s : State), s.issues n f → alone f.bits 2 w → slotOp w = 0x200 →
    ((s.fetch n).alcove n).core.predBits w % 2 = 1 → ((s.fetch n).alcove n).core.stepOne = false →
    ((s.fetch n).alcove n).core.loops = [] → modField w 3 2 ≠ 1 → s.noShots → (s.alcove n).upsets = [] →
    Performs (.bundleIssue (n.castLE (by decide))) s fun u =>
      let c := ((s.fetch n).alcove n).core
      let a := c.address w
      let k := 2 ^ modField w 0 2
      u.alcove n = { (s.fetch n).alcove n with core := { c.after with
        wb := c.wb ++ [{ reg := c.key { file := .g, idx := slotDst w },
                         val := .g { val := loadedValue w (leNat (loadBytes ((s.fetch n).alcove n).store a k)),
                                     poison := (unitMarks ((s.fetch n).alcove n).storePoison 32 a k).any id },
                         latency := 4, flags := 0, flagged := false }] } } ∧ s.bundleFrame u n))

/-- R68, R69, R70, R108, R109: a taken branch goes to its target and discards the buffer; a call pushes the bundle
after its own; `LOOP` starts a loop at the next bundle; `TSIG` sends tokens and `TWAIT` waits; `END` drains the
alcove. -/
def Obligations.BranchSlotActs : Prop :=
  (∀ (n : Fin 256) (f : Fetched) (w : SlotWord) (s : State), s.issues n f → alone f.bits 7 w →
    (slotOp w = 0x600 ∨ slotOp w = 0x603) → ((s.fetch n).alcove n).core.predBits w % 2 = 1 →
    ((s.fetch n).alcove n).core.stepOne = false → ((s.fetch n).alcove n).core.loops = [] →
    Performs (.bundleIssue (n.castLE (by decide))) s fun u =>
      let c := ((s.fetch n).alcove n).core
      u.alcove n = { (s.fetch n).alcove n with core := { c with
        pc := immField w 0 12, prefetch := [], passBreak := false,
        calls := if slotOp w = 0x603 then (c.pc + 1) :: c.calls else c.calls } } ∧ s.bundleFrame u n) ∧
  (∀ (n : Fin 256) (f : Fetched) (w : SlotWord) (s : State), s.issues n f → alone f.bits 7 w → slotOp w = 0x606 →
    ((s.fetch n).alcove n).core.predBits w % 2 = 1 → ((s.fetch n).alcove n).core.stepOne = false →
    modField w 0 1 = 1 → 0 < immField w 0 16 → Performs (.bundleIssue (n.castLE (by decide))) s fun u =>
      let c := ((s.fetch n).alcove n).core
      (u.alcove n).core.lcReg (slotDst w) = immField w 0 16 ∧
      (∀ i, i ≠ slotDst w → (u.alcove n).core.lcReg i = c.lcReg i) ∧
      u.alcove n = { (s.fetch n).alcove n with core := { c.after with
        lc := (u.alcove n).core.lc,
        loops := { lc := slotDst w, start := c.pc + 1, stop := immField w 32 12 } :: c.loops } } ∧ s.bundleFrame u n) ∧
  (∀ (n : Fin 256) (f : Fetched) (w : SlotWord) (s : State), s.issues n f → alone f.bits 7 w →
    (slotOp w = 0x610 ∨ slotOp w = 0x611) → ((s.fetch n).alcove n).core.predBits w % 2 = 1 →
    ((s.fetch n).alcove n).core.stepOne = false → ((s.fetch n).alcove n).core.loops = [] → modField w 0 1 = 1 →
    Performs (.bundleIssue (n.castLE (by decide))) s fun u =>
      let c := ((s.fetch n).alcove n).core
      let ga := (c.gReg (slotSrc1 w)).val.toNat
      u.sync = { (s.fetch n).sync with net := (s.fetch n).sync.net ++
        [if slotOp w = 0x610 then .signal (tHall (gaOffset ga)) (tIndex (gaOffset ga)) n (immField w 0 32)
         else .wait (tHall (gaOffset ga)) (tIndex (gaOffset ga)) n (immField w 0 32) (.alcove n)] } ∧
      u.alcove n = { (s.fetch n).alcove n with core := if slotOp w = 0x610 then c.after else
        { c.after with state := .waiting, wait := some .sync, granted := false } } ∧
      (∀ j, j ≠ n.val → u.alcove j = (s.fetch n).alcove j) ∧
      u = { s.fetch n with alcoves := u.alcoves, regs := u.regs, sync := u.sync }) ∧
  (∀ (n : Fin 256) (f : Fetched) (w : SlotWord) (s : State), s.issues n f → alone f.bits 7 w → slotOp w = 0x607 →
    ((s.fetch n).alcove n).core.predBits w % 2 = 1 → ((s.fetch n).alcove n).core.stepOne = false →
    Performs (.bundleIssue (n.castLE (by decide))) s fun u =>
      (u.alcove n).core = { ((s.fetch n).alcove n).core with state := .draining, prefetch := [], passBreak := false } ∧
      (u.alcove n).ended = true ∧ (u.alcove n).store = ((s.fetch n).alcove n).store ∧
      (∀ j, j ≠ n.val → u.alcove j = (s.fetch n).alcove j) ∧
      u = { s.fetch n with alcoves := u.alcoves, regs := u.regs, sdc := u.sdc })

/-- R71, R72, R76, R525: a bundle that faults has no effect: the core stops in FAULTED at that bundle with its
registers and memory as they were, and ALC_FAULT names the code, the slot and the bundle. A fetch that carries poison
faults at once. -/
def Obligations.FaultsArePrecise : Prop :=
  (∀ (n : Fin 256) (f : Fetched) (code k d : Nat) (s : State), s.readyFor n f →
    (s.fetch n).bundleFault n f.bits = some (code, k, d) → code < 256 → k < 8 → d < 2 ^ 32 →
    ((s.fetch n).alcove n).core.pc < 4096 → ((s.fetch n).alcove n).grant = none →
    Performs (.bundleIssue (n.castLE (by decide))) s fun u =>
      (u.alcove n).core = ((s.fetch n).alcove n).core.stopped .faulted ∧
      (u.alcove n).store = ((s.fetch n).alcove n).store ∧ (u.alcove n).tiles = ((s.fetch n).alcove n).tiles ∧
      (u.alcove n).units = ((s.fetch n).alcove n).units ∧
      u.fld F.ALC_FAULT_VALID n = 1 ∧ u.fld F.ALC_FAULT_CODE n = code ∧ u.fld F.ALC_FAULT_SLOT n = k ∧
      u.fld F.ALC_FAULT_PC n = ((s.fetch n).alcove n).core.pc ∧ u.fld F.ALC_FAULT_DETAIL_DETAIL n = d ∧
      (∀ j, j ≠ n.val → u.alcove j = (s.fetch n).alcove j) ∧
      u = { (s.fetch n).raised u with alcoves := u.alcoves, sync := u.sync, sdc := u.sdc }) ∧
  (∀ (n : Fin 256) (f : Fetched) (s : State), s.standsBefore n f → f.poison = true → f.idx < 4096 →
    ((s.fetch n).alcove n).core.pc < 4096 → ((s.fetch n).alcove n).grant = none →
    Performs (.bundleIssue (n.castLE (by decide))) s fun u =>
      (u.alcove n).core = ((s.fetch n).alcove n).core.stopped .faulted ∧
      u.fld F.ALC_FAULT_CODE n = 0x08 ∧ u.fld F.ALC_FAULT_SLOT n = 0 ∧
      u.fld F.ALC_FAULT_DETAIL_DETAIL n = 0x7000 + f.idx)

/-- R86, R88: a bundle of all-zero slot words raises nothing; a slot word of opcode 0x000 with another field that is
not zero, and one of a reserved opcode 0x001 to 0x0FF, raises `ILLEGAL_OPCODE`; one whose bits [19:17] are not all
zero raises `ILLEGAL_BUNDLE`. -/
def Obligations.SlotWordsOfNop : Prop :=
  (∀ (n : Fin 256) (f : Fetched) (s : State), (∀ k, k < 8 → bundleSlot f.bits k = 0) →
    ((s.fetch n).alcove n).core.pc + 1 < 4096 → ((s.fetch n).alcove n).core.loops = [] →
    bundleIllegal false ((s.fetch n).alcove n).modeIssued f.bits = none ∧ (s.fetch n).bundleFault n f.bits = none) ∧
  (∀ (n : Fin 256) (f : Fetched) (k : Nat) (s : State), s.readyFor n f → k < 8 →
    (∀ j, j < 8 → j ≠ k → bundleSlot f.bits j = 0) → slotRsv (bundleSlot f.bits k) = 0 →
    slotOp (bundleSlot f.bits k) < 0x100 → bundleSlot f.bits k ≠ 0 → ((s.fetch n).alcove n).core.pc < 4096 →
    ((s.fetch n).alcove n).grant = none → Performs (.bundleIssue (n.castLE (by decide))) s fun u =>
      (u.alcove n).core = ((s.fetch n).alcove n).core.stopped .faulted ∧ u.fld F.ALC_FAULT_VALID n = 1 ∧
      u.fld F.ALC_FAULT_CODE n = 0x01 ∧ u.fld F.ALC_FAULT_SLOT n = k ∧
      u.fld F.ALC_FAULT_DETAIL_DETAIL n = (bundleSlot f.bits k).toNat % 2 ^ 32) ∧
  (∀ (n : Fin 256) (f : Fetched) (k : Nat) (s : State), s.standsBefore n f → f.poison = false → k < 8 →
    (∀ j, j < 8 → j ≠ k → bundleSlot f.bits j = 0) → slotRsv (bundleSlot f.bits k) ≠ 0 →
    ((s.fetch n).alcove n).core.pc < 4096 → ((s.fetch n).alcove n).grant = none →
    Performs (.bundleIssue (n.castLE (by decide))) s fun u =>
      (u.alcove n).core = ((s.fetch n).alcove n).core.stopped .faulted ∧ u.fld F.ALC_FAULT_VALID n = 1 ∧
      u.fld F.ALC_FAULT_CODE n = 0x02 ∧
      u.fld F.ALC_FAULT_DETAIL_DETAIL n = 128 * k + reservedBit (slotRsv (bundleSlot f.bits k)))

/-! ## Copies, atomics, galleries and mezzanines (08_memory_spaces_and_ordering.md) -/

/-- R182, R185, R186: an engine takes the first copy of its queue; a fill of one packet puts its pattern on its way to
the destination. R186, R188, R206: an acknowledgement marks its packet and counts it; a copy whose packets are all
acknowledged ends and frees its engine, and one that failed is logged in CE_ERROR. -/
def Obligations.CopiesStartAndEnd : Prop :=
  ((∀ (e : Fin 64) (j : CopyJob) (rest : List CopyJob) (n tag : Nat) (s : State), (s.engine e).running = none →
    (s.engine e).retired = false → (s.engine e).queue = j :: rest → j.launch = none → j.started = false → j.error = 0 →
    j.origin = .alcove n tag → j.req.kind = kindFill → gaDevice j.req.w1 = s.deviceId → j.req.rows = 1 →
    0 < j.req.rowBytes → j.req.w1 % 256 + j.req.rowBytes ≤ 256 → (∀ p ∈ s.mem.engines, p.2.holds j.id = false) →
    s.noShots → Answers (.copyStart e) s fun u =>
      (u.engine e).queue = rest ∧
      (∃ j', (u.engine e).running = some j' ∧ j'.id = j.id ∧ j'.started = true ∧ j'.req = j.req ∧
        (∀ p ∈ j'.packets, p.sent = true ∧ p.acked = false) ∧ j'.packets.length = 1) ∧
      u.mem.inflight = s.mem.inflight ++
        [{ origin := .engine e j.id 0, kind := .write, dst := j.req.w1,
           data := fillBytes j.req.w0 j.req.w1 j.req.rowBytes, poison := 0, counter := j.req.counter, vi := j.vi,
           job := s.viJob j.vi, hdr := none, waiting := false }] ∧
      (∀ k, k ≠ e.val → u.engine k = s.engine k) ∧ u = { s with mem := u.mem }) ∧
  (∀ (e : Fin 64) (s : State), (s.engine e).running.isSome → exec (.copyStart e) s = .next s)) ∧
  ((∀ (i e id k : Nat) (j : CopyJob) (s : State), s.mem.acks[i]? = some { origin := .engine e id k, status := 0 } →
    e < 64 → s.mem.engines.find? (fun p => p.2.holds id) = some (e, s.engine e) → (s.engine e).running = some j →
    j.id = id → (s.engine e).queue = [] → (∀ p ∈ j.packets, p.sent = true) → Answers (.packetAcknowledge i) s fun u =>
      (u.engine e).running = some { j with
        packets := j.packets.map fun p => if p.idx = k then { p with acked := true } else p } ∧
      (∀ x, x ≠ e → u.engine x = s.engine x) ∧ u.mem.acks = s.mem.acks.eraseIdx i ∧
      u.fld F.CE_PACKETS_COUNT e = (s.fld F.CE_PACKETS_COUNT e + 1) % 2 ^ 32 ∧ s.sameRegsBut u [(.CE_PACKETS, e, 0)] ∧
      u = { s with regs := u.regs, mem := u.mem }) ∧
  (∀ (e : Fin 64) (n tag : Nat) (j : CopyJob) (s : State), (s.engine e).running = some j → j.error = 0 →
    (∀ p ∈ j.packets, p.acked = true) → j.origin = .alcove n tag → (s.alcove n).grant = none →
    Answers (.copyComplete e) s fun u =>
      u.engine e = { s.engine e with running := none, burst := none, refused := none } ∧
      (∀ x, x ≠ e.val → u.engine x = s.engine x) ∧
      (u.alcove n).copies = (s.alcove n).copies.filter (fun c => c.copy != j.id) ∧
      (u.alcove n).core = (s.alcove n).core ∧ (∀ m, m ≠ n → u.alcove m = s.alcove m) ∧
      u = { s with mem := u.mem, inj := u.inj, alcoves := u.alcoves }) ∧
  (∀ (e : Fin 64) (n tag : Nat) (j : CopyJob) (s : State), (s.engine e).running = some j → 0 < j.error → j.error < 64 →
    (∀ p ∈ j.packets, p.acked = true) → j.origin = .alcove n tag → (s.alcove n).grant = none →
    s.fld F.CE_ERROR_VALID e = 0 → Answers (.copyComplete e) s fun u =>
      (u.engine e).running = none ∧ u.fld F.CE_ERROR_VALID e = 1 ∧ u.fld F.CE_ERROR_CODE e = j.error ∧
      u.fld F.CE_ERROR_TAG e = tag % 2 ^ 16 ∧
      u = { s.raised u with mem := u.mem, inj := u.inj, alcoves := u.alcoves }) ∧
  (∀ (e : Fin 64) (j : CopyJob) (s : State), (s.engine e).running = some j → (∃ p ∈ j.packets, p.acked = false) →
    exec (.copyComplete e) s = .next s))

/-- R189, R198, R199: a packet that reaches an alcove store is written there byte for byte, counted in its counter,
and acknowledged; one for a retired alcove is answered and writes nothing; a `CSET` sets the value and the mode of its
counter. No other byte and no other counter changes. R204: a burst between two galleries needs both ports: free ones
are granted together, a refused request holds none and is counted, and the end of a burst frees both. R193, R197,
R206: INVAL_ALL begins an invalidation of every line of its mezzanine; when an invalidation ends, its lines are gone
and counted, and no other line is. -/
def Obligations.PacketsBurstsAndInvalidations : Prop :=
  ((∀ (i n a e id k : Nat) (f : Flight) (s : State), s.mem.inflight[i]? = some f → f.kind = .write → f.hdr = none →
    f.origin = .engine e id k → gaSpace f.dst = spaceS → siAlcove (gaOffset f.dst) = n → siByte (gaOffset f.dst) = a →
    s.retired (channelId 4 n) = false → Answers (.packetWrite i) s fun u =>
      (∀ x, x < f.data.length → tget 0 (u.alcove n).store (a + x) = BitVec.ofNat 8 (f.data.getD x 0)) ∧
      (∀ b, b < a ∨ a + f.data.length ≤ b → tget 0 (u.alcove n).store b = tget 0 (s.alcove n).store b) ∧
      (u.alcove n).core = (s.alcove n).core ∧ (∀ m, m ≠ n → u.alcove m = s.alcove m) ∧
      u.mem.inflight = s.mem.inflight.eraseIdx i ∧
      u.mem.acks = s.mem.acks ++ [{ origin := .engine e id k, status := 0 }] ∧
      (∀ h c, u.counter h c = if bit f.counter 15 = 1 ∧ counterKey h c = counterKey (bits f.counter 14 12) (bits f.counter 11 0)
        then { s.counter h c with count := (s.counter h c).count + BitVec.ofNat 64 (if (s.counter h c).packets then 1
          else f.data.length) } else s.counter h c) ∧
      u = { s with alcoves := u.alcoves, mem := u.mem }) ∧
  (∀ (i n e id k : Nat) (f : Flight) (s : State), s.mem.inflight[i]? = some f → f.kind = .write → f.hdr = none →
    f.origin = .engine e id k → gaSpace f.dst = spaceS → siAlcove (gaOffset f.dst) = n →
    s.retired (channelId 4 n) = true → exec (.packetWrite i) s = .next { s with mem := { s.mem with
      inflight := s.mem.inflight.eraseIdx i, acks := s.mem.acks ++ [{ origin := .engine e id k, status := 2 }] } }) ∧
  (∀ (i value mode e id k : Nat) (f : Flight) (s : State), s.mem.inflight[i]? = some f → f.kind = .cset value mode →
    f.origin = .engine e id k → Answers (.csetApply i) s fun u =>
      (∀ h c, u.counter h c = if counterKey h c = counterKey (tHall (gaOffset f.dst)) (tIndex (gaOffset f.dst))
        then { count := BitVec.ofNat 64 value, packets := mode == 1 } else s.counter h c) ∧
      u.mem.inflight = s.mem.inflight.eraseIdx i ∧
      u.mem.acks = s.mem.acks ++ [{ origin := .engine e id k, status := 0 }] ∧ u = { s with mem := u.mem })) ∧
  ((∀ (e : Fin 64) (a b : Nat) (j : CopyJob) (s : State), (s.engine e).running = some j →
    s.burstHalls j.req = some (a, b) → (s.engine e).burst = none → burstPackets 4096 j.packets ≠ [] →
    s.galleryHolder a = none → s.galleryHolder b = none → (∀ x, x < 64 → (s.engine x).refused = none) → s.noShots →
    tsorted s.mem.engines = true → Answers (.galleryBurstRequest [e]) s fun u =>
      u.galleryHolder a = some e.val ∧ u.galleryHolder b = some e.val ∧
      (∀ h, h ≠ a → h ≠ b → u.galleryHolder h = s.galleryHolder h) ∧ (u.engine e).burst = some (a, b)) ∧
  (∀ (e : Fin 64) (a b x : Nat) (j : CopyJob) (s : State), (s.engine e).running = some j →
    s.burstHalls j.req = some (a, b) → (s.engine e).burst = none → burstPackets 4096 j.packets ≠ [] →
    s.galleryHolder b = some x → Answers (.galleryBurstRequest [e]) s fun u =>
      u.engine e = { s.engine e with refused := some (a, b) } ∧ u.mem.galleryPort = s.mem.galleryPort ∧
      u.fld F.CE_GRANT_RETRY_COUNT e = min 0xFFFFFFFF (s.fld F.CE_GRANT_RETRY_COUNT e + 1) ∧
      (∀ k, k ≠ e.val → u.engine k = s.engine k) ∧ s.sameRegsBut u [(.CE_GRANT_RETRY, e, 0)] ∧
      u = { s with regs := u.regs, mem := u.mem }) ∧
  (∀ (e : Fin 64) (a b : Nat) (s : State), (s.engine e).burst = some (a, b) →
    (∀ x, x < 64 → (s.engine x).refused = none) → Answers (.galleryBurstRelease e) s fun u =>
      u.galleryHolder a = none ∧ u.galleryHolder b = none ∧
      (∀ h, h ≠ a → h ≠ b → u.galleryHolder h = s.galleryHolder h) ∧
      u.engine e = { s.engine e with burst := none } ∧ (∀ k, k ≠ e.val → u.engine k = s.engine k) ∧
      u = { s with mem := u.mem })) ∧
  ((∀ (a : Agent) (h : Fin 8) (v : Nat) (s : State), s.reaches a .MEZ_CTRL h → s.quiet →
    Answers (.mezInvalAll a h v) s fun u =>
      u.mem.invals = s.mem.invals ++
        [{ num := s.mem.nextInval, halls := [h.val], part := none, all := true, ranges := [] }] ∧
      u.mem.mezz = s.mem.mezz ∧ s.sameRegsBut u [(.MEZ_CTRL, h, 0)] ∧ u = { s with regs := u.regs, mem := u.mem }) ∧
  (∀ (i h : Nat) (x : Invalidation) (s : State), s.mem.invals[i]? = some x → x.halls = [h] → x.part = none →
    x.all = true → h < 8 → Performs (.rangeInvalidationDone i) s fun u =>
      u.mezLines h = [] ∧ (∀ k, k ≠ h → u.mezLines k = s.mezLines k) ∧
      u.fld F.MEZ_INVAL_LINES_COUNT h = (s.fld F.MEZ_INVAL_LINES_COUNT h + (s.mezLines h).length) % 2 ^ 32 ∧
      u.mem.invals = s.mem.invals.eraseIdx i ∧ s.sameRegsBut u [(.MEZ_INVAL_LINES, h, 0)] ∧
      u = { s with regs := u.regs, mem := u.mem }) ∧
  (∀ (i p h base len : Nat) (x : Invalidation) (s : State), s.mem.invals[i]? = some x → x.halls = [h] →
    x.part = some p → x.all = false → x.ranges = [{ base := base, bytes := len }] → 0 < len → h < 8 →
    Performs (.rangeInvalidationDone i) s fun u =>
      u.mezLines h = (s.mezLines h).filter (fun l =>
        !(l.part == p && decide (base / 256 ≤ l.line) && decide (l.line ≤ (base + len - 1) / 256))) ∧
      (∀ k, k ≠ h → u.mezLines k = s.mezLines k) ∧ u = { s with regs := u.regs, mem := u.mem }))

/-- R202: integer atomics. ADD wraps at the width of the format and is the same for signed and unsigned formats; MIN
and MAX compare signed for INT32 and INT64 and unsigned for UINT32 and UINT64; AND, OR and XOR act bitwise; adds to
one element give the same result in every order of arrival. -/
def Obligations.IntegerAtomicsExact : Prop :=
  (∀ afmt a b, 3 ≤ afmt → afmt ≤ 6 → let w := 8 * atomicSize afmt
    a < 2 ^ w → b < 2 ^ w →
      atomicCombine afmt 0 a b = (a + b) % 2 ^ w ∧
      (afmt = 3 ∨ afmt = 5 → toInt w (atomicCombine afmt 1 a b) = min (toInt w a) (toInt w b) ∧
        toInt w (atomicCombine afmt 2 a b) = max (toInt w a) (toInt w b)) ∧
      (afmt = 4 ∨ afmt = 6 → atomicCombine afmt 1 a b = min a b ∧ atomicCombine afmt 2 a b = max a b) ∧
      (∀ op, op ≤ 5 → atomicCombine afmt op a b < 2 ^ w) ∧
      (∀ i, (atomicCombine afmt 3 a b).testBit i = (a.testBit i && b.testBit i) ∧
        (atomicCombine afmt 4 a b).testBit i = (a.testBit i || b.testBit i) ∧
        (atomicCombine afmt 5 a b).testBit i = (a.testBit i).xor (b.testBit i))) ∧
  (∀ a b, atomicCombine 3 0 a b = atomicCombine 4 0 a b ∧ atomicCombine 5 0 a b = atomicCombine 6 0 a b) ∧
  (∀ afmt (x : Nat) (l m : List Nat), 3 ≤ afmt → afmt ≤ 6 → l.Perm m →
    l.foldl (atomicCombine afmt 0) x = m.foldl (atomicCombine afmt 0) x)

/-! ## Stacked memory (09_stacked_memory.md) -/

/-- R209: the sector code corrects any one wrong symbol. R209: the sector code detects any two wrong symbols. -/
def Obligations.SectorCode : Prop :=
  (∀ i v : Nat, i < 36 → 0 < v → v < 256 → decodeErrs [(i, v)] = .corrected i v) ∧
  (∀ i j v w : Nat, i < 36 → j < 36 → i ≠ j → 0 < v → v < 256 → 0 < w → w < 256 →
    decodeErrs [(i, v), (j, w)] = .bad false)

/-- R208, R213, R219, R220, R221: a write of a whole sector stores its bytes and its poison there and nowhere else; a
read of a sound sector returns its data and changes nothing; one wrong symbol is corrected and counted, and the sector
is to be written back; two begin a retry that holds the access. R219, R220: a re-read that decodes clean ends the
retry: a transient error is counted and the held read gets the data. The fourth that fails poisons the sector: a
permanent error is counted and logged. A write-back stores the corrected sector, and the patrol scrub of a sound line
changes nothing. -/
def Obligations.SectorsReadWriteAndRetry : Prop :=
  ((∀ (off : Nat) (bytes : List Nat) (poison : Bool) (p : Place) (s : State), s.placeOf (off / 32 * 32) = some p →
    bytes.length = 32 → s.refreshStep (p.chan / 32) ≠ 3 → s.soundSector p.key →
    Answers (.hbmAccess off (.write 0 bytes poison) []) s fun u =>
      (∀ i, i < 32 → tget 0 u.hbm.cells (32 * p.key + i) = BitVec.ofNat 8 (bytes.getD i 0)) ∧
      (∀ b, b < 32 * p.key ∨ 32 * p.key + 32 ≤ b → tget 0 u.hbm.cells b = tget 0 s.hbm.cells b) ∧
      u.sectorPoison p.key = poison ∧ (∀ k, k ≠ p.key → u.sectorPoison k = s.sectorPoison k) ∧
      p.key ∉ u.hbm.writebacks ∧ u = { s with hbm := u.hbm }) ∧
  (∀ (off : Nat) (p : Place) (s : State), s.placeOf (off / 32 * 32) = some p → s.refreshStep (p.chan / 32) ≠ 3 →
    s.soundSector p.key → s.noShots → exec (.hbmAccess off .read []) s =
      .next { s with hbm := { s.hbm with lastRead := s.sectorData p.key, lastPoison := false } }) ∧
  (∀ (off i v : Nat) (p : Place) (s : State), s.placeOf (off / 32 * 32) = some p → s.refreshStep (p.chan / 32) ≠ 3 →
    s.soundSector p.key → s.noShots → i < 32 → 0 < v → v < 256 → keyPc p.key = 0 → p.chan < 256 → p.line < 6291456 →
    p.byte < 256 → Answers (.hbmAccess off .read [(i, v)]) s fun u =>
      u.hbm.lastRead = s.sectorData p.key ∧ u.hbm.lastPoison = false ∧ p.key ∈ u.hbm.writebacks ∧
      u.hbm.cells = s.hbm.cells ∧
      u.fld F.HBM_ECC_CE_CE_PC0 p.chan = min 0xFFFF (s.fld F.HBM_ECC_CE_CE_PC0 p.chan + 1) ∧
      u = { s.raised u with hbm := u.hbm, ras := u.ras }) ∧
  (∀ (off i j v w : Nat) (p : Place) (s : State), s.placeOf (off / 32 * 32) = some p →
    s.refreshStep (p.chan / 32) ≠ 3 → s.soundSector p.key → s.noShots → i < 32 → j < 32 →
    decodeErrs [(i, v), (j, w)] = .bad false → Answers (.hbmAccess off .read [(i, v), (j, w)]) s fun u =>
      (∃ r, u.hbm.retries = s.hbm.retries ++ [r] ∧ r.key = p.key ∧ r.rereads = 0 ∧ r.held = [.read]) ∧
      u.hbm.cells = s.hbm.cells ∧ u.hbm.lastRead = s.hbm.lastRead ∧ u = { s with hbm := u.hbm }) ∧
  (∀ (off : Nat) (bytes : List Nat) (poison : Bool) (p : Place) (s : State), s.placeOf (off / 32 * 32) = some p →
    bytes.length = 32 → s.refreshStep (p.chan / 32) ≠ 3 → (s.retryOf p.key).isNone → s.sectorRetired p.key = true →
    exec (.hbmAccess off (.write 0 bytes poison) []) s = .next s)) ∧
  ((∀ (i : Nat) (r : Retry) (s : State), s.hbm.retries[i]? = some r → s.upsetAt r.key = .none → r.held = [.read] →
    s.sectorPoison r.key = false → s.sectorRetired r.key = false → s.inRetiredPage r.key = false → s.noShots →
    keyPc r.key = 0 → keyChan r.key < 256 → Answers (.hbmReread i []) s fun u =>
      u.hbm.retries = s.hbm.retries.eraseIdx i ∧
      u.fld F.HBM_ECC_UE_UE_TRANS_PC0 (keyChan r.key) = min 0xFF (s.fld F.HBM_ECC_UE_UE_TRANS_PC0 (keyChan r.key) + 1) ∧
      u.hbm.cells = s.hbm.cells ∧ u.hbm.poison = s.hbm.poison ∧
      u = { s.raised u with hbm := u.hbm, ras := u.ras }) ∧
  (∀ (i : Nat) (noise : List (Nat × Nat)) (r : Retry) (s : State), s.hbm.retries[i]? = some r → r.rereads < 3 →
    decodeErrs ((s.upsetAt r.key).errs ++ noise) = .bad false → Answers (.hbmReread i noise) s fun u =>
      u.hbm.cells = s.hbm.cells ∧ u.hbm.poison = s.hbm.poison ∧
      u.hbm.retries.length = s.hbm.retries.length ∧
      (∃ x, u.hbm.retries[i]? = some x ∧ x.key = r.key ∧ x.rereads = r.rereads + 1 ∧ x.held = r.held) ∧
      u = { s with hbm := u.hbm }) ∧
  (∀ (i : Nat) (noise : List (Nat × Nat)) (r : Retry) (s : State), s.hbm.retries[i]? = some r → r.rereads = 3 →
    r.held = [] → decodeErrs ((s.upsetAt r.key).errs ++ noise) = .bad false → keyPc r.key = 0 → keyChan r.key < 256 →
    s.keyOffset r.key = none → s.fld F.HBM_ERR_LOG_VALID (keyChan r.key) = 0 → Answers (.hbmReread i noise) s fun u =>
      u.sectorPoison r.key = true ∧
      u.fld F.HBM_ECC_UE_UE_PERM_PC0 (keyChan r.key) = min 0xFF (s.fld F.HBM_ECC_UE_UE_PERM_PC0 (keyChan r.key) + 1) ∧
      u.fld F.HBM_ERR_LOG_VALID (keyChan r.key) = 1 ∧ u.fld F.HBM_ERR_LOG_KIND (keyChan r.key) = 2 ∧
      u.fld F.HBM_ERR_LOG_LINE (keyChan r.key) = keyLine r.key ∧ u.hbm.retries = s.hbm.retries.eraseIdx i ∧
      u = { s.raised u with hbm := u.hbm, ras := u.ras }) ∧
  (∀ (i k j v : Nat) (m : Mark) (s : State), s.hbm.writebacks[i]? = some k → s.sectorRetired k = false → j < 32 →
    0 < v → v < 256 → s.upsetAt k = { errs := [(j, v)], mark := m } → tsorted s.hbm.upsets = true →
    Answers (.hbmCorrectedWriteback i) s fun u =>
      u.upsetAt k = .none ∧ k ∉ u.hbm.writebacks ∧ u.sectorPoison k = s.sectorPoison k ∧
      (∀ b, tget 0 u.hbm.cells b = tget 0 s.hbm.cells b) ∧ u = { s with hbm := u.hbm }) ∧
  (∀ (c : Fin 256) (line : Fin 6291456) (s : State), (s.channel c).state = .ready → s.refreshStep (c / 32) ≠ 3 →
    (∀ i, i < 8 → s.soundSector (sectorKey c line i)) → s.noShots → Answers (.patrolScrub c line) s fun u =>
      u.channel c = { s.channel c with patrol := (s.channel c).patrol + 1 } ∧
      (∀ k, k ≠ c.val → u.channel k = s.channel k) ∧ u = { s with hbm := { s.hbm with channels := u.hbm.channels } }))

/-- R226, R227, R228, R229: a refresh and a refresh management note their bank's time; a temperature reading sets the
step: 0 below 85 °C, 1 from 85, 2 from 95, 3 from 105, each left 3 °C below its entry, and entering step 2 or 3 raises
the stack's source. R230, R231: a channel takes its bring-up steps in order and is ready once wiped; a step that fails
excludes it and is a hard signature. A finished wipe leaves every byte of its channels zero and no poison there, and
no other channel changes. -/
def Obligations.ChannelsServe : Prop :=
  ((∀ (c : Fin 256) (pc : Fin 2) (b : Fin 256) (s : State), exec (.hbmRefresh c pc b) s = .next { s with hbm := { s.hbm with
    refreshed := tset 0 s.hbm.refreshed (bankKey c pc b) s.time.tick } }) ∧
  (∀ (c : Fin 256) (pc : Fin 2) (b : Fin 256) (s : State), exec (.hbmRefreshManagement c pc b) s = .next { s with
    hbm := { s.hbm with managed := tset 0 s.hbm.managed (bankKey c pc b) s.time.tick } }) ∧
  (∀ (h : Fin 8) (t : Int) (s : State), Answers (.hbmTemperatureRead h t) s fun u =>
    (u.refreshStep h = 3 ↔ 105 ≤ t ∨ (s.refreshStep h = 3 ∧ 102 ≤ t)) ∧
    (u.refreshStep h = 0 ↔ t < 82 ∨ (s.refreshStep h = 0 ∧ t < 85)) ∧
    (2 ≤ u.refreshStep h ↔ 95 ≤ t ∨ (2 ≤ s.refreshStep h ∧ 92 ≤ t)) ∧
    (0 ≤ t → t < 256 → (u.fld F.HBM_STACK_STATUS_TEMP h : Int) = t) ∧
    (u.refreshStep h ≤ s.refreshStep h → u = { s with regs := u.regs, pwr := u.pwr }) ∧
    (s.refreshStep h < u.refreshStep h → 2 ≤ u.refreshStep h → (s.icSource (source h 75)).state = .inactive →
      (u.icSource (source h 75)).state ≠ .inactive))) ∧
  ((∀ (c : Fin 256) (ok : Bool) (lanes : Nat) (s : State), (s.channel c).state = .off →
    Performs (.hbmBringupStep c ok lanes) s fun u =>
      u.channel c = { s.channel c with state := .training } ∧ (∀ k, k ≠ c.val → u.channel k = s.channel k) ∧
      u = { s with hbm := { s.hbm with channels := u.hbm.channels } }) ∧
  (∀ (c : Fin 256) (lanes : Nat) (s : State), (s.channel c).state = .training →
    Performs (.hbmBringupStep c true lanes) s fun u =>
      u.channel c = { s.channel c with state := .test, lanesRepaired := min 15 lanes } ∧
      (∀ k, k ≠ c.val → u.channel k = s.channel k) ∧ u = { s with hbm := { s.hbm with channels := u.hbm.channels } }) ∧
  (∀ (c : Fin 256) (lanes : Nat) (s : State), (s.channel c).state = .test → (s.channel c).wiping = false → s.noShots →
    Performs (.hbmBringupStep c true lanes) s fun u =>
      u.channel c = { s.channel c with wiping := true } ∧ (∀ k, k ≠ c.val → u.channel k = s.channel k) ∧
      u.hbm.wipes = s.hbm.wipes ++
        [{ num := s.hbm.nextWipe, channels := [c.val], dRanges := [], gRanges := [], since := s.time.tick }] ∧
      u = { s with hbm := u.hbm }) ∧
  (∀ (c : Fin 256) (lanes : Nat) (s : State), (s.channel c).state = .training → s.retired (channelId 3 c) = false →
    Performs (.hbmBringupStep c false lanes) s fun u =>
      (u.channel c).excluded = true ∧ (∃ y ∈ u.ras.owed, y.channel = channelId 3 c ∧ y.hard = true) ∧
      (∀ k, k ≠ c.val → u.channel k = s.channel k) ∧ u = { s with hbm := u.hbm, ras := u.ras }) ∧
  (∀ (i : Nat) (w : Wipe) (s : State), s.hbm.wipes[i]? = some w → w.dRanges = [] → w.gRanges = [] →
    (∀ c, c ∈ w.channels → (s.channel c).wiping = true ∧ (s.channel c).state ≠ .retired) →
    Performs (.hbmWipeDone i) s fun u =>
      (∀ c, c ∈ w.channels → (u.channel c).state = .ready ∧ (u.channel c).wiping = false) ∧
      (∀ a, w.channels.contains (a / channelBytes) → tget 0 u.hbm.cells a = 0) ∧
      (∀ a, w.channels.contains (a / channelBytes) = false → tget 0 u.hbm.cells a = tget 0 s.hbm.cells a) ∧
      (∀ k, w.channels.contains (keyChan k) → u.sectorPoison k = false) ∧
      (∀ c, c ∉ w.channels → u.channel c = s.channel c) ∧ u.hbm.wipes = s.hbm.wipes.eraseIdx i ∧
      u = { s with hbm := u.hbm }))

/-- R216, R217, R232, R233: a generator starts on a channel in TEST and is refused elsewhere; ABORT ends its run in
state 3; a run of no operation over one line ends done without a failure; a gather completes once every result packet
is acknowledged. -/
def Obligations.GeneratorsAndGathers : Prop :=
  (∀ (a : Agent) (c : Fin 256) (v : Nat) (s : State), s.reaches a .TGEN_CTRL c → s.quiet →
    F.TGEN_CTRL_ABORT.of (v % 2 ^ 32) = 0 → F.TGEN_CTRL_OP.of (v % 2 ^ 32) ≠ 3 → (s.channel c).state = .test →
    (s.channel c).wiping = false → Answers (.tgenStart a c v) s fun u =>
      u.fld F.TGEN_STATUS_STATE c = 1 ∧ u.fld F.TGEN_STATUS_FAIL c = 0 ∧ u.fld F.TGEN_ERRORS_COUNT c = 0 ∧
      u.reg .TGEN_FIRST_FAIL c = 0 ∧ u = { s with regs := u.regs }) ∧
  (∀ (a : Agent) (c : Fin 256) (v : Nat) (s : State), s.reaches a .TGEN_CTRL c → s.quiet →
    F.TGEN_CTRL_ABORT.of (v % 2 ^ 32) = 0 → (s.channel c).state ≠ .test → Answers (.tgenStart a c v) s fun u =>
      u.fld F.TGEN_STATUS_REFUSED c = 1 ∧ u.fld F.TGEN_STATUS_STATE c = s.fld F.TGEN_STATUS_STATE c ∧
      s.sameRegsBut u [(.TGEN_CTRL, c, 0), (.TGEN_STATUS, c, 0)] ∧ u = { s with regs := u.regs }) ∧
  (∀ (a : Agent) (c : Fin 256) (v : Nat) (s : State), s.reaches a .TGEN_CTRL c → s.quiet →
    F.TGEN_CTRL_START.of (v % 2 ^ 32) = 0 → s.fld F.TGEN_STATUS_STATE c = 1 → Answers (.tgenAbort a c v) s fun u =>
      u.fld F.TGEN_STATUS_STATE c = 3 ∧ u = s.raised u) ∧
  (∀ (c : Fin 256) (s : State), s.fld F.TGEN_STATUS_STATE c = 1 → (s.channel c).state = .test →
    s.fld F.TGEN_CTRL_OP c = 0 → s.fld F.TGEN_CTRL_RAW c = 0 → s.fld F.TGEN_COUNT_COUNT c = 1 →
    s.fld F.TGEN_START_LINE_START_LINE c < 6291456 → Answers (.tgenRunComplete c) s fun u =>
      let line := s.fld F.TGEN_START_LINE_START_LINE c
      u.fld F.TGEN_STATUS_STATE c = 2 ∧ u.fld F.TGEN_STATUS_FAIL c = 0 ∧
      (∀ i, i < 8 → bit (if s.fld F.TGEN_CTRL_PC_MASK c = 0 then 3 else s.fld F.TGEN_CTRL_PC_MASK c) (i % 2) = 1 →
        u.sectorData (sectorKey c line i) = (patternSector (s.fld F.TGEN_CTRL_PATTERN c) (s.reg .TGEN_SEED c)
          (s.reg .TGEN_CONST_HI c) line i).map (· % 256)) ∧
      u = { s.raised u with hbm := u.hbm, drawn := s.drawn + 1 }) ∧
  (∀ (h : Fin 8) (g : Gather) (o : Operation) (s : State), s.gather? h = some g → s.op? g.queue g.op = some o →
    o.launched = true → g.outstanding = 0 → Performs (.gatherComplete h) s fun u =>
      u.gather? h = none ∧ (∀ k, k ≠ h.val → u.gather? k = s.gather? k) ∧
      (∃ o', u.op? g.queue g.op = some o' ∧ o'.engineDone = true ∧
        o'.status = (if g.rangeError.isSome then stGatherRange else o.status) ∧
        o'.detail = g.rangeError.getD o.detail) ∧ u = { s with hbm := u.hbm, vst := u.vst })

/-! ## Landings and token queues (10_landings_and_token_queues.md) -/

/-- R238, R239, R240: a signal adds tokens up to LIMIT and records an overflow; a wait joins the list; the head waiter
is served once VALUE covers it, and not before; a try takes tokens only when no one waits and VALUE suffices, and
answers its predicate either way. -/
def Obligations.TokensMove : Prop :=
  (∀ (h k a c : Nat) (rest : List SyncOp) (s : State), s.sync.net = .signal h k a c :: rest → (s.tokenQ h k).valid = true →
    0 < c → (s.tokenQ h k).value + c ≤ (s.tokenQ h k).limit → s.notifiedBy h k = [] → Answers (.tokenSignal 0) s fun u =>
      u.tokenQ h k = { s.tokenQ h k with value := (s.tokenQ h k).value + c } ∧ u.sync.net = rest ∧
      (∀ h' k', objectKey h' k' ≠ objectKey h k → u.tokenQ h' k' = s.tokenQ h' k') ∧ u = { s with sync := u.sync }) ∧
  (∀ (h : Fin 8) (k a c : Nat) (rest : List SyncOp) (s : State), s.sync.net = .signal h k a c :: rest →
    (s.tokenQ h k).valid = true → (s.tokenQ h k).limit < (s.tokenQ h k).value + c →
    (s.tokenQ h k).value ≤ (s.tokenQ h k).limit → s.notifiedBy h k = [] → Answers (.tokenSignal 0) s fun u =>
      (u.tokenQ h k).value = (s.tokenQ h k).limit ∧
      (u.tokenQ h k).overflows = min 0xFFFFFFFF ((s.tokenQ h k).overflows + 1) ∧
      u.fld F.SYNC_EVENT_TOKEN_OVERFLOW h = 1 ∧ u = { s.raised u with sync := u.sync }) ∧
  (∀ (h k a c : Nat) (p : Party) (rest : List SyncOp) (s : State), s.sync.net = .wait h k a c p :: rest →
    (s.tokenQ h k).valid = true → 0 < c → c ≤ (s.tokenQ h k).limit → Answers (.tokenWait 0) s fun u =>
      u.tokenQ h k = { s.tokenQ h k with
        waiters := (s.tokenQ h k).waiters ++ [{ agent := a, party := p, count := c }] } ∧
      (∀ h' k', objectKey h' k' ≠ objectKey h k → u.tokenQ h' k' = s.tokenQ h' k') ∧ u.sync.net = rest ∧
      u = { s with sync := u.sync }) ∧
  (∀ (h : Fin 8) (k : Fin 4096) (n : Nat) (w : Waiter) (rest : List Waiter) (s : State),
    (s.tokenQ h k).waiters = w :: rest → w.count ≤ (s.tokenQ h k).value → w.party = .alcove n →
    Answers (.tokenWaiterRelease h k) s fun u =>
      u.tokenQ h k = { s.tokenQ h k with value := (s.tokenQ h k).value - w.count, waiters := rest } ∧
      (u.alcove n).core = { (s.alcove n).core with granted := true } ∧ (∀ m, m ≠ n → u.alcove m = s.alcove m) ∧
      u = { s with sync := u.sync, alcoves := u.alcoves }) ∧
  (∀ (h : Fin 8) (k : Fin 4096) (w : Waiter) (rest : List Waiter) (s : State), (s.tokenQ h k).waiters = w :: rest →
    (s.tokenQ h k).value < w.count → exec (.tokenWaiterRelease h k) s = .next s) ∧
  (∀ (h k a c n d : Nat) (rest : List SyncOp) (s : State), s.sync.net = .try h k a c (.alcove n) d :: rest →
    (s.tokenQ h k).valid = true → 0 < d → (s.alcove n).core.bank = 0 → Answers (.tokenTry 0) s fun u =>
      let ok := (s.tokenQ h k).waiters = [] ∧ c ≤ (s.tokenQ h k).value
      (ok → u.tokenQ h k = { s.tokenQ h k with value := (s.tokenQ h k).value - c } ∧
        (u.alcove n).core.pReg d = { bits := BitVec.allOnes 512, poison := false }) ∧
      (¬ ok → u.tokenQ h k = s.tokenQ h k ∧ (u.alcove n).core.pReg d = { bits := 0, poison := false }) ∧
      (∀ i, i ≠ d → (u.alcove n).core.pReg i = (s.alcove n).core.pReg i) ∧ (∀ m, m ≠ n → u.alcove m = s.alcove m) ∧
      u = { s with sync := u.sync, alcoves := u.alcoves })

/-- R241, R242, R243, R244, R246, R247: an arrival of the current phase is counted and the last one completes the
generation: the phase flips, the generation counts up and the waiters go on; one of the other phase is held; a second
one of an agent is ignored and reported. A timed generation is released at RELEASE_NEXT, which grows by PERIOD. -/
def Obligations.LandingsRelease : Prop :=
  (∀ (h : Fin 8) (l a : Nat) (rest : List SyncOp) (s : State),
    s.sync.net = .arrive h l a (s.landing h l).phase :: rest → (s.landing h l).valid = true →
    (s.landing h l).system = false → (s.landing h l).localDone = false → (s.landing h l).arrivals = [] →
    1 < (s.landing h l).count → Answers (.landingArrival 0) s fun u =>
      (u.landing h l).arrivals = [{ agent := a, phase := (s.landing h l).phase, kind := .counted }] ∧
      (u.landing h l).phase = (s.landing h l).phase ∧ (u.landing h l).generation = (s.landing h l).generation ∧
      (u.landing h l).waiters = (s.landing h l).waiters ∧ u.sync.net = rest ∧ u = { s with sync := u.sync }) ∧
  (∀ (h : Fin 8) (l a n : Nat) (rest : List SyncOp) (s : State),
    s.sync.net = .arrive h l a (s.landing h l).phase :: rest → (s.landing h l).valid = true →
    (s.landing h l).system = false → (s.landing h l).timed = false → (s.landing h l).localDone = false →
    (s.landing h l).arrivals = [] → (s.landing h l).count = 1 →
    (s.landing h l).waiters = [{ agent := n, party := .alcove n, phase := (s.landing h l).phase }] →
    (∀ p ∈ s.sync.queues, p.2.anchored = false) → a < 4368 → Answers (.landingArrival 0) s fun u =>
      (u.landing h l).phase = 1 - (s.landing h l).phase ∧
      (u.landing h l).generation = ((s.landing h l).generation + 1) % 2 ^ 64 ∧ (u.landing h l).arrivals = [] ∧
      (u.landing h l).waiters = [] ∧ (u.alcove n).core = { (s.alcove n).core with granted := true } ∧
      (∀ m, m ≠ n → u.alcove m = s.alcove m) ∧ u = { s with sync := u.sync, alcoves := u.alcoves }) ∧
  (∀ (h : Fin 8) (l a ph : Nat) (rest : List SyncOp) (s : State), s.sync.net = .arrive h l a ph :: rest →
    (s.landing h l).valid = true → ph ≠ (s.landing h l).phase →
    (∀ x ∈ (s.landing h l).arrivals, x.agent = a → x.phase ≠ ph) →
    (s.landing h l).arrivals.length < s.reserved (s.landing h l) → Answers (.landingArrival 0) s fun u =>
      u.landing h l = { s.landing h l with
        arrivals := (s.landing h l).arrivals ++ [{ agent := a, phase := ph, kind := .held }] } ∧
      u.sync.net = rest ∧ u = { s with sync := u.sync }) ∧
  (∀ (h : Fin 8) (l a ph : Nat) (x : Arrival) (rest : List SyncOp) (s : State), s.sync.net = .arrive h l a ph :: rest →
    (s.landing h l).valid = true → x ∈ (s.landing h l).arrivals → x.agent = a → x.phase = ph →
    Answers (.landingArrival 0) s fun u =>
      u.landing h l = { s.landing h l with doubles := min 0xFFFF ((s.landing h l).doubles + 1) } ∧
      u.fld F.SYNC_EVENT_DOUBLE_ARRIVAL h = 1 ∧ u = { s.raised u with sync := u.sync }) ∧
  (∀ (h : Fin 8) (l a ph n : Nat) (rest : List SyncOp) (s : State),
    s.sync.net = .landWait h l a ph (.alcove n) :: rest → (s.landing h l).valid = true → Answers (.landingWait 0) s fun u =>
      ((∃ x ∈ (s.landing h l).arrivals, x.agent = a ∧ x.phase = ph) →
        u.landing h l = { s.landing h l with
          waiters := (s.landing h l).waiters ++ [{ agent := a, party := .alcove n, phase := ph }] } ∧
        u.alcoves = s.alcoves) ∧
      ((∀ x ∈ (s.landing h l).arrivals, x.agent = a → x.phase ≠ ph) →
        u.landing h l = s.landing h l ∧ (u.alcove n).core = { (s.alcove n).core with granted := true }) ∧
      u.sync.net = rest ∧ u = { s with sync := u.sync, alcoves := u.alcoves }) ∧
  (∀ (h : Fin 8) (l : Fin 1024) (t : Nat) (s : State), (s.landing h l).completed = some t →
    (s.landing h l).timed = true → (s.landing h l).spent = false → (s.landing h l).releaseNext ≤ s.now h →
    (s.landing h l).waiters = [] → (s.landing h l).arrivals.all (fun a => a.kind == .counted) = true →
    0 < (s.landing h l).count → (∀ p ∈ s.sync.queues, p.2.anchored = false) → Answers (.timedLandingRelease h l) s fun u =>
      (u.landing h l).phase = 1 - (s.landing h l).phase ∧ (u.landing h l).arrivals = [] ∧
      (u.landing h l).generation = ((s.landing h l).generation + 1) % 2 ^ 64 ∧
      (u.landing h l).releaseNext = ((s.landing h l).releaseNext + (s.landing h l).period) % 2 ^ 64 ∧
      (u.landing h l).completed = none ∧ u = { s with sync := u.sync }) ∧
  (∀ (h : Fin 8) (l : Fin 1024) (s : State), s.now h < (s.landing h l).releaseNext → (s.landing h l).timed = true →
    (s.landing h l).spent = false → exec (.timedLandingRelease h l) s = .next s) ∧
  (∀ (h : Fin 8) (l : Fin 1024) (t : Nat) (s : State), (s.landing h l).firstTread = some t →
    (s.landing h l).valid = true → 0 < (s.landing h l).stall → (s.landing h l).stalled = false →
    (s.landing h l).completed = none → t + (s.landing h l).stall ≤ s.now h → Answers (.landingStallDetect h l) s fun u =>
      u.landing h l = { s.landing h l with stalled := true } ∧ u.fld F.SYNC_EVENT_LANDING_STALLED h = 1 ∧
      u = { s.raised u with sync := u.sync })

/-- R252, R254: an ascent of a child counts at the landing that its SLN names; an ascent whose SLN is not in the map,
and a descent of another phase than the current one, are dropped and counted. R256, R258: WRITE configures a token
queue from SYNC_DATA, INIT empties it, DISABLE unconfigures it, and READ brings its record to SYNC_DATA, each with
RESULT 0; while it has a waiter, INIT is refused with SYNC_BUSY and changes nothing. -/
def Obligations.StairwellAndSyncCommands : Prop :=
  ((∀ (port tree sln : Nat) (e : SlnEntry) (rest : List SyncOp) (s : State),
    let x := s.landing e.hall e.landing
    s.sync.net = .ascent port x.phase false tree sln :: rest → s.sln sln = e → e.valid = true → e.hall < 8 →
    x.valid = true → x.system = true → x.tree = tree → x.sln = sln → bit (s.tree tree).childMask port = 1 →
    x.localDone = false → x.arrivals = [] → 0 < x.count → Answers (.ascentReceive 0) s fun u =>
      (u.landing e.hall e.landing).arrivals = [{ agent := 4368 + port, phase := x.phase, kind := .counted }] ∧
      (u.landing e.hall e.landing).phase = x.phase ∧ u.sync.net = rest ∧ u = { s with sync := u.sync }) ∧
  (∀ (port phase tree sln : Nat) (resend : Bool) (rest : List SyncOp) (s : State),
    s.sync.net = .ascent port phase resend tree sln :: rest → (s.sln sln).valid = false →
    Answers (.ascentReceive 0) s fun u =>
      u.fld F.SYNC_MSG_DROPPED_COUNT = min 0xFFFFFFFF (s.fld F.SYNC_MSG_DROPPED_COUNT + 1) ∧
      u.fld F.SYNC_EVENT_MSG_DROPPED = 1 ∧ u.sync = { s.sync with net := rest } ∧
      u = { s.raised u with sync := u.sync }) ∧
  (∀ (port phase tree sln : Nat) (resend : Bool) (e : SlnEntry) (rest : List SyncOp) (s : State),
    s.sync.net = .descent port phase resend tree sln :: rest → s.sln sln = e → e.valid = true → e.hall < 8 →
    (s.landing e.hall e.landing).valid = true → (s.landing e.hall e.landing).system = true →
    (s.landing e.hall e.landing).tree = tree → (s.landing e.hall e.landing).sln = sln →
    phase ≠ (s.landing e.hall e.landing).phase → Answers (.descentReceive 0) s fun u =>
      u.fld F.SYNC_MSG_DROPPED_COUNT e.hall = min 0xFFFFFFFF (s.fld F.SYNC_MSG_DROPPED_COUNT e.hall + 1) ∧
      u.sync = { s.sync with net := rest } ∧ u = { s.raised u with sync := u.sync }) ∧
  (∀ (port tree sln : Nat) (resend : Bool) (e : SlnEntry) (rest : List SyncOp) (s : State),
    let x := s.landing e.hall e.landing
    s.sync.net = .descent port x.phase resend tree sln :: rest → s.sln sln = e → e.valid = true → x.valid = true →
    x.system = true → x.tree = tree → x.sln = sln → (s.tree tree).parentValid = true →
    (s.tree tree).parentPort = port → (s.tree tree).childMask = 0 → x.timed = false → x.waiters = [] →
    x.arrivals.all (fun a => a.kind == .counted) = true → 0 < x.count → (∀ p ∈ s.sync.queues, p.2.anchored = false) →
    Answers (.descentReceive 0) s fun u =>
      (u.landing e.hall e.landing).phase = 1 - x.phase ∧ (u.landing e.hall e.landing).arrivals = [] ∧
      (u.landing e.hall e.landing).generation = (x.generation + 1) % 2 ^ 64 ∧ u = { s with sync := u.sync })) ∧
  ((∀ (a : Agent) (h : Fin 8) (i : Fin 4096) (s : State), s.reaches a .SYNC_CMD h → s.quiet →
    tokenRecordFails (s.syncData h 16) = none → (s.tokenQ h i).waiters = [] → Answers (.syncWrite a h 0 i) s fun u =>
      u.tokenQ h i = (s.tokenQ h i).write (s.syncData h 16) ∧ u.fld F.SYNC_CMD_STATUS_RESULT h = 0 ∧
      (∀ h' k', objectKey h' k' ≠ objectKey h i → u.tokenQ h' k' = s.tokenQ h' k') ∧
      s.sameRegsBut u [(.SYNC_CMD, h, 0), (.SYNC_CMD_STATUS, h, 0)] ∧ u = { s with regs := u.regs, sync := u.sync }) ∧
  (∀ (a : Agent) (h : Fin 8) (i : Fin 4096) (s : State), s.reaches a .SYNC_CMD h → s.quiet →
    (s.tokenQ h i).waiters = [] → Answers (.syncInit a h 0 i) s fun u =>
      u.tokenQ h i = { s.tokenQ h i with value := 0, overflows := 0 } ∧ u.fld F.SYNC_CMD_STATUS_RESULT h = 0 ∧
      s.sameRegsBut u [(.SYNC_CMD, h, 0), (.SYNC_CMD_STATUS, h, 0)] ∧ u = { s with regs := u.regs, sync := u.sync }) ∧
  (∀ (a : Agent) (h : Fin 8) (i : Fin 4096) (s : State), s.reaches a .SYNC_CMD h → s.quiet →
    (s.tokenQ h i).waiters ≠ [] → Answers (.syncInit a h 0 i) s fun u =>
      u.fld F.SYNC_CMD_STATUS_RESULT h = 2 ∧ u = { s with regs := u.regs }) ∧
  (∀ (a : Agent) (h : Fin 8) (i : Fin 4096) (s : State), s.reaches a .SYNC_CMD h → s.quiet →
    (s.tokenQ h i).waiters = [] → Answers (.syncDisable a h 0 i) s fun u =>
      u.tokenQ h i = .reset ∧ u.fld F.SYNC_CMD_STATUS_RESULT h = 0 ∧
      s.sameRegsBut u [(.SYNC_CMD, h, 0), (.SYNC_CMD_STATUS, h, 0)] ∧ u = { s with regs := u.regs, sync := u.sync }) ∧
  (∀ (a : Agent) (h : Fin 8) (i : Fin 4096) (s : State), s.reaches a .SYNC_CMD h → s.quiet →
    Answers (.syncRead a h 0 i) s fun u =>
      u.syncData h 16 = (s.tokenQ h i).toRecord ∧ u.fld F.SYNC_CMD_STATUS_RESULT h = 0 ∧ u = { s with regs := u.regs }))

/-! ## The annealers (11_annealer.md) -/

/-- R266 to R270: a sweep of a one-spin problem flips the spin exactly where its draw accepts, and counts the update;
an evaluation pass sets the energy of R261, and one that finds a bad row ends the operation with `ANNEAL_PROBLEM`; an
exchange of two replicas swaps states and energies exactly where its draw accepts; the threshold test accepts what is
not above 0, and falls with the draw. R274, R275, R276, R280: an epoch starts by loading the block from STATE, with a
clamp pass where there are more blocks than one; at a sweep point the annealer sends its block, arrives and waits;
released, and with its counter reached, it goes on to its next epoch or ends; an ended operation leaves the annealer
idle and its operation completed. -/
def Obligations.AnnealersRun : Prop :=
  ((∀ (h : Fin 8) (w e : Nat) (x : AnnRun) (row : AnnRow) (s : State), s.annRun h = some x → x.stage = .sweep →
    x.spins = [w] → x.energy = [e] → x.d.replicas = 1 → x.d.blocks ≤ 1 → x.d.exchEvery = 0 → x.d.traceEvery = 0 →
    x.d.targetEn = false → x.target = false → x.d.bestEn = false → x.poison = false → s.noShots →
    s.annRowOf h x x.first = (s, row) →
    Answers (.annealSweep h) s fun u =>
      let de := x.flipCost row (zeros 128) 0 0
      let flip := x.accepts 0 de (draw x.d.seed (x.done * 2 ^ 29 + x.first))
      (∃ y, u.annRun h = some y ∧ y.done = x.done + 1 ∧ y.stage = (if x.inEpoch + 1 < x.d.sweeps then .sweep else .ended) ∧
        y.spins = (if flip then [putBits w 0 0 (1 - bit w 0)] else [w]) ∧
        y.energy = (if flip then [fp64Of ((fp64Val e).plus de)] else [e])) ∧
      u.fld F.ANN_UPDATES_COUNT h = (s.fld F.ANN_UPDATES_COUNT h + 1) % 2 ^ 32 ∧
      u.fld F.ANN_FLIPS_COUNT h = (s.fld F.ANN_FLIPS_COUNT h + if flip then 1 else 0) % 2 ^ 32 ∧
      s.sameRegsBut u [(.ANN_UPDATES, h, 0), (.ANN_FLIPS, h, 0)] ∧ (∀ k, k ≠ h.val → u.annRun k = s.annRun k) ∧
      u = { s with regs := u.regs, ann := u.ann }) ∧
  (∀ (h : Fin 8) (w : Nat) (x : AnnRun) (row : AnnRow) (s : State), s.annRun h = some x → x.stage = .eval → x.spins = [w] →
    x.d.replicas = 1 → x.d.blocks ≤ 1 → s.annRowOf h x x.first = (s, row) → row.ok = true →
    Answers (.annealEvaluationPass h) s fun u =>
      u.annRun h = some { x with energy := [fp64Of (x.addEnergy row (zeros 128) 0 0 .zero)], stage := .sweep } ∧
      (∀ k, k ≠ h.val → u.annRun k = s.annRun k) ∧ u = { s with ann := u.ann }) ∧
  (∀ (h : Fin 8) (w : Nat) (x : AnnRun) (row : AnnRow) (s : State), s.annRun h = some x → x.stage = .eval → x.spins = [w] →
    s.annRowOf h x x.first = (s, row) → row.ok = false → s.fld F.ANN_ERROR_VALID h = 0 →
    Answers (.annealEvaluationPass h) s fun u =>
      u.annRun h = some { x with problem := some x.first, stage := .ended } ∧ u.fld F.ANN_ERROR_VALID h = 1 ∧
      u.fld F.ANN_ERROR_CODE h = 1 ∧ u.fld F.ANN_ERROR_SPIN h = x.first % 2 ^ 24 ∧
      u = { s.raised u with ann := u.ann }) ∧
  (∀ (h : Fin 8) (e0 e1 : Nat) (x : AnnRun) (s : State), s.annRun h = some x → x.stage = .exchange → x.d.replicas = 2 →
    x.energy = [e0, e1] → (x.done / x.d.exchEvery - 1) % 2 = 0 → Answers (.annealExchangeRound h) s fun u =>
      let k := x.done / x.d.exchEvery - 1
      let b := fun i => readFloat .fp32 (x.d.beta i)
      let y := rn64 ((rn64 ((rn64 ((b 0).plus (b 1).neg)).times (rn64 ((fp64Val e1).plus (fp64Val e0).neg)))).times
        (fp64Val 0x3FF71547652B82FE))
      let swap := acceptDraw y (draw ((x.d.seed + 1) % 2 ^ 64) ((k * 1024 + x.block) * 32))
      (∃ z, u.annRun h = some z ∧ z.rounds = (x.rounds + 1) % 2 ^ 32 ∧ z.done = x.done ∧
        z.spins = (if swap then x.spins.map (swapSlots 0) else x.spins) ∧
        z.energy = (if swap then [e1, e0] else [e0, e1])) ∧
      u.fld F.ANN_EXCH_COUNT h = (s.fld F.ANN_EXCH_COUNT h + if swap then 1 else 0) % 2 ^ 32 ∧
      s.sameRegsBut u [(.ANN_EXCH, h, 0)] ∧ u = { s with regs := u.regs, ann := u.ann }) ∧
  (∀ u, acceptDraw .nan u = false) ∧ (∀ m e u, acceptDraw (.num true m e) u = true) ∧
  (∀ y u u', u ≤ u' → acceptDraw y u' = true → acceptDraw y u = true) ∧
  (∀ w r, r < 32 → w < 2 ^ 32 → swapSlots r (swapSlots r w) = w)) ∧
  ((∀ (h : Fin 8) (w : Nat) (x : AnnRun) (s : State), s.annRun h = some x → x.stage = .load → x.d.blockLen x.block = 1 →
    w < 2 ^ 32 → s.annRead h x.first (x.d.state + 4 * x.first) 4 = (s, toBytes 4 w) →
    Answers (.annealEpochLoad h) s fun u =>
      u.annRun h = some { x with
        spins := [w], inEpoch := 0, stage := if 1 < x.d.blocks then .clamp else .eval } ∧
      (∀ k, k ≠ h.val → u.annRun k = s.annRun k) ∧ u = { s with ann := u.ann }) ∧
  (∀ (h : Fin 8) (w : Nat) (x : AnnRun) (row : AnnRow) (s : State), s.annRun h = some x → x.stage = .clamp → x.spins = [w] →
    s.annRowOf h x x.first = (s, row) → row.cross = [] → gaSpace x.d.clampAt = spaceG → Answers (.annealClampPass h) s fun u =>
      u.annRun h = some { x with stage := .eval } ∧
      (∀ a, tget 0 u.mem.g a = if gByte (gaOffset x.d.clampAt) ≤ a ∧ a < gByte (gaOffset x.d.clampAt) + 128 then 0
        else tget 0 s.mem.g a) ∧ u = { s with mem := u.mem, ann := u.ann }) ∧
  (∀ (h : Fin 8) (x : AnnRun) (s : State), s.annRun h = some x → x.stage = .point → x.d.peerCount = 0 → x.d.landing ≠ 0 →
    Answers (.annealSweepPoint h) s fun u =>
      let l := (tHall (gaOffset x.d.landing), tIndex (gaOffset x.d.landing) / 2)
      u.annRun h = some { x with stage := .arrived, phase := 1 - x.phase, initPoint := false, sends := [] } ∧
      u.sync = { s.sync with net := s.sync.net ++
        [.arrive l.1 l.2 (4360 + h) x.phase, .landWait l.1 l.2 (4360 + h) x.phase (.annealer h)] } ∧
      u.alcoves = s.alcoves ∧ (∀ k, k ≠ h.val → u.annRun k = s.annRun k)) ∧
  (∀ (h : Fin 8) (x : AnnRun) (s : State), s.annRun h = some x → x.stage = .initial → x.d.peerCount = 0 → x.d.landing ≠ 0 →
    x.sends = [] → Answers (.annealInitialSweepPoint h) s fun u =>
      let l := (tHall (gaOffset x.d.landing), tIndex (gaOffset x.d.landing) / 2)
      u.annRun h = some { x with stage := .arrived, phase := 1 - x.phase, initPoint := true } ∧
      u.sync = { s.sync with net := s.sync.net ++
        [.arrive l.1 l.2 (4360 + h) x.phase, .landWait l.1 l.2 (4360 + h) x.phase (.annealer h)] } ∧
      u.alcoves = s.alcoves ∧ (∀ k, k ≠ h.val → u.annRun k = s.annRun k)) ∧
  (∀ (h : Fin 8) (x : AnnRun) (s : State), s.annRun h = some x → x.stage = .released →
    (x.d.counter = 0 ∨ x.awaited ≤
      (s.counter (tHall (gaOffset x.d.counter)) (tIndex (gaOffset x.d.counter))).count.toNat) →
    x.sendError = 0 → x.poison = false → Answers (.annealSweepPointRelease h) s fun u =>
      (∃ y, u.annRun h = some y ∧ y.points = x.points + 1 ∧
        (x.initPoint = true → y.stage = .load ∧ y.epoch = x.epoch) ∧
        (x.initPoint = false → x.epoch + 1 < x.d.epochs → y.stage = .load ∧ y.epoch = x.epoch + 1) ∧
        (x.initPoint = false → x.d.epochs ≤ x.epoch + 1 → y.stage = .ended ∧ y.spins = x.spins)) ∧
      (∀ k, k ≠ h.val → u.annRun k = s.annRun k) ∧ u = { s with ann := u.ann }) ∧
  (∀ (h : Fin 8) (x : AnnRun) (s : State), s.annRun h = some x → x.stage = .released → x.d.counter ≠ 0 →
    (s.counter (tHall (gaOffset x.d.counter)) (tIndex (gaOffset x.d.counter))).count.toNat < x.awaited →
    exec (.annealSweepPointRelease h) s = .next s) ∧
  (∀ (h : Fin 8) (x : AnnRun) (o : Operation) (s : State), s.annRun h = some x → x.stage = .ended → x.problem = none →
    x.poison = false → x.sharedPoison = none → x.sendError = 0 → s.op? x.queue x.op = some o →
    Answers (.annealEnd h) s fun u =>
      u.annRun h = none ∧ (∀ k, k ≠ h.val → u.annRun k = s.annRun k) ∧ u.alcoves = s.alcoves ∧ u.sync = s.sync ∧
      ∃ y, u.op? x.queue x.op = some y ∧ y.engineDone = true ∧ y.status = 0 ∧ y.detail = 0 ∧ y.sweepPoints = x.points))

/-! ## The vestibule (12_vestibule.md, 13_partitions_and_virtual_interfaces.md) -/

/-- R285, R286, R287, R291, R292, R316: a doorbell of the admin queue takes the tail of its record, and one that names
nothing is dropped and counted; polling reads every record again; the next entry comes into hand in order; a
completion that found the ring full is written once there is room; a reserved opcode completes as an invalid field at
byte 0; the sizes of an enabled queue stay. -/
def Obligations.AdminQueueRuns : Prop :=
  (∀ (v : Fin 256) (x : Nat) (s : State), s.adminRuns v → s.hostClear v →
    (x % 2 ^ 32 + 2 ^ 32 - (s.adminQ v).consumed) % 2 ^ 32 ≤ 2 ^ s.sqLog v → Answers (.doorbellWrite v 0 4 0x100 x) s fun u =>
      u.adminQ v = { s.adminQ v with tail := x % 2 ^ 32 } ∧ (∀ k, k ≠ v.val → u.adminQ k = s.adminQ k) ∧
      u.vst = { s.vst with admin := u.vst.admin } ∧ u = { s with vst := u.vst }) ∧
  (∀ (v : Fin 256) (n q x : Nat) (w : WorkQ) (s : State), n < 16 → s.ringQueue v n = some q → s.queue q = some w →
    Answers (.doorbellWrite v 0 4 n x) s fun u =>
      u.queue q = some { w with notified := true } ∧ (∀ k, k ≠ q → u.queue k = s.queue k) ∧ u = { s with vst := u.vst }) ∧
  (∀ (v : Fin 256) (off size n x : Nat) (s : State), (off ≠ 0 ∨ size ≠ 4 ∨ (16 ≤ n ∧ n ≠ 0x100)) →
    Answers (.doorbellWrite v off size n x) s fun u =>
      u.fld F.VST_DB_DROPPED_COUNT = min 0xFFFFFFFF (s.fld F.VST_DB_DROPPED_COUNT + 1) ∧ u.fld F.VST_EVENT_DB_BAD = 1 ∧
      u = s.raised u) ∧
  (∀ (v : Fin 256) (x q : Nat) (w : WorkQ) (s : State), s.fld F.VST_ADMIN_CTRL_POLLED v = 1 → s.adminRuns v →
    s.hostClear v → (x % 2 ^ 32 + 2 ^ 32 - (s.adminQ v).consumed) % 2 ^ 32 ≤ 2 ^ s.sqLog v → s.queue q = some w →
    w.vi = v.val → Answers (.notifyPoll v x) s fun u =>
      u.adminQ v = { s.adminQ v with tail := x % 2 ^ 32, polled := s.time.tick } ∧
      u.queue q = some { w with notified := true } ∧ u = { s with vst := u.vst }) ∧
  (∀ (v : Fin 256) (e : List Nat) (s : State), s.adminRuns v → s.hostClear v → (s.adminQ v).current = none →
    (s.adminQ v).wait = none → (s.adminQ v).stalled = none → (s.adminQ v).consumed ≠ (s.adminQ v).tail → e.length = 64 →
    Answers (.adminCommandFetch v e) s fun u =>
      u.adminQ v = { s.adminQ v with
        consumed := ((s.adminQ v).consumed + 1) % 2 ^ 32, current := some (e.map (· % 256)) } ∧
      (∀ k, k ≠ v.val → u.adminQ k = s.adminQ k) ∧ u = { s with vst := u.vst }) ∧
  (∀ (v : Fin 256) (e : List Nat) (s : State), (s.adminQ v).consumed = (s.adminQ v).tail →
    exec (.adminCommandFetch v e) s = .next s) ∧
  (∀ (v : Fin 256) (head c st d r : Nat) (s : State), (s.adminQ v).stalled = some (c, st, d, r) → s.adminRuns v →
    s.hostClear v → ((s.adminQ v).written + 2 ^ 32 - head % 2 ^ 32) % 2 ^ 32 < 2 ^ s.cqLog v →
    Answers (.adminRingFullPoll v head) s fun u =>
      let a := s.adminQ v
      u.adminQ v = { a with head := head % 2 ^ 32, stalled := none, written := (a.written + 1) % 2 ^ 32 } ∧
      .hostWrite v (s.adminCq v + 16 * (a.written % 2 ^ s.cqLog v)) (s.pasidOf v)
        (adminEntry c st (1 - a.written / 2 ^ s.cqLog v % 2) d r) ∈ u.out ∧ u = { s.raised u with vst := u.vst }) ∧
  (∀ (v : Fin 256) (op : Nat) (e : List Nat) (s : State), s.adminHas v op e → (∀ x ∈ adminOpcodes, x.1 ≠ op) →
    Answers (.adminReservedOpcode v) s fun u =>
      s.adminAnswered u v 0x01 0 0 ∧ u = { s.raised u with vst := u.vst }) ∧
  (∀ (a : Agent) (v : Fin 256) (x : Nat) (s : State), s.reaches a .VST_ADMIN_CTRL v → s.quiet →
    Answers (.vstAdminCtrlWrite a v x) s fun u =>
      u.fld F.VST_ADMIN_CTRL_ENABLE v = bit x 31 ∧ u.fld F.VST_ADMIN_CTRL_POLLED v = bit x 30 ∧
      (s.fld F.VST_ADMIN_CTRL_ENABLE v = 1 → u.fld F.VST_ADMIN_CTRL_SQ_LOG2 v = s.fld F.VST_ADMIN_CTRL_SQ_LOG2 v ∧
        u.fld F.VST_ADMIN_CTRL_CQ_LOG2 v = s.fld F.VST_ADMIN_CTRL_CQ_LOG2 v ∧ u.vst = s.vst) ∧
      (s.fld F.VST_ADMIN_CTRL_ENABLE v = 0 → u.fld F.VST_ADMIN_CTRL_SQ_LOG2 v = bits x 22 19 ∧
        u.fld F.VST_ADMIN_CTRL_CQ_LOG2 v = bits x 18 15 ∧
        (bit x 31 = 1 → u.adminQ v = { s.adminQ v with stopped := false })) ∧
      s.sameRegsBut u [(.VST_ADMIN_CTRL, v, 0)] ∧ u = { s with regs := u.regs, vst := u.vst })

/-- R288, R289: CREATE_QUEUE with fields in range makes an ACTIVE queue at the lowest free number and answers that
number; a stopped queue abandons nothing that runs and completes the command once its launched operations have ended;
a restarted one is ACTIVE again; a destroyed one is gone. An unknown ring completes as `QUEUE_UNKNOWN`. -/
def Obligations.QueueCommands : Prop :=
  (∀ (v : Fin 256) (q : Nat) (e : List Nat) (s : State), s.adminHas v 0x01 e → (s.queuesOf v).length < 16 →
    s.createFails v ((s.viPart v).getD 0) e = none → s.freeQueue = some q →
    (s.vst.queues.filter fun p => match p.2 with
      | some w => w.hall == byteAt e 0x0A
      | none => false).length < 1024 → Answers (.createQueue v) s fun u =>
      u.queue q = some (workQOf v e) ∧ (∀ k, k ≠ q → u.queue k = s.queue k) ∧ s.adminAnswered u v 0 0 q ∧
      u = { s.raised u with vst := u.vst }) ∧
  (∀ (v : Fin 256) (e : List Nat) (s : State), s.adminHas v 0x01 e → 16 ≤ (s.queuesOf v).length →
    Answers (.createQueue v) s fun u =>
      u.vst.queues = s.vst.queues ∧ s.adminAnswered u v 0x03 0 0 ∧ u = { s.raised u with vst := u.vst }) ∧
  (∀ (v : Fin 256) (e : List Nat) (s : State), s.adminHas v 0x03 e → s.ringQueue v (byteAt e 8) = none →
    Performs (.stopQueue v) s fun u =>
      u.vst.queues = s.vst.queues ∧ s.adminAnswered u v 0x04 0 0 ∧ u = { s.raised u with vst := u.vst }) ∧
  (∀ (v : Fin 256) (q : Nat) (w : WorkQ) (e : List Nat) (s : State), s.adminHas v 0x03 e →
    s.ringQueue v (byteAt e 8) = some q → s.queue q = some w → w.ring = byteAt e 8 → w.vi = v.val → w.buffer = none →
    w.waiting = [] → tsorted s.vst.queues = true → Performs (.stopQueue v) s fun u =>
      u.queue q = some { w with state := if w.state = .active then .stoppedAdmin else w.state } ∧
      (∀ k, k ≠ q → u.queue k = s.queue k) ∧ s.adminAnswered u v 0 0 0 ∧ u = { s.raised u with vst := u.vst }) ∧
  (∀ (v : Fin 256) (q : Nat) (w : WorkQ) (e : List Nat) (s : State), s.adminHas v 0x04 e →
    s.ringQueue v (byteAt e 8) = some q → s.queue q = some w → w.state ≠ .active → Answers (.restartQueue v) s fun u =>
      u.queue q = some { w with state := .active, mute := false } ∧ (∀ k, k ≠ q → u.queue k = s.queue k) ∧
      s.adminAnswered u v 0 0 0 ∧ u = { s.raised u with vst := u.vst }) ∧
  (∀ (v : Fin 256) (q : Nat) (w : WorkQ) (e : List Nat) (s : State), s.adminHas v 0x02 e →
    s.ringQueue v (byteAt e 8) = some q → s.queue q = some w → w.ring = byteAt e 8 → w.vi = v.val → w.buffer = none →
    w.waiting = [] → (∀ k x, s.queue k = some x → x.buffer = none) → tsorted s.vst.queues = true → Performs (.destroyQueue v) s fun u =>
      u.queue q = none ∧ (∀ k, k ≠ q → u.queue k = s.queue k) ∧ s.adminAnswered u v 0 0 0 ∧
      u = { s.raised u with vst := u.vst }) ∧
  (∀ (v : Fin 256) (k : Fin 5) (ring : Fin 16) (s : State), s.fld F.PCI_HOST_ERR_VALID = 0 →
    Performs (.hostAccessFail v 0 k ring) s fun u =>
      u.adminQ v = { s.adminQ v with stopped := true } ∧ u.fld F.PCI_HOST_ERR_VALID = 1 ∧
      u.fld F.PCI_HOST_ERR_KIND = k ∧ u.fld F.PCI_HOST_ERR_ACCESS = 0 ∧ u.fld F.PCI_HOST_ERR_VI = v ∧
      u.fld F.PCI_EVENT_HOST_ERR = 1 ∧ (∀ n, n ≠ v.val → u.adminQ n = s.adminQ n) ∧
      u = { s.raised u with vst := u.vst })

/-- R313, R315, R329, R336, R340, R484: what VI0 commands of bindings, profiles, quarantines, versions and pools. -/
def Obligations.ChiefCommands : Prop :=
  (∀ (p : Fin 16) (e : List Nat) (s : State), s.adminHas 0 0x12 e → byteAt e 9 = p.val → s.partExists p = true →
    s.viEnabled (byteAt e 8) = true → s.part.resetting.contains (byteAt e 8) = false → s.queuesOf (byteAt e 8) = [] →
    (∀ a ∈ s.part.allocs, a.vi = byteAt e 8 → a.mapping = true) → s.ownsBlock (byteAt e 8) = false →
    Answers (.bindPartition 0) s fun u =>
      u.viPart (byteAt e 8) = some p.val ∧ (∀ k, k ≠ byteAt e 8 → u.viPart k = s.viPart k) ∧
      s.adminAnswered u 0 0 0 0 ∧ u = { s.raised u with vst := u.vst, part := { s.part with bound := u.part.bound } }) ∧
  (∀ (v : Fin 256) (e : List Nat) (s : State), s.adminHas v 0x12 e → v ≠ 0 → Answers (.bindPartition v) s fun u =>
      s.adminAnswered u v 0x02 0 0 ∧ u = { s.raised u with vst := u.vst }) ∧
  (∀ (e : List Nat) (s : State), s.adminHas 0 0x13 e → byteAt e 8 ≤ 3 → profileValid (s.profileBytes (byteAt e 8)) = true →
    Answers (.setProfile 0) s fun u =>
      u.fld F.PART_PROFILE_PENDING_VALID = 1 ∧ u.fld F.PART_PROFILE_PENDING = byteAt e 8 ∧
      u.fld F.PART_PROFILE_ACTIVE = s.fld F.PART_PROFILE_ACTIVE ∧ u.fld F.VI_EVENT_PROFILE_PENDING 0 = 1 ∧
      s.adminAnswered u 0 0 0 0 ∧ u = { s.raised u with vst := u.vst }) ∧
  (∀ (r : Region) (e : List Nat) (s : State), s.adminHas 0 0x14 e → bit (byteAt e 9) 0 = 0 →
    s.part.regions.find? (·.num == byteAt e 8) = some r → Answers (.liftQuarantine 0) s fun u =>
      u.part.regions.find? (·.num == byteAt e 8) = some { r with quarantined := false } ∧ u.part.allocs = s.part.allocs ∧
      s.adminAnswered u 0 0 0 0 ∧ u = { s.raised u with vst := u.vst, part := u.part }) ∧
  (∀ (r : Region) (e : List Nat) (s : State), s.adminHas 0 0x14 e → bit (byteAt e 9) 0 = 1 →
    s.part.regions.find? (·.num == byteAt e 8) = some r → Answers (.liftQuarantine 0) s fun u =>
      u.adminQ 0 = { s.adminQ 0 with wait := some (.verify r.num) } ∧ u.part = s.part ∧ u = { s with vst := u.vst }) ∧
  (∀ (n : Nat) (s : State), (s.adminQ 0).wait = some (.verify n) → s.part.regions.find? (·.num == n) = none →
    ((s.adminQ 0).written + 2 ^ 32 - (s.adminQ 0).head) % 2 ^ 32 < 2 ^ s.cqLog 0 → s.hostClear 0 →
    Answers .quarantineVerifyDone s fun u => s.adminAnswered u 0 0x66 0 0 ∧ u = { s.raised u with vst := u.vst }) ∧
  (∀ (n : Nat) (r : Region) (s : State), (s.adminQ 0).wait = some (.verify n) →
    s.part.regions.find? (·.num == n) = some r → s.dBlocked r.base r.size true = false →
    (∀ k, k < r.size / 32 → ∃ l m, s.readD (r.base + 32 * k) 32 =
      { st := s, data := l, marks := m, poison := false, cause := 0, region := none }) →
    ((s.adminQ 0).written + 2 ^ 32 - (s.adminQ 0).head) % 2 ^ 32 < 2 ^ s.cqLog 0 → s.hostClear 0 →
    Answers .quarantineVerifyDone s fun u =>
      u.part.regions.find? (·.num == n) = some { r with quarantined := false } ∧ s.adminAnswered u 0 0 0 0 ∧
      u = { s.raised u with vst := u.vst, part := u.part }) ∧
  (∀ (e : List Nat) (s : State), s.adminHas 0 0x40 e → field e 8 4 = s.reg .BOOT_PMC_VER →
    field e 0x0C 4 = s.reg .BOOT_HALL_VER → Answers (.versionOverride 0) s fun u =>
      s.adminAnswered u 0 0 0 0 ∧ u = { s.raised u with vst := u.vst }) ∧
  (∀ (e : List Nat) (s : State), (s.adminQ 0).current = some e → (s.adminQ 0).wait = none → byteAt e 0 = 0x40 →
    byteAt e 1 = 0 → field e 4 4 = 0 → s.boot.restricted = true → (s.viPart 0).isSome → s.hostClear 0 →
    ((s.adminQ 0).written + 2 ^ 32 - (s.adminQ 0).head) % 2 ^ 32 < 2 ^ s.cqLog 0 → field e 8 4 = s.reg .BOOT_PMC_VER →
    field e 0x0C 4 = s.reg .BOOT_HALL_VER → Answers (.versionOverride 0) s fun u =>
      u.boot.restricted = false ∧ u.boot.override = true ∧ u.fld F.BOOT_STATUS_UNVALIDATED = 1 ∧
      u.fld F.BOOT_STATUS_STATE = 3 ∧ u.fld F.BOOT_EVENT_OVERRIDE = 1 ∧ s.adminAnswered u 0 0 0 1 ∧
      u = { s.raised u with vst := u.vst, boot := { s.boot with restricted := false, override := true } }) ∧
  (∀ (e : List Nat) (s : State), s.adminHas 0 0x31 e → byteAt e 8 < 64 → (s.pool (byteAt e 8)).valid = true →
    (s.pool (byteAt e 8)).count ≤ (s.pool (byteAt e 8)).free → Answers (.poolDestroy 0) s fun u =>
      u.pool (byteAt e 8) = .reset ∧ (∀ k, k ≠ byteAt e 8 → u.pool k = s.pool k) ∧ s.adminAnswered u 0 0 0 0 ∧
      u = { s.raised u with vst := u.vst }) ∧
  (∀ (e : List Nat) (s : State), s.adminHas 0 0x31 e → byteAt e 8 < 64 → (s.pool (byteAt e 8)).valid = true →
    (s.pool (byteAt e 8)).free < (s.pool (byteAt e 8)).count → Answers (.poolDestroy 0) s fun u =>
      u.vst.pools = s.vst.pools ∧ s.adminAnswered u 0 0x50 0 0 ∧ u = { s.raised u with vst := u.vst }) ∧
  (∀ (e : List Nat) (s : State), s.adminHas 0 0x32 e → byteAt e 8 < 64 → (s.pool (byteAt e 8)).valid = true →
    byteAt e 0xA < 2 → Answers (.poolGrant 0) s fun u =>
      (∀ v, v ∈ (u.pool (byteAt e 8)).granted ↔
        (v ∈ (s.pool (byteAt e 8)).granted ∧ v ≠ byteAt e 9) ∨ (v = byteAt e 9 ∧ byteAt e 0xA = 1)) ∧
      (∀ k, k ≠ byteAt e 8 → u.pool k = s.pool k) ∧ s.adminAnswered u 0 0 0 0 ∧ u = { s.raised u with vst := u.vst }) ∧
  (∀ (e : List Nat) (s : State), s.adminHas 0 0x30 e → s.poolFails e = none → Answers (.poolCreate 0) s fun u =>
      let p := u.pool (byteAt e 8)
      p.valid = true ∧ p.count = field e 0xC 4 ∧ p.free = p.count ∧ p.blockLog2 = byteAt e 9 ∧ p.granted = [0] ∧
      p.base = gaOffset (field e 0x10 8) ∧ (∀ k, k ≠ byteAt e 8 → u.pool k = s.pool k) ∧
      (u.adminQ 0).current = none ∧ u.alcoves = s.alcoves ∧ u.sync = s.sync)

/-- R290, R327, R328, R330: allocations, queries, retired pages and objects. -/
def Obligations.MemoryCommands : Prop :=
  (∀ (p : Nat) (lo hi a : Nat) (e : List Nat) (s : State), s.adminHas 0 0x10 e → s.mapFails 0 (byteAt e 0xA) e = none →
    byteAt e 8 = 0 → byteAt e 9 = 0 → s.viPart (byteAt e 0xA) = some p → s.allocRange p .d 0xFF (byteAt e 0xC) = some (lo, hi) →
    0 < field e 0x18 8 → field e 0x18 8 % 4096 = 0 → s.part.allocs.length < 4096 → s.quota (byteAt e 0xA) .d = 0 →
    firstFit lo (hi - lo) (field e 0x18 8) (s.allocUsed .d 0 (byteAt e 0xC)) = some a →
    Answers (.mapMemory 0) s fun u =>
      (∃ x, u.part.allocs = s.part.allocs ++ [x] ∧ x.vi = byteAt e 0xA ∧ x.space = .d ∧ x.base = a ∧
        x.size = field e 0x18 8 ∧ x.mapping = false ∧ x.region = none) ∧
      u.part.regions = s.part.regions ∧ s.adminAnswered u 0 0 0 (gaMake s.deviceId spaceD a % 2 ^ 64) ∧
      u = { s.raised u with vst := u.vst, part := u.part }) ∧
  (∀ (v : Fin 256) (e : List Nat) (s : State), s.adminHas v 0x11 e → byteAt e 8 = 0 →
    (∀ a ∈ s.part.allocs, s.allocGa a ≠ field e 0x10 8) → Performs (.unmapMemory v) s fun u =>
      u.part = s.part ∧ s.adminAnswered u v 0x66 0 0 ∧ u = { s.raised u with vst := u.vst }) ∧
  (∀ (e : List Nat) (x : Alloc) (s : State), s.adminHas 0 0x11 e → byteAt e 8 = 0 → s.underWay (byteAt e 0xA) = [] →
    s.part.allocs = [x] → x.vi = byteAt e 0xA → x.space = .d → x.mapping = true → x.unmapping = false →
    s.allocGa x = field e 0x10 8 → Performs (.unmapMemory 0) s fun u =>
      u.part.allocs = [] ∧ s.adminAnswered u 0 0 0 0 ∧
      u = { s.raised u with vst := u.vst, part := { s.part with allocs := [] } }) ∧
  (∀ (v : Fin 256) (e : List Nat) (s : State), s.adminHas v 0x20 e → byteAt e 8 ≤ 5 →
    s.mayQuery v (byteAt e 8) (byteAt e 9) = true → (byteAt e 8 = 1 → byteAt e 9 < 16 ∧ s.partExists (byteAt e 9) = true) →
    Answers (.query v) s fun u =>
      let r := (s.queryRecord v (byteAt e 8) (byteAt e 9)).take (field e 0x18 4)
      s.adminAnswered u v 0 0 r.length ∧ (r ≠ [] → .hostWrite v (field e 0x10 8) (s.pasidOf v) r ∈ u.out) ∧
      u = { s.raised u with vst := u.vst }) ∧
  (∀ (v : Fin 256) (e : List Nat) (s : State), s.adminHas v 0x20 e → byteAt e 8 ≤ 5 →
    s.mayQuery v (byteAt e 8) (byteAt e 9) = false → Answers (.query v) s fun u =>
      s.adminAnswered u v 0x02 0 0 ∧ u = { s.raised u with vst := u.vst }) ∧
  (∀ (pl : Place) (e : List Nat) (s : State), s.adminHas 0 0x21 e → s.retireFails e = none → bit (byteAt e 0x18) 0 = 0 →
    s.placeOf (gaOffset (field e 8 8)) = some pl → validPages s.host.pagesA = [] → s.part.regions = [] →
    s.offsetOfLine (entryChan (pageEntry pl.chan (keyPc pl.key) pl.line 1))
      (entryLine (pageEntry pl.chan (keyPc pl.key) pl.line 1)) = some (gaOffset (field e 8 8)) →
    Answers (.retirePage 0) s fun u =>
      let x := pageEntry pl.chan (keyPc pl.key) pl.line 1
      gaOffset (field e 8 8) / 4096 ∈ u.hbm.pages ∧ u.fld F.HBM_RETIRE_COUNT_ENTRIES = 1 ∧
      u.host.flashQueue = s.host.flashQueue ++ [.retiredPage false 0 x, .retiredPage true 0 x] ∧
      (u.adminQ 0).wait = some (.flash 0 1) ∧ s.sameRegsBut u [(.HBM_RETIRE_COUNT, 0, 0)] ∧
      u = { s with regs := u.regs, vst := u.vst, host := u.host, hbm := { s.hbm with pages := u.hbm.pages } }) ∧
  (∀ (v : Fin 256) (data : List Nat) (e : List Nat) (s : State), s.adminHas v 0x22 e → syncConfigFails e = none →
    byteAt e 8 = 2 → byteAt e 9 = 0 → (v = 0 ∨ s.viObject v (byteAt e 0xA) 0 (field e 0xC 2) = true) →
    (s.tokenQ (byteAt e 0xA) (field e 0xC 2)).waiters = [] → Answers (.syncConfig v data) s fun u =>
      u.tokenQ (byteAt e 0xA) (field e 0xC 2) =
        { s.tokenQ (byteAt e 0xA) (field e 0xC 2) with value := 0, overflows := 0 } ∧
      s.adminAnswered u v 0 0 0 ∧ u = { s.raised u with vst := u.vst, sync := u.sync }) ∧
  (∀ (v : Fin 256) (data : List Nat) (e : List Nat) (s : State), s.adminHas v 0x22 e → syncConfigFails e = none →
    byteAt e 8 = 2 → byteAt e 9 = 0 → v ≠ 0 → s.viObject v (byteAt e 0xA) 0 (field e 0xC 2) = false →
    Answers (.syncConfig v data) s fun u =>
      u.sync = s.sync ∧ s.adminAnswered u v 0x01 0x0C 0 ∧ u = { s.raised u with vst := u.vst })

/-- R293, R295, R298, R299, R300, R301, R335: a tail record within the ring is taken, and one beyond it stops the
queue; a checked buffer begins, its operations without predecessors waiting on their sync lists; a bad ring entry
stops the queue; an operation whose waits are met is READY, or held by a quarantine. -/
def Obligations.BuffersBegin : Prop :=
  (∀ (q : Fin 4096) (w : WorkQ) (d : List Nat) (s : State), s.queue q = some w → w.state = .active → w.notified = true →
    s.dBlocked (gaOffset w.tailRecord) 8 true = false → (s.readD (gaOffset w.tailRecord) 8).st = s →
    (s.readD (gaOffset w.tailRecord) 8).data = d → (field d 0 4 + 2 ^ 32 - w.consumed) % 2 ^ 32 ≤ 2 ^ w.log2 →
    Performs (.workTailRead q) s fun u =>
      u.queue q = some { w with tail := field d 0 4, notified := false } ∧ (∀ k, k ≠ q.val → u.queue k = s.queue k) ∧
      u = { s with vst := u.vst }) ∧
  (∀ (q : Fin 4096) (w : WorkQ) (d : List Nat) (s : State), s.queue q = some w → w.state = .active → w.notified = true →
    w.buffer = none → s.dBlocked (gaOffset w.tailRecord) 8 true = false → (s.readD (gaOffset w.tailRecord) 8).st = s →
    (s.readD (gaOffset w.tailRecord) 8).data = d → 2 ^ w.log2 < (field d 0 4 + 2 ^ 32 - w.consumed) % 2 ^ 32 →
    Performs (.workTailRead q) s fun u =>
      (∃ x, u.queue q = some x ∧ x.state = .stoppedFault ∧ x.buffer = none ∧ x.consumed = w.consumed) ∧
      u.fld F.VST_EVENT_RING_BAD = 1 ∧ u.alcoves = s.alcoves) ∧
  (∀ (q : Fin 4096) (w : WorkQ) (d : List Nat) (s : State),
    let at_ := gaOffset w.ringBase + 16 * (w.consumed % 2 ^ w.log2)
    let e := (s.readD at_ 16).data
    let n := field e 8 4
    s.queue q = some w → w.state = .active → w.buffer = none → w.waiting = [] → w.consumed ≠ w.tail →
    s.dBlocked at_ 16 true = false → (s.readD at_ 16).st = s → s.boot.restricted = false → s.ringEntryFails w.vi e = none →
    s.dBlocked (gaOffset (field e 0 8)) n true = false → (s.readD (gaOffset (field e 0 8)) n).st = s →
    (s.readD (gaOffset (field e 0 8)) n).data = d → headerFails d n = none →
    (s.setQueue q { w with consumed := (w.consumed + 1) % 2 ^ 32 }).opsFail w.vi d (field d 4 2) = none →
    Performs (.commandBufferBegin q) s fun u =>
      (∃ x b, u.queue q = some x ∧ x.consumed = (w.consumed + 1) % 2 ^ 32 ∧ x.state = .active ∧ x.buffer = some b ∧
        b.tag = field d 8 8 ∧ b.ops.length = field d 4 2 ∧ ∀ o ∈ b.ops, o.preds = [] → o.state = .waitSync) ∧
      (∀ k, k ≠ q.val → u.queue k = s.queue k) ∧ u = { s with vst := u.vst, sync := u.sync }) ∧
  (∀ (q : Fin 4096) (w : WorkQ) (off : Nat) (s : State),
    let at_ := gaOffset w.ringBase + 16 * (w.consumed % 2 ^ w.log2)
    s.queue q = some w → w.state = .active → w.buffer = none → w.waiting = [] → w.consumed ≠ w.tail →
    s.dBlocked at_ 16 true = false → (s.readD at_ 16).st = s → s.boot.restricted = false →
    s.ringEntryFails w.vi (s.readD at_ 16).data = some off → Performs (.commandBufferBegin q) s fun u =>
      (∃ x, u.queue q = some x ∧ x.state = .stoppedFault ∧ x.buffer = none ∧ x.consumed = (w.consumed + 1) % 2 ^ 32) ∧
      u.alcoves = s.alcoves) ∧
  (∀ (q : Fin 4096) (i : Nat) (w : WorkQ) (o : Operation) (s : State), s.queue q = some w → s.op? q i = some o →
    o.state = .waitSync → s.waitsMet w.vi o = true → s.quarantineHolds o = false → o.received = false →
    o.rangesOf 2 = [] → Performs (.operationReady q i) s fun u =>
      u.op? q i = some { o with held := false, received := true, invals := [], state := .ready } ∧ s.opFrame u q i ∧
      u = { s with vst := u.vst }) ∧
  (∀ (q : Fin 4096) (i : Nat) (w : WorkQ) (o : Operation) (s : State), s.queue q = some w → s.op? q i = some o →
    o.state = .waitSync → s.waitsMet w.vi o = true → s.quarantineHolds o = true → Performs (.operationReady q i) s fun u =>
      u.op? q i = some { o with held := true, wasHeld := true } ∧ s.opFrame u q i ∧ u = { s with vst := u.vst }) ∧
  (∀ (q : Fin 4096) (i : Nat) (w : WorkQ) (o : Operation) (s : State), s.queue q = some w → s.op? q i = some o →
    s.waitsMet w.vi o = false → exec (.operationReady q i) s = .next s.settle)

/-- R216, R263, R297, R301, R313, R314: a NOP acts at once; a COPY, a GATHER and an ANNEAL take their engine after the
checks of their descriptors; POOL_ALLOC takes blocks all or none, and POOL_FREE gives back the blocks of its list. -/
def Obligations.OperationsDispatch : Prop :=
  (∀ (q : Fin 4096) (i p : Nat) (w : WorkQ) (o : Operation) (s : State), s.dispatchable q i typNop = some (w, o, p) →
    o.timed = false → Performs (.nopOperation q i) s fun u =>
      (∃ x, u.op? q i = some x ∧ x.state = .running ∧ x.launched = true ∧ x.engineDone = true ∧ x.status = o.status) ∧
      s.opFrame u q i ∧ u = { s with vst := u.vst }) ∧
  (∀ (q : Fin 4096) (i p : Nat) (w : WorkQ) (o : Operation) (s : State), s.dispatchable q i typCopy = some (w, o, p) →
    o.timed = false → (s.engine (o.word 0x40 1)).retired = false → s.halfPart (engineHalf (o.word 0x40 1)) = some p →
    (s.engine (o.word 0x40 1)).depth < 32 → s.copyFails w.vi o.request = none → s.noScan →
    Performs (.copyDispatch q i) s fun u =>
      (∃ x, u.op? q i = some x ∧ x.state = .dispatched ∧ x.armed = false) ∧ s.opFrame u q i ∧
      (∃ j, u.engine (o.word 0x40 1) = { s.engine (o.word 0x40 1) with queue := (s.engine (o.word 0x40 1)).queue ++ [j] } ∧
        j.req = o.request ∧ j.origin = .operation q i ∧ j.vi = w.vi ∧ j.started = false) ∧
      (∀ e, e ≠ o.word 0x40 1 → u.engine e = s.engine e) ∧ u = { s with vst := u.vst, mem := u.mem }) ∧
  (∀ (q : Fin 4096) (i p : Nat) (w : WorkQ) (o : Operation) (s : State), s.dispatchable q i typGather = some (w, o, p) →
    o.timed = true → o.launchTread ≤ s.now (8 + w.hall) + 2 ^ 36 → s.inHall p (o.word 0x40 1) = true →
    s.gather? (o.word 0x40 1) = none → s.gatherRefused w.vi (slice o.body 0 32) = false →
    Performs (.gatherDispatch q i) s fun u =>
      (∃ x, u.op? q i = some x ∧ x.state = .dispatched ∧ x.armed = true) ∧ s.opFrame u q i ∧
      (∃ g, u.gather? (o.word 0x40 1) = some g ∧ g.queue = q ∧ g.op = i ∧ g.desc = slice o.body 0 32) ∧
      (∀ h, h ≠ o.word 0x40 1 → u.gather? h = s.gather? h) ∧ u = { s with vst := u.vst, hbm := u.hbm }) ∧
  (∀ (q : Fin 4096) (i p : Nat) (w : WorkQ) (o : Operation) (s : State), s.dispatchable q i typAnneal = some (w, o, p) →
    o.timed = true → o.launchTread ≤ s.now (8 + w.hall) + 2 ^ 36 → s.inHall p (o.word 0x24 1) = true →
    s.retired (channelId 8 (o.word 0x24 1)) = false → s.annealerPart (o.word 0x24 1) = some p →
    s.annRun (o.word 0x24 1) = none → s.fld F.ANN_CTRL_HOLD (o.word 0x24 1) = 0 →
    s.annealFails (o.word 0x24 1) w.vi o.extra = none → s.noScan → Performs (.annealDispatch q i) s fun u =>
      u.annRun (o.word 0x24 1) = some (AnnRun.fresh q i w.vi o.extra) ∧
      (∃ x, u.op? q i = some x ∧ x.state = .dispatched ∧ x.armed = true) ∧ s.opFrame u q i ∧
      (∀ h, h ≠ o.word 0x24 1 → u.annRun h = s.annRun h) ∧ u = { s with vst := u.vst, ann := u.ann }) ∧
  (∀ (q : Fin 4096) (i p : Nat) (w : WorkQ) (o : Operation) (s : State), s.dispatchable q i typAnneal = some (w, o, p) →
    s.inHall p (o.word 0x24 1) = true → s.retired (channelId 8 (o.word 0x24 1)) = false →
    s.annealerPart (o.word 0x24 1) = some p → s.fld F.ANN_CTRL_HOLD (o.word 0x24 1) = 1 →
    exec (.annealDispatch q i) s = .next s.settle) ∧
  (∀ (q : Fin 4096) (i p : Nat) (w : WorkQ) (o : Operation) (s : State), s.dispatchable q i typAlloc = some (w, o, p) →
    s.poolRefused w.vi o true = none → s.poolBlocked (s.pool (o.word 0x20 1)) o = false →
    (s.pool (o.word 0x20 1)).free < o.word 0x24 4 → Performs (.poolAlloc q i) s fun u =>
      (∃ x, u.op? q i = some x ∧ x.engineDone = true ∧ x.status = stPoolEmpty ∧
        x.detail = (s.pool (o.word 0x20 1)).free) ∧ s.opFrame u q i ∧ u = { s with vst := u.vst }) ∧
  (∀ (q : Fin 4096) (i p : Nat) (w : WorkQ) (o : Operation) (s : State), s.dispatchable q i typAlloc = some (w, o, p) →
    s.poolRefused w.vi o true = none → s.poolBlocked (s.pool (o.word 0x20 1)) o = false →
    o.word 0x24 4 ≤ (s.pool (o.word 0x20 1)).free → Performs (.poolAlloc q i) s fun u =>
      (∃ x, u.op? q i = some x ∧ x.engineDone = true ∧ x.status = 0 ∧ x.detail = 0) ∧
      u.pool (o.word 0x20 1) = { s.pool (o.word 0x20 1) with free := (s.pool (o.word 0x20 1)).free - o.word 0x24 4 } ∧
      (∀ k, k ≠ o.word 0x20 1 → u.pool k = s.pool k) ∧ u.alcoves = s.alcoves ∧ u.sync = s.sync) ∧
  (∀ (q : Fin 4096) (i p ga b : Nat) (w : WorkQ) (o : Operation) (d : List Nat) (s : State),
    s.dispatchable q i typFree = some (w, o, p) → s.poolRefused w.vi o false = none →
    s.poolBlocked (s.pool (o.word 0x20 1)) o = false → o.word 0x24 4 = 1 →
    (s.readList (o.word 0x28 8) 8).st = s → field (s.readList (o.word 0x28 8) 8).data 0 8 = ga →
    gaSpace ga = spaceD → gaDevice ga = s.deviceId →
    gaOffset ga = (s.pool (o.word 0x20 1)).base + b * 2 ^ (s.pool (o.word 0x20 1)).blockLog2 →
    b < (s.pool (o.word 0x20 1)).count → (s.readD ((s.pool (o.word 0x20 1)).tags + 2 * b) 2).st = s →
    (s.readD ((s.pool (o.word 0x20 1)).tags + 2 * b) 2).data = d → bit (field d 0 2) 15 = 1 →
    bits (field d 0 2) 11 4 = w.vi → Performs (.poolFree q i) s fun u =>
      (∃ x, u.op? q i = some x ∧ x.engineDone = true ∧ x.status = 0) ∧
      u.pool (o.word 0x20 1) = { s.pool (o.word 0x20 1) with free := (s.pool (o.word 0x20 1)).free + 1 } ∧
      (∀ k, k ≠ o.word 0x20 1 → u.pool k = s.pool k) ∧ u.alcoves = s.alcoves)

/-- R44, R61, R62, R302, R303, R304, R306: a kernel takes the lowest idle alcoves of its partition, each reset to its
start state, and waits while there are too few; a launch starts every rank; a timed operation launches once its
replica has reached its tread, LATE exactly where it has passed it; a pause request falls on every victim; a kernel
with its last rank saved is PAUSED and has no alcoves, and goes on once they are granted again. -/
def Obligations.KernelsRun : Prop :=
  (∀ (q : Fin 4096) (i p : Nat) (w : WorkQ) (o : Operation) (s : State), s.dispatchable q i typKernel = some (w, o, p) →
    o.group ≤ (s.idleAlcoves p o).length → o.timed = false → o.tileDesc = none → o.imageBytes = 0 → s.noScan →
    s.vst.claims = [] → Performs (.kernelDispatch q i) s fun u =>
      let ns := (s.idleAlcoves p o).take o.group
      u.op? q i = some { o with state := .dispatched, armed := false, ranks := ranksOn ns } ∧ s.opFrame u q i ∧
      (∀ r n, ns[r]? = some n → (u.alcove n).grant = some { queue := q, op := i, rank := r, size := o.group } ∧
        (u.alcove n).core = Core.atStart o.entryPc o.extra r o.group n s.deviceId ∧ (u.alcove n).lastVi = some w.vi ∧
        (∀ v, (s.alcove n).lastVi = some v → v ≠ w.vi → (u.alcove n).store = []) ∧ (u.alcove n).tiles = []) ∧
      (∀ n, n ∉ ns → u.alcove n = s.alcove n) ∧ u = { s with vst := u.vst, alcoves := u.alcoves }) ∧
  (∀ (q : Fin 4096) (i p : Nat) (w : WorkQ) (o : Operation) (s : State), s.dispatchable q i typKernel = some (w, o, p) →
    o.group ≤ (s.kernelAlcoves p o).length → (s.idleAlcoves p o).length < o.group →
    exec (.kernelDispatch q i) s = .next s.settle) ∧
  (∀ (q : Fin 4096) (i : Nat) (o : Operation) (s : State), s.op? q i = some o → o.typ = typKernel → o.state = .dispatched →
    o.timed = false → Performs (.kernelLaunch q i) s fun u =>
      (∃ x, u.op? q i = some x ∧ x.state = .running ∧ x.launched = true ∧ x.ranks = o.ranks) ∧ s.opFrame u q i ∧
      (∀ r ∈ o.ranks, (u.alcove r.alcove).core = { (s.alcove r.alcove).core with state := .running }) ∧
      (∀ n, (∀ r ∈ o.ranks, r.alcove ≠ n) → u.alcove n = s.alcove n) ∧ u = { s with vst := u.vst, alcoves := u.alcoves }) ∧
  (∀ (q : Fin 4096) (i : Nat) (w : WorkQ) (o : Operation) (s : State), s.queue q = some w → s.op? q i = some o →
    o.typ = typNop → o.timed = true → o.state = .dispatched → o.launched = false → w.paused = false →
    o.launchTread ≤ s.now (8 + w.hall) → bit o.flags 0 = 0 → bit o.flags 1 = 0 → Performs (.timedLaunch q i) s fun u =>
      (∃ x, u.op? q i = some x ∧ x.state = .running ∧ x.launched = true ∧ x.engineDone = true ∧
        (bit x.flags 0 = 1 ↔ o.launchTread < s.now (8 + w.hall)) ∧ (bit x.flags 1 = 1 ↔ s.timeState ≠ .locked)) ∧
      u.fld F.TIME_LATE_COUNT_LATE = min 0xFFFFFFFF
        (s.fld F.TIME_LATE_COUNT_LATE + if o.launchTread < s.now (8 + w.hall) then 1 else 0) ∧
      s.opFrame u q i ∧ u = { s.raised u with vst := u.vst }) ∧
  (∀ (q : Fin 4096) (i : Nat) (w : WorkQ) (o : Operation) (s : State), s.queue q = some w → s.op? q i = some o →
    o.typ = typNop → s.now (8 + w.hall) < o.launchTread → exec (.timedLaunch q i) s = .next s.settle) ∧
  (∀ (q : Fin 4096) (i p vq vi : Nat) (w : WorkQ) (o vo : Operation) (t s : State), s.queue q = some w →
    s.op? q i = some o → s.queuePart w = some p → w.state = .active → w.ringFull = false → o.typ = typKernel →
    s.mayClaim w o = true → s.outranked q i (o.need p) = false → o.group ≤ (s.kernelAlcoves p o).length →
    (s.idleAlcoves p o).length < o.group → s.vst.claims = [] →
    s.takeVictims (s.kernelAlcoves p o) (o.group - (s.idleAlcoves p o).length)
      ((s.claimable w.prio p).foldr insertVictim []) = some (t, [(vq, vi)]) → t.op? vq vi = some vo →
    Performs (.pauseClaim q i) s fun u =>
      u.op? vq vi = some { vo with pauseWanted := true } ∧ u.vst.claims = [{ queue := q, op := i, victims := [(vq, vi)] }] ∧
      (∀ k x, k ∈ t.unsaved vo → vo.ranks[k]? = some x → (u.alcove x.alcove).pausePending = true)) ∧
  (∀ (n : Fin 256) (g : Grant) (w : WorkQ) (o : Operation) (r : Rank) (at_ len : Nat) (s : State), (s.alcove n).grant = some g →
    s.queue g.queue = some w → s.op? g.queue g.op = some o →
    w.slots.find? (fun y => y.1 == g.op && y.2.1 == g.rank) = some (g.op, g.rank, at_, len) → (s.alcove n).saving = true →
    o.idx = g.op → o.state = .running → o.pauseWanted = true → o.ranks = [r] → r.alcove = n.val → g.rank = 0 →
    Performs (.rankSaved n) s fun u =>
      (∃ x, u.op? g.queue g.op = some x ∧ x.state = .paused ∧ x.pauses = o.pauses + 1 ∧
        x.ranks = [{ r with saved := some at_ }]) ∧
      (u.alcove n).grant = none ∧ (∀ m, m ≠ n.val → u.alcove m = s.alcove m) ∧ u.sync = s.sync) ∧
  (∀ (q : Fin 4096) (i p n at_ : Nat) (w : WorkQ) (o : Operation) (r : Rank) (s : State), s.queue q = some w →
    s.op? q i = some o → s.queuePart w = some p → w.state = .active → w.ringFull = false → o.state = .paused →
    s.partInvals p = false → s.outranked q i (o.need p) = false → o.group = 1 → o.ranks = [r] → r.saved = some at_ →
    o.imageBytes = 0 → o.group ≤ (s.kernelAlcoves p o).length → (s.idleAlcoves p o).take 1 = [n] → s.noScan →
    s.vst.claims = [] → Performs (.operationResume q i) s fun u =>
      (∃ x, u.op? q i = some x ∧ x.state = .running ∧ x.ranks = [{ r with alcove := n, saved := none }]) ∧
      (u.alcove n).core.state = .running ∧
      (u.alcove n).grant = some { queue := q, op := i, rank := 0, size := 1 } ∧
      (∀ m, m ≠ n → u.alcove m = s.alcove m) ∧ u.sync = s.sync)

/-- R284, R307, R308, R309, R310: an expired clock ends or drains an operation with TIMEOUT, and one that has not
expired changes nothing; a finished operation completes and its buffer's record follows the last; a head record read
again makes room. -/
def Obligations.OperationsEnd : Prop :=
  (∀ (q : Fin 4096) (i : Nat) (w : WorkQ) (o : Operation) (s : State), s.queue q = some w → s.op? q i = some o →
    o.state = .waitSync → o.held = false → o.timed = false → w.timeoutUs * 1000 ≤ o.waitClock → o.cause = 0 →
    Performs (.waitClockExpire q i) s fun u =>
      (∃ x, u.queue q = some x ∧ x.state = .stoppedFault ∧ x.consumed = w.consumed) ∧
      (∃ r ∈ u.ras.unstored, r.kind = 0x07 ∧ r.detector = 0x16 ∧ r.queue = q ∧ r.opIndex = i ∧ r.vi = w.vi)) ∧
  (∀ (q : Fin 4096) (i : Nat) (w : WorkQ) (o : Operation) (s : State), s.queue q = some w → s.op? q i = some o →
    0 < o.waitClock → o.waitClock < w.timeoutUs * 1000 → exec (.waitClockExpire q i) s = .next s.settle) ∧
  (∀ (q : Fin 4096) (i : Nat) (w : WorkQ) (o : Operation) (s : State), s.queue q = some w → s.op? q i = some o →
    o.typ = typKernel → o.state = .running → o.launched = true → o.engineDone = false → o.status = 0 → o.retiredCount = 0 →
    w.timeoutUs * 1000 ≤ o.runClock → o.cause = 0 → Performs (.runClockExpire q i) s fun u =>
      (∃ x, u.op? q i = some x ∧ x.status = stTimeout ∧ x.state = .running ∧ bit x.flags 7 = 1) ∧
      (∀ r ∈ o.ranks, r.retired = false → r.reported = false → r.saved = none → (s.alcove r.alcove).core.state ≠ .faulted →
        (s.alcove r.alcove).ended = false → (u.alcove r.alcove).core.state = .draining) ∧
      (∀ n, (∀ r ∈ o.ranks, r.alcove ≠ n) → u.alcove n = s.alcove n)) ∧
  (∀ (q : Fin 4096) (i : Nat) (w : WorkQ) (o : Operation) (s : State), s.queue q = some w → s.op? q i = some o →
    0 < o.runClock → o.runClock < w.timeoutUs * 1000 → exec (.runClockExpire q i) s = .next s.settle) ∧
  (∀ (q : Fin 4096) (i : Nat) (w : WorkQ) (o : Operation) (b : Buffer) (s : State), s.queue q = some w →
    s.op? q i = some o → o.typ = typNop → o.state = .running → o.engineDone = true → s.shadowBusy q i = false →
    o.status = 0 → o.retiredCount = 0 → o.copyFault = none → o.sharedPoison = none → o.syncs = [] → o.ranges = [] →
    w.buffer = some b → b.ops = [o] → Performs (.operationComplete q i) s fun u =>
      (∃ x, u.queue q = some x ∧ x.buffer = none ∧ x.consumed = w.consumed) ∧
      (o.ranks = [] → s.vst.claims = [] → u.alcoves = s.alcoves)) ∧
  (∀ (q : Fin 4096) (i : Nat) (o : Operation) (s : State), s.op? q i = some o → o.finished = false →
    exec (.operationComplete q i) s = .next s.settle) ∧
  (∀ (q : Fin 4096) (head : Nat) (w : WorkQ) (s : State), s.queue q = some w → w.ringFull = true → w.cqHost = true →
    s.hostClear w.vi → w.waiting = [] → Performs (.completionRingHeadRead q head) s fun u =>
      u.queue q = some { w with cqHead := head % 2 ^ 32 } ∧ (∀ k, k ≠ q.val → u.queue k = s.queue k) ∧
      u = { s with vst := u.vst }) ∧
  (∀ (q : Fin 4096) (head : Nat) (w : WorkQ) (s : State), s.queue q = some w → w.ringFull = false →
    exec (.completionRingHeadRead q head) s = .next s.settle)

/-! ## Resets, boot and life cycle (13_partitions_and_virtual_interfaces.md, 20_reset_boot_and_lifecycle.md) -/

/-- R341, R342, R471, R472, R497: what each reset leaves. A reset that one in progress covers is absorbed. A virtual
interface's reset disables its admin queue and begins its wipe; a partition's leaves its alcoves idle and zeroed; a
warm one leaves every engine idle and the alcoves' records gone; a partition-wide one resets every partition; a cold
one leaves only what flash, fuses and pins hold; a finished wipe ends the reset. -/
def Obligations.ResetsRun : Prop :=
  (∀ (v : Fin 256) (s : State), s.boot.resets.any (·.covers (.interface v)) = true → exec (.viReset v) s = .next s.settle) ∧
  (∀ (v : Fin 256) (s : State), s.boot.step = 9 → s.boot.resets = [] → s.queuesOf v = [] → s.ownAllocs [v.val] = [] →
    s.vst.pools = [] → s.noArmed → Performs (.viReset v) s fun u =>
      (∃ r n, u.boot.resets = [r] ∧ r.kind = .interface v ∧ r.vis = [v.val] ∧ r.parts = [] ∧ r.wipe = some n) ∧
      u.adminQ v = .reset ∧ u.fld F.VST_ADMIN_CTRL_ENABLE v = 0 ∧ v.val ∈ u.part.resetting ∧
      u.part.allocs = s.part.allocs ∧ (∀ k, k ≠ v.val → u.adminQ k = s.adminQ k) ∧
      s.sameRegsBut u [(.VST_ADMIN_CTRL, v, 0)] ∧ u.alcoves = s.alcoves ∧ u.sync = s.sync) ∧
  (∀ (a : Agent) (p : Fin 16) (x : Nat) (s : State), s.reaches a .PART_CTRL p → s.boot.step = 9 → s.boot.resets = [] →
    s.partExists p = true → s.boundTo [p.val] = [] → s.noArmed → s.noScan → Performs (.partitionReset a p x) s fun u =>
      (∃ r n, u.boot.resets = [r] ∧ r.kind = .partition p ∧ r.parts = [p.val] ∧ r.wipe = some n) ∧
      (∀ n, n < 256 → s.halfPart (alcoveHalf n) = some p.val → (u.alcove n).store = [] ∧
        (u.alcove n).core = { Core.reset with state := if (s.alcove n).core.state = .retired then .retired else .idle }) ∧
      (∀ n, n < 256 → s.halfPart (alcoveHalf n) ≠ some p.val → u.alcove n = s.alcove n)) ∧
  (∀ (a : Agent) (x : Nat) (s : State), s.reaches a .BOOT_CTRL → F.BOOT_CTRL_COLD.of x = 0 → F.BOOT_CTRL_WARM.of x = 0 →
    s.boot.step = 9 → s.boot.resets = [] → s.noArmed → s.part.bound = [] → s.noScan →
    Performs (.bootCtrlPartAll a x) s fun u =>
      u.fld F.BOOT_STATUS_STATE = 6 ∧ u.fld F.BOOT_STATUS_LAST_RESET = 6 ∧
      (∃ r n, u.boot.resets = [r] ∧ r.kind = .partitionWide ∧ r.parts = (List.range 16).filter s.partExists ∧
        r.wipe = some n)) ∧
  (∀ (a : Agent) (x : Nat) (s : State), s.reaches a .BOOT_CTRL → F.BOOT_CTRL_COLD.of x = 0 → s.boot.step = 9 →
    s.boot.resets = [] → Performs (.bootCtrlWarm a x) s fun u =>
      u.fld F.BOOT_STATUS_STATE = 6 ∧ u.fld F.BOOT_STATUS_LAST_RESET = 5 ∧ u.vst = .reset ∧ u.ann = [] ∧
      u.ras.store = s.ras.store ∧ u.ras.unstored = s.ras.unstored ∧ u.part.allocs = [] ∧ u.part.vfEnable = false ∧
      (∃ r, u.boot.resets = [r] ∧ r.kind = .warm) ∧ u.time.tick = s.time.tick ∧ u.hbm.cells = s.hbm.cells) ∧
  (∀ (a : Agent) (x : Nat) (s : State), s.reaches a .BOOT_CTRL → s.pwr.pins.pwrOk = true → s.pwr.tripped = false →
    Performs (.bootCtrlCold a x) s fun u =>
      u.boot.step = 3 ∧ u.fld F.BOOT_STATUS_STATE = 1 ∧ u.fld F.BOOT_STATUS_LAST_RESET = 1 ∧ u.boot.watchdog = true ∧
      u.alcoves = [] ∧ u.vst = .reset ∧ u.hbm = .reset ∧ u.host.profiles = s.host.profiles ∧
      u.boot.retireA = s.boot.retireA ∧ u.ras.store = s.ras.store ∧ u.pending = s.pending) ∧
  (∀ s : State, s.pwr.pins.pwrOk = false → Answers .coldReset s fun u =>
      u.boot.step = 3 ∧ u.boot.began = 0 ∧ u.fld F.BOOT_STATUS_STATE = 1 ∧ u.fld F.BOOT_STATUS_LAST_RESET = 0 ∧
      u.boot.watchdog = true ∧ u.time.tick = 0 ∧ u.pwr.pins = { s.pwr.pins with pwrOk := true } ∧
      (∀ r w i, r ≠ .BOOT_STATUS → r ≠ .TIME_CTRL → w < r.row.windows → i < r.row.count → u.reg r w i = r.resetVal) ∧
      u.alcoves = [] ∧ u.hcs = [] ∧ u.sync = .reset ∧ u.hbm = .reset ∧ u.ras.store = s.ras.store ∧
      u.boot.record = s.boot.recordNow.1 ∧ u.sdc.packs = s.sdc.packs ∧ u.pending = s.pending) ∧
  (∀ s : State, s.pwr.pins.pwrOk = true → s.boot.step ≠ 0 → exec .coldReset s = .next s) ∧
  (∀ s : State, s.pwr.pins.perstN = true → s.boot.step = 9 → s.boot.resets = [] → Answers .perstNAssert s fun u =>
      u.pwr.pins.perstN = false ∧ u.fld F.BOOT_STATUS_STATE = 6 ∧ u.fld F.BOOT_STATUS_LAST_RESET = 4 ∧
      u.host.linkUp = false ∧ (∃ r, u.boot.resets = [r] ∧ r.kind = .warm)) ∧
  (∀ s : State, Answers .perstNDeassert s fun u =>
      u.pwr.pins.perstN = true ∧ u = { s with pwr := { s.pwr with pins := { s.pwr.pins with perstN := true } } }) ∧
  (∀ (v n : Nat) (r : ResetRun) (s : State), s.boot.resets = [r] → r.kind = .interface v → r.vis = [v] → r.parts = [] →
    r.unbind = [] → r.wipe = some n → s.wiping n = false → s.ownAllocs [v] = [] → v < 256 →
    Performs .resetWipeComplete s fun u =>
      u.boot.resets = [] ∧ (∀ k, k ∈ u.part.resetting ↔ k ∈ s.part.resetting ∧ k ≠ v) ∧ u.fld F.VI_EVENT_RESET_DONE v = 1 ∧
      u = { s.raised u with
        boot := { s.boot with resets := [] }
        part := { s.part with resetting := u.part.resetting } })

/-- R475, R476, R478 to R481, R483, R484: the steps of boot. With no valid image the device stops in RECOVERY; else
the versions are shown, the controllers start at bundle 0, an untested pairing is restricted, and READY follows when
every channel is up. The watchdog and the service timer reset the device; an override with both versions ends
restricted mode. -/
def Obligations.BootRuns : Prop :=
  (∀ s : State, s.bootAt 3 = true → s.boot.directory.pmcPending = none →
    (∀ b x, b < 2 → tget none s.boot.pmcBanks b = some x → s.imageValid 1 x = false) → s.boot.directory.pmcActive < 2 →
    Answers .bootPmcImageVerified s fun u =>
      u.fld F.BOOT_STATUS_STATE = 5 ∧ u.boot = { s.boot with watchdog := false } ∧
      s.sameRegsBut u [(.BOOT_STATUS, 0, 0)] ∧ u = { s with boot := u.boot, regs := u.regs }) ∧
  (∀ (x : Image) (s : State), s.bootAt 3 = true → s.boot.directory.pmcPending = none →
    tget none s.boot.pmcBanks s.boot.directory.pmcActive = some x → s.imageValid 1 x = true →
    Answers .bootPmcImageVerified s fun u =>
      u.boot.step = 6 ∧ u.reg .BOOT_PMC_VER = x.version % 2 ^ 32 ∧ u.fld F.BOOT_STATUS_PMC_FALLBACK = 0 ∧
      u.fld F.BOOT_STATUS_STATE = 2 ∧ (u.hc 8).core = { Core.reset with state := .running } ∧
      (∀ c, c < 256 → (s.channel c).state = .off → s.boot.retireA = [] → s.boot.retireB = [] →
        (u.channel c).state = .training)) ∧
  (∀ (x pmc : Image) (s : State), s.bootAt 6 = true → s.boot.directory.hallPending = none →
    tget none s.boot.hallBanks s.boot.directory.hallActive = some x → s.imageValid 2 x = true →
    s.boot.pmcImage = some pmc → Answers .bootHallImageVerified s fun u =>
      u.boot.step = 7 ∧ u.reg .BOOT_HALL_VER = x.version % 2 ^ 32 ∧ u.boot.hallImage = some x ∧
      u.boot.restricted = !s.boot.tested pmc x ∧ u = { s with boot := u.boot, regs := u.regs }) ∧
  (∀ (x : Image) (s : State), s.bootAt 7 = true → s.boot.hallImage = some x → Answers .bootHallStart s fun u =>
      u.boot.step = 8 ∧
      (∀ h, h < 8 → s.boot.unpowered.contains h = false → (u.hc h).core = { Core.reset with state := .running } ∧
        (u.hc h).dstore = storeBytes [] 0 x.data)) ∧
  (∀ s : State, s.bootAt 8 = true →
    (∀ c, c < 256 → (s.channel c).state = .ready ∨ (s.channel c).state = .retired ∨ s.boot.unpowered.contains (c / 32) = true) →
    s.boot.triedPmc = none → s.boot.triedHall = none → Answers .bootReady s fun u =>
      u.boot.step = 9 ∧ u.boot.watchdog = false ∧ u.boot.service = some s.time.tick ∧
      u.fld F.BOOT_STATUS_STATE = (if s.boot.restricted then 4 else 3) ∧
      u.fld (if s.boot.restricted then F.BOOT_EVENT_RESTRICTED else F.BOOT_EVENT_READY) = 1) ∧
  (∀ (c : Nat) (s : State), c < 256 → (s.channel c).state = .training → s.boot.unpowered.contains (c / 32) = false →
    exec .bootReady s = .next s) ∧
  (∀ s : State, s.boot.watchdog = true → 2000000000 ≤ s.time.tick - s.boot.began → s.pwr.pins.pwrOk = true →
    s.pwr.tripped = false → Answers .bootWatchdogExpire s fun u =>
      u.boot.step = 3 ∧ u.fld F.BOOT_STATUS_LAST_RESET = 2 ∧ u.alcoves = [] ∧ u.ras.store = s.ras.store) ∧
  (∀ (t : Nat) (s : State), s.boot.service = some t → 100000000 ≤ s.time.tick - t → s.pwr.pins.pwrOk = true →
    s.pwr.tripped = false → s.inj.timerStopped = false → Answers .pmcServiceTimerExpire s fun u =>
      u.boot.step = 3 ∧ u.fld F.BOOT_STATUS_LAST_RESET = 7 ∧ u.fld F.BOOT_PMC_FAULT_VALID = 1 ∧
      u.fld F.BOOT_PMC_FAULT_TIMER = 1 ∧ u.fld F.BOOT_PMC_FAULT_INJECTED = 0 ∧ u.alcoves = []) ∧
  (∀ (t : Nat) (s : State), s.boot.service = some t → s.time.tick - t < 100000000 →
    exec .pmcServiceTimerExpire s = .next s) ∧
  (∀ (code slot pc : Nat) (s : State), (s.hc 8).fault = some (code, slot, pc) → s.boot.step = 9 → s.pwr.pins.pwrOk = true →
    s.pwr.tripped = false → code < 256 → slot < 8 → pc < 4096 → Answers .pmcFault s fun u =>
      u.boot.step = 3 ∧ u.fld F.BOOT_STATUS_LAST_RESET = 7 ∧ u.fld F.BOOT_PMC_FAULT_VALID = 1 ∧
      u.fld F.BOOT_PMC_FAULT_TIMER = 0 ∧ u.fld F.BOOT_PMC_FAULT_CODE = code ∧ u.fld F.BOOT_PMC_FAULT_SLOT = slot ∧
      u.fld F.BOOT_PMC_FAULT_PC = pc) ∧
  (∀ (a : Agent) (x : Nat) (s : State), s.reaches a .BOOT_OVERRIDE → s.quiet → x < 2 ^ 32 →
    Answers (.bootOverrideWrite a x) s fun u =>
      (s.boot.restricted = true → x = (s.reg .BOOT_PMC_VER ^^^ s.reg .BOOT_HALL_VER) →
        u.boot.restricted = false ∧ u.boot.override = true ∧ u.fld F.BOOT_STATUS_UNVALIDATED = 1 ∧
        u.fld F.BOOT_STATUS_STATE = 3 ∧ u.fld F.BOOT_EVENT_OVERRIDE = 1) ∧
      (x ≠ (s.reg .BOOT_PMC_VER ^^^ s.reg .BOOT_HALL_VER) → u.boot = s.boot) ∧ u = { s.raised u with boot := u.boot })

/-- R486, R489, R490, R491: an ARM with its complement is kept for 1 s; a COMMIT after it makes a legal transition and
resets the device cold, and else changes no record; an ID is stored outside BLANK for the next cold reset. -/
def Obligations.LifeCycle : Prop :=
  (∀ (a : Agent) (x : Nat) (s : State), s.reaches a .LC_CMD → s.quiet → x < 2 ^ 32 → Answers (.lcArm a x) s fun u =>
      (bits x 5 4 = 3 - bits x 1 0 → u.boot = { s.boot with lcArm := some { target := bits x 1 0, since := s.time.tick } } ∧
        u.fld F.LC_STATUS_RESULT = 0) ∧
      (bits x 5 4 ≠ 3 - bits x 1 0 → u.boot = s.boot ∧ u.fld F.LC_STATUS_RESULT = 1) ∧
      s.sameRegsBut u [(.LC_STATUS, 0, 0), (.LC_CMD, 0, 0)] ∧ u = { s with boot := u.boot, regs := u.regs }) ∧
  (∀ (a : Agent) (x : Nat) (s : State), s.reaches a .LC_CMD → s.quiet → x < 2 ^ 32 → s.boot.lcArm = none →
    Answers (.lcCommit a x) s fun u => u.fld F.LC_STATUS_RESULT = 1 ∧ u.boot = s.boot ∧ u = { s with regs := u.regs }) ∧
  (∀ (a : Agent) (x : Nat) (arm : LcArm) (s : State), s.reaches a .LC_CMD → x < 2 ^ 32 → s.boot.lcArm = some arm →
    s.time.tick - arm.since ≤ 1000000000 → arm.target = bits x 1 0 → bits x 5 4 = 3 - bits x 1 0 →
    s.boot.recordNow.1.state = 1 → bits x 1 0 = 2 → s.flashBusy = false → s.pwr.pins.pwrOk = true → s.pwr.tripped = false →
    Performs (.lcCommit a x) s fun u =>
      u.boot.record.state = 2 ∧ u.boot.record.transitions = s.boot.recordNow.1.transitions + 1 ∧
      u.boot.record.deviceId = s.boot.recordNow.1.deviceId ∧ u.boot.lcDone = true ∧ u.boot.retireA = [] ∧
      u.boot.retireB = [] ∧ u.boot.step = 3 ∧ u.fld F.BOOT_STATUS_LAST_RESET = 3) ∧
  (∀ (arm : LcArm) (s : State), s.boot.lcArm = some arm → 1000000000 < s.time.tick - arm.since →
    Answers .lcArmLapse s fun u => u = { s with boot := { s.boot with lcArm := none } }) ∧
  (∀ (arm : LcArm) (s : State), s.boot.lcArm = some arm → s.time.tick - arm.since ≤ 1000000000 →
    exec .lcArmLapse s = .next s) ∧
  (∀ (a : Agent) (x : Nat) (s : State), s.reaches a .LC_CMD → s.quiet → x < 2 ^ 32 → Answers (.lcStoreId a x) s fun u =>
      (s.boot.recordNow.1.state ≠ 0 → u.boot.recordNow.1 = { s.boot.recordNow.1 with
          sequence := s.boot.recordNow.1.sequence + 1, deviceId := s.fld F.LC_NEXT_ID_NEXT } ∧
        u.boot.record = s.boot.record ∧ u.fld F.LC_NEXT_ID_PENDING = 1 ∧ u.fld F.LC_STATUS_RESULT = 0) ∧
      (s.boot.recordNow.1.state = 0 → u.boot = s.boot ∧ u.fld F.LC_STATUS_RESULT = 1) ∧
      u = { s with boot := u.boot, regs := u.regs })

/-! ## Interrupts (14_interrupts.md) -/

/-- R351: a controller at a bundle boundary takes the source it may take, in one step: it pushes the pc of the bundle
that would have issued next, the bank in use and the level, the source becomes ACTIVE, and the pc becomes the entry of
its class; a fast source selects bank 1. Nothing else changes. R351: a source that a controller may take is PENDING
for it, goes before every other such source by level and then by the lower number, ranks above every level on the
stack, finds fewer than eight entries there, and if it is fast finds no fast entry. A controller that may take none,
or stands at no boundary, keeps its state. -/
def Obligations.InterruptsTaken : Prop :=
  (∀ (t : Fin 9) (s : State) (src : Nat), (s.hc t).core.atBoundary = true → s.takable t = some src →
    Answers (.interruptTake t) s fun u =>
      let c := (s.hc t).core
      let fast := s.fld F.IC_SRC_CFG_CLASS src = 1
      (u.hc t).core = { c with
        pc := if fast then s.fld F.IC_TGT_CTRL_FAST_ENTRY t else s.fld F.IC_TGT_CTRL_NORMAL_ENTRY t,
        bank := if fast then 1 else c.bank, state := .running, wait := none, prefetch := [] } ∧
      tget [] u.ic.frames t = { pc := c.pc, bank := c.bank, level := s.srcLevel src } :: tget [] s.ic.frames t ∧
      tget [] u.ic.taken t = src :: tget [] s.ic.taken t ∧
      u.icSource src = { s.icSource src with state := .active } ∧
      (∀ x, x ≠ src → u.icSource x = s.icSource x) ∧
      (∀ k, k ≠ t.val → u.hc k = s.hc k ∧ tget [] u.ic.frames k = tget [] s.ic.frames k) ∧
      u = { s with hcs := u.hcs, ic := u.ic }) ∧
  ((∀ (s : State) (t src : Nat), s.takable t = some src →
    src ∈ s.pendingAt t ∧
    (∀ x ∈ s.pendingAt t, s.srcLevel x < s.srcLevel src ∨ s.srcLevel x = s.srcLevel src ∧ src ≤ x) ∧
    (∀ e ∈ tget [] s.ic.frames t, e.level < s.srcLevel src) ∧ (tget [] s.ic.frames t).length < 8 ∧
    (16 ≤ s.srcLevel src → ∀ e ∈ tget [] s.ic.frames t, e.level < 16)) ∧
  (∀ (s : State) (t : Fin 9), s.takable t = none ∨ (s.hc t).core.atBoundary = false →
    exec (.interruptTake t) s = .next s))

/-- R346, R353: a target completes a source ACTIVE at it, which becomes INACTIVE; any other source named changes
nothing of it, counts a bad completion and sets BAD_EOI. R347, R348: writes of IC_SRC_CFG and IC_TGT_CTRL store their
fields. A PENDING source that is disabled waits unassigned, an ACTIVE one stays as it is; after a target is disabled
no PENDING source is assigned to it. R358: a PENDING notice is taken when its interface enables notices, by one MSI-X
message on its vector; the interface completes an ACTIVE notice by IC_VI_EOI, and one that fired again is owed one
more. -/
def Obligations.SourcesCompleteAndConfigure : Prop :=
  ((∀ (a : Agent) (t : Fin 10) (v src : Nat) (s : State), s.reaches a .IC_TGT_EOI t → s.quiet →
    src = F.IC_TGT_EOI_SOURCE.of (v % 2 ^ 32) → (s.icSource src).state = .active →
    (s.icSource src).target = some t.val →
    Answers (.icTgtEoiWrite a t v) s fun u =>
      u.icSource src = { s.icSource src with state := .inactive, target := none } ∧
      (∀ x, x ≠ src → u.icSource x = s.icSource x) ∧ u.ic.frames = s.ic.frames ∧ u.ic.notices = s.ic.notices ∧
      src ∉ tget [] u.ic.taken t ∧ s.sameRegsBut u [] ∧ u = { s with regs := u.regs, ic := u.ic }) ∧
  (∀ (a : Agent) (t : Fin 10) (v src : Nat) (s : State), s.reaches a .IC_TGT_EOI t → s.quiet →
    src = F.IC_TGT_EOI_SOURCE.of (v % 2 ^ 32) → (s.icSource src).target ≠ some t.val →
    Answers (.icTgtEoiWrite a t v) s fun u =>
      u.fld F.IC_EVENT_BAD_EOI = 1 ∧
      u.fld F.IC_BAD_EOI_COUNT_COUNT = min 0xFFFFFFFF (s.fld F.IC_BAD_EOI_COUNT_COUNT + 1) ∧
      (∀ x, x ≠ icOwnSource → u.icSource x = s.icSource x) ∧ u.ic.frames = s.ic.frames ∧ u = s.raised u)) ∧
  ((∀ (a : Agent) (src : Fin 1024) (v : Nat) (s : State), s.reaches a .IC_SRC_CFG src → s.quiet →
    Answers (.icSrcCfgWrite a src v) s fun u =>
      (∀ f ∈ Reg.IC_SRC_CFG.fields, u.fld f src = f.of (v % 2 ^ 32)) ∧
      ((s.icSource src).state = .pending → s.fld F.IC_SRC_CFG_ENABLE src = 1 →
        F.IC_SRC_CFG_ENABLE.of (v % 2 ^ 32) = 0 → u.icSource src = { s.icSource src with target := none }) ∧
      ((s.icSource src).state = .active → src.val ≠ icOwnSource → u.icSource src = s.icSource src) ∧
      u.ic.frames = s.ic.frames ∧ u = s.raised u) ∧
  (∀ (a : Agent) (t : Fin 10) (v : Nat) (s : State), s.reaches a .IC_TGT_CTRL t → s.quiet →
    Answers (.icTgtCtrlWrite a t v) s fun u =>
      (∀ f ∈ Reg.IC_TGT_CTRL.fields, u.fld f t = f.of (v % 2 ^ 32)) ∧
      (F.IC_TGT_CTRL_ENABLE.of (v % 2 ^ 32) = 0 →
        ∀ src, (u.icSource src).state = .pending → (u.icSource src).target ≠ some t.val) ∧
      u.ic.frames = s.ic.frames ∧ u = s.raised u)) ∧
  ((∀ (a : Agent) (n : Fin 256) (v : Nat) (s : State), s.reaches a .IC_VI_NOTICE n → s.quiet →
    s.noticeState n = .pending → F.IC_VI_NOTICE_ENABLE.of (v % 2 ^ 32) = 1 →
    F.IC_VI_NOTICE_VECTOR.of (v % 2 ^ 32) < s.fld F.VI_MSIX_COUNT n →
    Answers (.icViNoticeWrite a n v) s fun u =>
      let entry := s.fld F.VI_MSIX_BASE n + F.IC_VI_NOTICE_VECTOR.of (v % 2 ^ 32)
      u.noticeState n = .active ∧ (∀ k, k ≠ n.val → u.noticeState k = s.noticeState k) ∧
      (∀ f ∈ [F.IC_VI_NOTICE_ENABLE, F.IC_VI_NOTICE_VECTOR], u.fld f n = f.of (v % 2 ^ 32)) ∧
      (entry < 2048 → (tget .reset s.host.msix entry).mask = false → (s.host.func n).msixEnable = true →
        (s.host.func n).funcMask = false → u.out =
          .msix entry (tget .reset s.host.msix entry).addr (tget .reset s.host.msix entry).data :: s.out) ∧
      s.sameRegsBut u [(.IC_VI_NOTICE, n.val, 0)] ∧ u.ic.sources = s.ic.sources ∧ u = s.raised u) ∧
  (∀ (a : Agent) (n : Fin 256) (v : Nat) (s : State), s.reaches a .IC_VI_EOI n → s.quiet →
    s.noticeState n = .active → F.IC_VI_EOI_DONE.of (v % 2 ^ 32) = 1 →
    Answers (.icViEoiWrite a n v) s fun u =>
      u.noticeState n = .inactive ∧ (∀ k, k ≠ n.val → u.noticeState k = s.noticeState k) ∧ s.sameRegsBut u [] ∧
      u.ic.sources = s.ic.sources ∧ u = s.raised u ∧ u.host = s.host ∧ u.out = s.out))

/-- R346, R359: a software source written to IC_SWI fires: its FIRINGS count goes up by one and saturates, and it
moves as a firing moves it. Any other value fires nothing and sets BAD_EOI; the count of bad completions counts it too
(the field table of IC_BAD_EOI_COUNT). -/
def Obligations.SoftwareSourceFires : Prop :=
  (∀ (a : Agent) (v src : Nat) (s : State), s.reaches a .IC_SWI → s.quiet → src = F.IC_SWI_SOURCE.of (v % 2 ^ 32) →
    112 ≤ src % 128 → src % 128 < 120 →
    Answers (.icSwiWrite a v) s fun u =>
      u.fld F.IC_SRC_STATE_FIRINGS src = min 0xFFFF (s.fld F.IC_SRC_STATE_FIRINGS src + 1) ∧
      ((s.icSource src).state = .pending → u.icSource src = s.icSource src) ∧
      ((s.icSource src).state = .active → u.icSource src = { s.icSource src with state := .activePending }) ∧
      ((s.icSource src).state = .activePending → u.icSource src = s.icSource src) ∧
      ((s.icSource src).state = .inactive → s.fld F.IC_SRC_CFG_ENABLE src = 0 →
        u.icSource src = { s.icSource src with state := .pending, target := none }) ∧
      (∀ x, x ≠ src → x ≠ icOwnSource → u.icSource x = s.icSource x) ∧ u = s.raised u) ∧
  (∀ (a : Agent) (v : Nat) (s : State), s.reaches a .IC_SWI → s.quiet →
    ¬(112 ≤ F.IC_SWI_SOURCE.of (v % 2 ^ 32) % 128 ∧ F.IC_SWI_SOURCE.of (v % 2 ^ 32) % 128 < 120) →
    Answers (.icSwiWrite a v) s fun u =>
      u.fld F.IC_EVENT_BAD_EOI = 1 ∧
      u.fld F.IC_BAD_EOI_COUNT_COUNT = min 0xFFFFFFFF (s.fld F.IC_BAD_EOI_COUNT_COUNT + 1) ∧
      (∀ x, x ≠ icOwnSource → u.icSource x = s.icSource x) ∧ u = s.raised u)

/-! ## Coluz links (15_coluz_links.md) -/

/-- R364 to R366, R371, R392: how a port comes up. ENABLE takes a port with a role to DETECT, signal takes it to
TRAIN, training to LOCK, lock to INIT, where it sends INIT flits; four like INIT flits make it ACTIVE with the lanes
and role of both sides. A step past its limit returns it to DETECT with INIT_FAIL. A retrain, a change of LANE_OFF and
a lane lost from use enter RECOVER with the replay buffer kept; RETIRE owes the port's retirement. -/
def Obligations.PortsComeUp : Prop :=
  (∀ (a : Agent) (p : Fin 64) (x : Nat) (s : State), s.reaches a .CLZ_PORT_CTRL p → s.noWaiting →
    (s.port p).state = .off → (s.port p).queues = [] → (s.port p).flows = [] → s.fld F.CLZ_PORT_CTRL_ENABLE p = 0 →
    s.plainPortWrite p x → Performs (.portEnable a p x) s fun u =>
      u.fld F.CLZ_PORT_CTRL_ENABLE p = 1 ∧
      (s.part.profile.portRole.getD p 0 ≠ 0 →
        u.port p = { ((s.port p).entered .detect s.time.tick).cleared with role := s.part.profile.portRole.getD p 0 } ∧
        u.fld F.CLZ_EVENT_STATE_CHANGE p = 1) ∧
      (s.part.profile.portRole.getD p 0 = 0 → u.clz = s.clz) ∧ s.portFrame u p ∧ u.ras = s.ras) ∧
  (∀ (p : Fin 64) (s : State), (s.port p).state = .detect → s.lanesUsable p ≠ 0 → s.noWaiting →
    Answers (.laneSignalDetect p) s fun u =>
      u.port p = (s.port p).entered .train s.time.tick ∧ u.fld F.CLZ_EVENT_STATE_CHANGE p = 1 ∧ s.portFrame u p ∧
      u.ras = s.ras) ∧
  (∀ (p : Fin 64) (s : State), s.lanesUsable p = 0 → exec (.laneSignalDetect p) s = .next s) ∧
  (∀ (p : Fin 64) (s : State), (s.port p).state = .train → s.noWaiting → Answers (.linkTrainingDone p) s fun u =>
      u.port p = (s.port p).entered .lock s.time.tick ∧ u.fld F.CLZ_EVENT_STATE_CHANGE p = 1 ∧ s.portFrame u p ∧
      u.ras = s.ras) ∧
  (∀ (p : Fin 64) (s : State), (s.port p).state = .lock → s.lanesUsable p ≠ 0 → s.noWaiting → s.noShots →
    Performs (.fecLockDone p) s fun u =>
      (∃ owed, u.port p = { (s.port p).entered .init s.time.tick with
        laneFails := [], working := s.lanesUsable p, owed := owed }) ∧
      u.flitSent p 2 (u.ownInit p).encode ∧ u.fld F.CLZ_EVENT_STATE_CHANGE p = 1 ∧ s.portFrame u p ∧ u.ras = s.ras) ∧
  (∀ (p : Fin 64) (failed : Fin 16) (s : State), (s.port p).state = .train → 500000000 ≤ s.time.tick - (s.port p).since →
    s.noWaiting → (s.port p).queues = [] → (s.port p).flows = [] → (s.port p).laneFails = [] →
    Performs (.bringupStepTimeout p failed) s fun u =>
      (∃ fails, u.port p = { ((s.port p).entered .detect s.time.tick).cleared with laneFails := fails } ∧
        ∀ l, l < 4 → fails.getD l 0 = if bit failed l = 1 ∧ bit (s.lanesAvail p) l = 1 then 1 else 0) ∧
      u.fld F.CLZ_EVENT_INIT_FAIL p = 1 ∧ s.portFrame u p ∧ u.ras = s.ras) ∧
  (∀ (p : Fin 64) (failed : Fin 16) (s : State), (s.port p).state = .train → s.time.tick - (s.port p).since < 500000000 →
    exec (.bringupStepTimeout p failed) s = .next s.settle) ∧
  (∀ (p : Fin 64) (f : List Nat) (h : FlitHdr) (s : State), (s.port p).state = .init → s.noShots → flitHdr? f = some h →
    h.kind = 2 → (InitInfo.decode (flitPayload f)).version = 1 → (s.port p).initCount < 3 →
    Performs (.initFlitReceive p f) s fun u =>
      let i := InitInfo.decode (flitPayload f)
      u = s.onPort p fun x => { x with
        lastInit := some i, initCount := if x.lastInit = some i then x.initCount + 1 else 1 }) ∧
  (∀ (p : Fin 64) (f : List Nat) (h : FlitHdr) (s : State), (s.port p).state = .init → s.noShots → flitHdr? f = some h →
    h.kind = 2 → (InitInfo.decode (flitPayload f)).version = 1 →
    (s.port p).lastInit = some (InitInfo.decode (flitPayload f)) → (s.port p).initCount = 3 → s.noWaiting →
    (s.port p).agreed = 0 → (s.port p).peer = none → (s.port p).unacked = [] → s.sync.landings = [] →
    (s.port p).fresh = true → (List.range 16).all (fun w => !s.winArmed p w) →
    lanesUsed ((s.port p).working &&& (InitInfo.decode (flitPayload f)).lanes) ≠ 0 →
    Performs (.initFlitReceive p f) s fun u =>
      let i := InitInfo.decode (flitPayload f)
      let own := s.part.profile.portRole.getD p 0
      u.port p = { (s.port p).entered .active s.time.tick with
        agreed := (s.port p).working &&& i.lanes, role := if own = 2 ∨ i.role = 2 then 2 else own, peer := some i
        fresh := false, full := false, badVersion := none, txSeq := 0, rxNext := 0, rxAny := false, partialMsg := []
        nakAt := none, unacked := [], credits := i.credits, owed := [], progress := s.time.tick } ∧
      u.fld F.CLZ_EVENT_STATE_CHANGE p = 1 ∧ s.portFrame u p ∧ u.ras = s.ras) ∧
  (∀ (p : Fin 64) (f : List Nat) (h : FlitHdr) (s : State), (s.port p).state = .init → s.noShots → flitHdr? f = some h →
    h.kind = 2 → (InitInfo.decode (flitPayload f)).version ≠ 1 → s.noWaiting → (s.port p).queues = [] →
    (s.port p).flows = [] → (s.port p).full = false → (s.port p).badVersion = none →
    Performs (.initFlitReceive p f) s fun u =>
      u.port p = ((s.port p).entered .detect s.time.tick).cleared ∧ u.fld F.CLZ_EVENT_INIT_FAIL p = 1 ∧
      s.portFrame u p ∧ u.ras = s.ras) ∧
  (∀ (a : Agent) (p : Fin 64) (x : Nat) (s : State), s.reaches a .CLZ_PORT_CTRL p → s.noWaiting →
    (s.port p).state = .active → F.CLZ_PORT_CTRL_ENABLE.of x = 1 → s.fld F.CLZ_PORT_CTRL_ENABLE p = 1 →
    F.CLZ_PORT_CTRL_RETIRE.of x = 0 → F.CLZ_PORT_CTRL_LANE_OFF.of x = s.fld F.CLZ_PORT_CTRL_LANE_OFF p →
    Performs (.portRetrain a p x) s fun u =>
      (∃ owed, u.port p = { (s.port p).entered .recover s.time.tick with full := true, owed := owed }) ∧
      u.flitSent p 2 (u.ownInit p).encode ∧ u.fld F.CLZ_EVENT_STATE_CHANGE p = 1 ∧ s.portFrame u p ∧ u.ras = s.ras) ∧
  (∀ (a : Agent) (p : Fin 64) (x : Nat) (s : State), s.reaches a .CLZ_PORT_CTRL p → s.noWaiting →
    (s.port p).state = .active → F.CLZ_PORT_CTRL_ENABLE.of x = 1 → s.fld F.CLZ_PORT_CTRL_ENABLE p = 1 →
    F.CLZ_PORT_CTRL_RETRAIN.of x = 0 → F.CLZ_PORT_CTRL_RETIRE.of x = 0 →
    F.CLZ_PORT_CTRL_LANE_OFF.of x ≠ s.fld F.CLZ_PORT_CTRL_LANE_OFF p → Performs (.laneOffChange a p x) s fun u =>
      u.fld F.CLZ_PORT_CTRL_LANE_OFF p = F.CLZ_PORT_CTRL_LANE_OFF.of x ∧
      (∃ owed, u.port p = { (s.port p).entered .recover s.time.tick with
        working := (s.port p).working &&& u.lanesAvail p, owed := owed }) ∧
      u.flitSent p 2 (u.ownInit p).encode ∧ s.portFrame u p ∧ (u.lanesAvail p ≠ 0 → u.ras = s.ras)) ∧
  (∀ (p : Fin 64) (l : Fin 4) (s : State), (s.port p).state = .active →
    bit (lanesUsed (s.port p).agreed) l = 1 → s.noWaiting → Performs (.laneLockLoss p l) s fun u =>
      (∃ owed, u.port p = { (s.port p).entered .recover s.time.tick with
        working := clearBit (s.port p).working l, owed := owed }) ∧
      u.flitSent p 2 (u.ownInit p).encode ∧ s.portFrame u p) ∧
  (∀ (p : Fin 64) (l : Fin 4) (s : State), (s.port p).state = .off → exec (.laneLockLoss p l) s = .next s.settle) ∧
  (∀ (a : Agent) (p : Fin 64) (x : Nat) (s : State), s.reaches a .CLZ_PORT_CTRL p → (s.port p).state = .active →
    F.CLZ_PORT_CTRL_ENABLE.of x = 1 → F.CLZ_PORT_CTRL_RETRAIN.of x = 0 →
    F.CLZ_PORT_CTRL_LANE_OFF.of x = s.fld F.CLZ_PORT_CTRL_LANE_OFF p → s.retired (portChannel p) = false →
    Performs (.portRetireWrite a p x) s fun u =>
      (∃ o, o ∈ u.ras.owed ∧ o.channel = portChannel p ∧ o.hard = true ∧ o.commanded = true) ∧ u.clz = s.clz ∧
      u = { s with regs := u.regs, ras := { s.ras with owed := u.ras.owed } })

/-- R368 to R375: what flits do. The next DATA flit in sequence is taken and acknowledged; one already taken is
acknowledged again; one beyond it sends a NAK, once, and is dropped; one with a wrong CRC or in a spoilt codeword is
counted. An acknowledgement frees the flits it covers and credits grow by the returns. A NAK, and 2 µs without
progress, resend every flit not acknowledged; the NAK is repeated every 1 µs. Replay gives up after 20 µs with a fresh
start. A message goes to the wire when its credits cover it, VC7 first, then VC6. -/
def Obligations.FlitsAndReplay : Prop :=
  (∀ (p : Fin 64) (f : List Nat) (h : FlitHdr) (s : State), (s.port p).state = .active → s.noShots →
    tget 0 s.inj.portDiscard p ≤ s.time.tick → flitHdr? f = some h → h.kind = 1 → h.seq = (s.port p).rxNext →
    Performs (.dataFlitReceive p f false) s fun u =>
      (u.port p).rxNext = ((s.port p).rxNext + 1) % 65536 ∧ (u.port p).rxAny = true ∧ (u.port p).nakAt = none ∧
      (∃ k : FlitHdr, k.kind = 0 ∧ k.ackv = true ∧ k.ack = h.seq ∧ .flit p (k.encode []) ∈ u.out)) ∧
  (∀ (p : Fin 64) (f : List Nat) (h : FlitHdr) (r : LongHdr) (s : State), (s.port p).state = .active → s.noShots →
    (s.port p).role = 1 → tget 0 s.inj.portDiscard p ≤ s.time.tick → flitHdr? f = some h → h.kind = 1 →
    h.seq = (s.port p).rxNext → h.cont = 0 → LinkMsg.decode ((flitPayload f).take 32) = some (.readReq r) →
    r.dst = s.deviceId → (∀ b, b ∈ (flitPayload f).drop 32 → b = 0) → Performs (.dataFlitReceive p f false) s fun u =>
      u.mem = { s.mem with readReqs := s.mem.readReqs ++ [.readReq r] } ∧
      u = { s with clz := { s.clz with ports := u.clz.ports }, mem := u.mem, out := u.out }) ∧
  (∀ (p : Fin 64) (f : List Nat) (h : FlitHdr) (s : State), (s.port p).state = .active → s.noShots →
    tget 0 s.inj.portDiscard p ≤ s.time.tick → flitHdr? f = some h → h.kind = 1 → h.seq ≠ (s.port p).rxNext →
    Performs (.dataFlitReceive p f false) s fun u =>
      (u.port p).rxNext = (s.port p).rxNext ∧ (u.port p).rxAny = (s.port p).rxAny ∧
      (((s.port p).rxNext + 65536 - h.seq) % 65536 < 32768 →
        (u.port p).nakAt = (s.port p).nakAt ∧ u.flitSent p 0 []) ∧
      (¬((s.port p).rxNext + 65536 - h.seq) % 65536 < 32768 → (s.port p).nakAt = none →
        (u.port p).nakAt = some s.time.tick ∧ u.flitSent p 3 []) ∧
      (¬((s.port p).rxNext + 65536 - h.seq) % 65536 < 32768 → (s.port p).nakAt ≠ none →
        (u.port p).nakAt = (s.port p).nakAt ∧ u.out = s.out) ∧
      u = { s with clz := { s.clz with ports := u.clz.ports }, out := u.out }) ∧
  (∀ (p : Fin 64) (f : List Nat) (fec : Bool) (s : State), (s.port p).state = .active → s.noShots →
    (flitHdr? f = none ∨ fec = true) → Performs (.dataFlitReceive p f fec) s fun u =>
      u.fld F.CLZ_CRC_ERR_COUNT p = min (2 ^ 32 - 1) (s.fld F.CLZ_CRC_ERR_COUNT p + 1) ∧
      u.fld F.CLZ_FEC_UE_COUNT p =
        (if fec then min (2 ^ 32 - 1) (s.fld F.CLZ_FEC_UE_COUNT p + 1) else s.fld F.CLZ_FEC_UE_COUNT p) ∧
      (u.port p).rxNext = (s.port p).rxNext ∧ (u.port p).nakAt.isSome = true ∧
      ((s.port p).nakAt = none → u.flitSent p 3 []) ∧ s.portFrame u p) ∧
  (∀ (p : Fin 64) (f : List Nat) (h : FlitHdr) (s : State), (s.port p).state = .active → s.noShots → flitHdr? f = some h →
    h.kind = 0 → h.ackv = true → h.a.1 = 15 → h.b.1 < 9 → Performs (.controlFlitReceive p f false) s fun u =>
      (∀ t, t ∈ (u.port p).unacked ↔ t ∈ (s.port p).unacked ∧ ¬(h.ack + 65536 - t.seq) % 65536 < 32768) ∧
      (u.port p).credits = (s.port p).credits.set h.b.1 ((s.port p).credits.getD h.b.1 0 + h.b.2) ∧
      u = s.onPort p fun x => { x with
        unacked := (u.port p).unacked, credits := (u.port p).credits, progress := (u.port p).progress }) ∧
  (∀ (p : Fin 64) (f : List Nat) (h : FlitHdr) (s : State), (s.port p).state = .active → s.noShots → flitHdr? f = some h →
    h.kind = 3 → h.ackv = false → (s.port p).unacked ≠ [] → Performs (.nakReceive p f false) s fun u =>
      u.fld F.CLZ_REPLAYS_COUNT p = min (2 ^ 32 - 1) (s.fld F.CLZ_REPLAYS_COUNT p + 1) ∧
      (u.port p).unacked.map (·.seq) = (s.port p).unacked.map (·.seq) ∧
      (∀ t, t ∈ (s.port p).unacked → t.cont = 0 → byteAt t.slots 0 % 16 < 8 →
        ∃ k : FlitHdr, k.kind = 1 ∧ k.seq = t.seq ∧ k.win = t.win ∧ .flit p (k.encode t.slots) ∈ u.out) ∧
      s.sameRegsBut u [(.CLZ_REPLAYS, p, 0)] ∧ (∀ q, q ≠ p.val → u.port q = s.port q)) ∧
  (∀ (p : Fin 64) (s : State), (s.port p).state = .active → 2000 ≤ s.time.tick - (s.port p).progress →
    (s.port p).unacked ≠ [] → Performs (.ackProgressTimeout p) s fun u =>
      u.fld F.CLZ_REPLAYS_COUNT p = min (2 ^ 32 - 1) (s.fld F.CLZ_REPLAYS_COUNT p + 1) ∧
      (u.port p).unacked.map (·.seq) = (s.port p).unacked.map (·.seq) ∧ (u.port p).progress = s.time.tick ∧
      (∀ t, t ∈ (u.port p).unacked → t.firstResend.isSome = true)) ∧
  (∀ (p : Fin 64) (s : State), s.time.tick - (s.port p).progress < 2000 →
    exec (.ackProgressTimeout p) s = .next s.settle) ∧
  (∀ (p : Fin 64) (n : Nat) (s : State), (s.port p).state = .active → (s.port p).nakAt = some n → 1000 ≤ s.time.tick - n →
    Answers (.nakRepeatTimer p) s fun u =>
      u.flitSent p 3 [] ∧ (u.port p).nakAt = some s.time.tick ∧
      u = { s with clz := { s.clz with ports := u.clz.ports }, out := u.out }) ∧
  (∀ (p : Fin 64) (s : State), (s.port p).nakAt = none → exec (.nakRepeatTimer p) s = .next s) ∧
  (∀ (p : Fin 64) (t : TxFlit) (n : Nat) (s : State), (s.port p).state = .active → t ∈ (s.port p).unacked →
    t.firstResend = some n → 20000 ≤ s.time.tick - n → s.noWaiting → s.retired (portChannel p) = false →
    Performs (.replayGiveUp p) s fun u =>
      (u.port p).state = .recover ∧ (u.port p).unacked = [] ∧ (u.port p).fresh = true ∧ (u.port p).full = true ∧
      u.fld F.CLZ_EVENT_REPLAY_ABANDON p = 1 ∧ u.fld F.RAS_EVENT_RECORD = 1 ∧ u.flitSent p 2 (u.ownInit p).encode ∧
      (∀ q, q ≠ p.val → u.port q = s.port q)) ∧
  (∀ (p : Fin 64) (s : State), (s.port p).state = .active → (∀ t, t ∈ (s.port p).unacked → t.firstResend = none) →
    exec (.replayGiveUp p) s = .next s.settle) ∧
  (∀ (p : Fin 64) (vc : Nat) (m : LinkMsg) (rest : List LinkMsg) (s : State), (s.port p).state = .active →
    s.pickMessage p = some (.queue vc) → tget [] (s.port p).queues vc = m :: rest → m.slots ≤ 15 → m.mtype < 9 →
    (s.port p).unacked.length < 4096 → Answers (.messageTransmit p) s fun u =>
      let x := s.port p
      let t : TxFlit := { seq := x.txSeq, slots := m.encode, cont := 0, win := x.openWindow.isSome, firstResend := none }
      (u.port p).unacked = x.unacked ++ [t] ∧ (u.port p).txSeq = (x.txSeq + 1) % 65536 ∧
      (u.port p).credits = x.credits.set vc (x.credits.getD vc 0 - m.slots) ∧
      (u.port p).queues = tset [] x.queues vc rest ∧
      (∃ k : FlitHdr, k.kind = 1 ∧ k.seq = x.txSeq ∧ k.cont = 0 ∧ .flit p (k.encode m.encode) ∈ u.out) ∧
      u = { s with clz := { s.clz with ports := u.clz.ports }, out := u.out }) ∧
  (∀ (p : Fin 64) (s : State), (s.port p).covered 7 = false → (s.port p).covered 6 = true →
    s.pickMessage p = some (.queue 6)) ∧
  (∀ (p : Fin 64) (s : State), s.pickMessage p = none → exec (.messageTransmit p) s = .next s)

/-- R379, R382, R387, R388: a read request of this device is answered with its data, or refused where it may not read;
the answer of a read goes to its packet, which goes on; a message that waited 20 µs for a way is dropped and counted;
a window is armed when all the conditions of R387 hold and refused otherwise; an armed window opens and closes with
its span. -/
def Obligations.LinkTraffic : Prop :=
  (∀ (i v q : Nat) (h : LongHdr) (s : State), s.mem.readReqs[i]? = some (.readReq h) →
    let ga := gaMake s.deviceId 0 0 + h.addr
    let a := gByte (gaOffset ga)
    let answer : LinkMsg := .readCpl { h with
      vc := 4, flow := 0, hops := 0, dst := h.src, src := s.deviceId, counter := 0
      poison := partMask (unitMarks s.mem.gPoison 64 a h.bytes), bytes := h.bytes, status := 0, volatile := false
      resend := false } (loadBytes s.mem.g a h.bytes)
    gaSpace ga = spaceG → s.remoteTarget ga h.bytes 0 = some v → addressFields ga = true →
    s.namesMemory ga h.bytes = true → s.jobOk v h.job = true → s.noShots → s.routePort answer = some q →
    Answers (.readReqServe i) s fun u =>
      u = { s with mem := { s.mem with readReqs := s.mem.readReqs.eraseIdx i } }.sendLink q (s.nextVc answer none)
        (answer.stepHop (s.nextVc answer none))) ∧
  (∀ (i q : Nat) (h : LongHdr) (s : State), s.mem.readReqs[i]? = some (.readReq h) →
    let ga := gaMake s.deviceId 0 0 + h.addr
    let answer : LinkMsg := .readCpl { h with
      vc := 4, flow := 0, hops := 0, dst := h.src, src := s.deviceId, counter := 0, poison := 0, bytes := 0
      status := statusRefused, volatile := false, resend := false } []
    gaSpace ga = spaceG → s.remoteTarget ga h.bytes 0 = none → s.routePort answer = some q →
    Answers (.readReqServe i) s fun u =>
      u = { s with mem := { s.mem with readReqs := s.mem.readReqs.eraseIdx i } }.sendLink q (s.nextVc answer none)
        (answer.stepHop (s.nextVc answer none))) ∧
  (∀ (i e id : Nat) (h : LongHdr) (data : List Nat) (x : Unanswered) (j : CopyJob) (p : Packet) (s : State),
    s.mem.readCpls[i]? = some (.readCpl h data) → h.status = 0 →
    s.mem.unanswered.find? (fun u => u.agent == h.agent && u.pseq == h.pseq) = some x → x.copy = some id →
    x.packet = p.idx → tget 0 s.inj.answerDrop id = 0 → e < 64 →
    s.mem.engines.find? (fun y => y.2.holds id) = some (e, s.engine e) → (s.engine e).running = some j → j.id = id →
    (s.engine e).queue = [] → j.error = 0 → j.req.kind = kindCopy → j.packets = [p] → p.sent = false → p.data = none →
    gaDevice p.dst = s.deviceId → gaDevice j.req.w0 ≠ s.deviceId → s.noShots → Answers (.readCplReceive i) s fun u =>
      u.mem.readCpls = s.mem.readCpls.eraseIdx i ∧ u.mem.unanswered = s.mem.unanswered.erase x ∧
      u.mem.inflight = s.mem.inflight ++ [{
        origin := .engine e id p.idx, kind := .write, dst := p.dst, data := data, poison := h.poison
        counter := j.req.counter, vi := j.vi, job := s.viJob j.vi, hdr := none, waiting := false }] ∧
      (u.engine e).running = some { j with
        packets := [{ p with data := some data, poison := h.poison, pseq := none, sent := true }]
        poison := j.poison || h.poison != 0 } ∧
      (∀ k, k ≠ e → u.engine k = s.engine k) ∧ u = { s with mem := u.mem }) ∧
  (∀ (i : Nat) (h : LongHdr) (data : List Nat) (s : State), s.mem.readCpls[i]? = some (.readCpl h data) →
    s.mem.unanswered.find? (fun u => u.agent == h.agent && u.pseq == h.pseq) = none →
    exec (.readCplReceive i) s = .next { s with mem := { s.mem with readCpls := s.mem.readCpls.eraseIdx i } }) ∧
  (∀ (p : Fin 64) (w : Ingress) (s : State), (s.port p).ingress = [w] → w.own = true → 20000 ≤ s.time.tick - w.since →
    Answers (.routeWaitTimeout p) s fun u =>
      (u.port p).ingress = [] ∧ (u.port p).queues = (s.port p).queues ∧
      u.fld F.CLZ_DROPPED_COUNT p = min (2 ^ 32 - 1) (s.fld F.CLZ_DROPPED_COUNT p + 1) ∧
      u.fld F.CLZ_EVENT_DROP p = 1 ∧ s.portFrame u p ∧ u.ras = s.ras) ∧
  (∀ (p : Fin 64) (s : State), (∀ w, w ∈ (s.port p).ingress → s.time.tick - w.since < 20000) →
    exec (.routeWaitTimeout p) s = .next s) ∧
  (∀ (a : Agent) (p : Fin 64) (w : Fin 16) (x : Nat) (s : State), s.reaches a .CLZ_WIN_CFG p w →
    (s.port p).flows = [] → (s.port p).openWindow = none → s.portWidth p ≠ 0 → Performs (.windowArm a p w x) s fun u =>
      let len := fun o => s.reg .CLZ_WIN_LEN p o * 4 / s.portWidth p
      let off := fun o => s.reg .CLZ_WIN_OFFSET p o
      let fits := s.reg .CLZ_WIN_PERIOD p ≠ 0 ∧ off w + len w ≤ s.reg .CLZ_WIN_PERIOD p ∧ F.CLZ_WIN_CFG_FLOW.of x ≠ 0 ∧
        (∀ o, o < 16 → o ≠ w.val → s.winArmed p o = true → off o + len o ≤ off w ∨ off w + len w ≤ off o) ∧
        ∃ i, (s.port p).peer = some i ∧ bit i.caps 2 = 1
      u.fld F.CLZ_WIN_CFG_ENABLE p w = 1 ∧ u.fld F.CLZ_WIN_CFG_FLOW p w = F.CLZ_WIN_CFG_FLOW.of x ∧
      (fits → u.fld F.CLZ_WIN_CFG_STATE p w = 1 ∧ u.fld F.CLZ_WIN_CFG_REFUSED p w = 0) ∧
      (¬fits → u.fld F.CLZ_WIN_CFG_STATE p w = 0 ∧ u.fld F.CLZ_WIN_CFG_REFUSED p w = 1) ∧
      s.sameRegsBut u [(.CLZ_WIN_CFG, p, w)] ∧ (∀ q, u.port q = s.port q) ∧
      u = { s with clz := { s.clz with ports := u.clz.ports }, regs := u.regs }) ∧
  (∀ (p : Fin 64) (w : Fin 16) (s : State), (s.port p).state = .active → s.winArmed p w = true → s.inSpan p w = true →
    exec (.windowOpen p w) s = .next (s.onPort p fun x => { x with openWindow := some w.val })) ∧
  (∀ (p : Fin 64) (w : Fin 16) (s : State), s.winArmed p w = false ∨ s.inSpan p w = false →
    exec (.windowOpen p w) s = .next s) ∧
  (∀ (p : Fin 64) (w : Nat) (s : State), (s.port p).openWindow = some w → s.inSpan p w = false →
    exec (.windowClose p) s = .next (s.onPort p fun x => { x with openWindow := none })) ∧
  (∀ (p : Fin 64) (w : Nat) (s : State), (s.port p).openWindow = some w → s.inSpan p w = true →
    exec (.windowClose p) s = .next s)

/-- R365, R367, R368, R376 to R378: reading a flit that was written gives its header and its payload, for every value
that the fields admit; reading the slots of a message gives the message, and reading an INIT payload what INIT said.
-/
def Obligations.FlitsRoundTrip : Prop :=
  (∀ (h : FlitHdr) (payload : List Nat), h.fits → payload.length ≤ 240 → (∀ b, b ∈ payload → b < 256) →
    flitHdr? (h.encode payload) = some h ∧ (h.encode payload).length = 256 ∧
      flitPayload (h.encode payload) = payload ++ zeros (240 - payload.length)) ∧
  (∀ (m : LinkMsg), m.fits → LinkMsg.decode m.encode = some m ∧ slotsOf m.encode = m.slots ∧
    16 * m.slots = m.encode.length) ∧
  (∀ (i : InitInfo) (rest : List Nat), i.fits → InitInfo.decode (i.encode ++ rest) = i)

/-! ## The host and management interfaces (16_host_and_management_interfaces.md) -/

/-- R396 to R399, R401, R404 to R407, R409: a BAR4 access that qualifies reads or writes its memory, and any other is
answered as unsupported and logged; the link tells its rate and its loss; VF Enable and function-level resets reset
their virtual interfaces and return their function's controls; a pending MSI-X message goes out when nothing masks it
any more; an ATS invalidation removes the translations it names. -/
def Obligations.HostReaches : Prop :=
  (∀ (v : Fin 256) (off len : Nat) (s : State), s.barOpen v = true → s.bar4Access v off len false = none →
    s.fld F.PCI_BAR_ERR_VALID = 0 → Answers (.bar4Read v off len) s fun u =>
      .bar4Data v none ∈ u.out ∧ u.fld F.PCI_BAR_ERR_VALID = 1 ∧ u.fld F.PCI_BAR_ERR_KIND = 0 ∧
      u.fld F.PCI_BAR_ERR_ACCESS = 2 ∧ u.fld F.PCI_BAR_ERR_VI = v ∧ u.fld F.PCI_EVENT_BAR_ERR = 1 ∧
      (u.host.func v).aerUr = (s.host.func v).aerUr + 1 ∧ (∀ k, k ≠ v.val → u.host.func k = s.host.func k) ∧
      u = { s.raised u with host := u.host }) ∧
  (∀ (v : Fin 256) (off len a : Nat) (s : State), s.barOpen v = true → s.bar4Access v off len false = some (spaceG, a) →
    s.noShots → exec (.bar4Read v off len) s = .next (s.emit (.bar4Data v
      (some (loadBytes s.mem.g a len, (unitMarks s.mem.gPoison 64 a len).any id))))) ∧
  (∀ (v : Fin 256) (off : Nat) (b : List Nat) (ep : Bool) (a : Nat) (s : State), s.barOpen v = true →
    s.bar4Access v off b.length true = some (spaceG, a) → Answers (.bar4Write v off b ep) s fun u =>
      (∀ i, i < b.length → tget 0 u.mem.g (a + i) = BitVec.ofNat 8 (b.getD i 0)) ∧
      (∀ x, x < a ∨ a + b.length ≤ x → tget 0 u.mem.g x = tget 0 s.mem.g x) ∧
      (∀ k, a ≤ 64 * k → 64 * k + 64 ≤ a + b.length → tget false u.mem.gPoison k = ep) ∧
      u = { s with mem := { s.mem with g := u.mem.g, gPoison := u.mem.gPoison } }) ∧
  (∀ (v : Fin 256) (off : Nat) (b : List Nat) (ep : Bool) (s : State), s.barOpen v = true →
    s.bar4Access v off b.length true = none → Answers (.bar4Write v off b ep) s fun u =>
      u.fld F.PCI_EVENT_BAR_ERR = 1 ∧ (u.host.func v).aerUr = (s.host.func v).aerUr + 1 ∧ u.mem = s.mem ∧
      u = { s.raised u with host := u.host }) ∧
  (∀ (v : Fin 256) (off len : Nat) (s : State), s.barOpen v = false → exec (.bar4Read v off len) s = .next s) ∧
  (∀ (rate width : Nat) (flit : Bool) (s : State), s.mayTrain = true → 1 ≤ rate → rate ≤ 5 → width ∈ [1, 2, 4, 8, 16] →
    Answers (.pcieLinkUp rate width flit) s fun u =>
      u.host.linkUp = true ∧ u.fld F.PCI_LINK_RATE = rate ∧ u.fld F.PCI_LINK_WIDTH = width ∧
      u.fld F.PCI_LINK_FLIT = (if flit then 1 else 0) ∧ u.fld F.PCI_EVENT_LINK_CHANGE = 1 ∧
      u = { s.raised u with host := { s.host with linkUp := true, msix := u.host.msix } }) ∧
  (∀ (rate width : Nat) (s : State), s.mayTrain = false ∨ 6 ≤ rate →
    exec (.pcieLinkUp rate width false) s = .next s) ∧
  (∀ s : State, s.host.linkUp = true → Answers .pcieLinkDown s fun u =>
      u.host.linkUp = false ∧ u.fld F.PCI_LINK_RATE = 0 ∧ u.fld F.PCI_LINK_WIDTH = 0 ∧
      u.fld F.PCI_EVENT_LINK_CHANGE = 1 ∧ (s.pwr.pins.perstN = true → u.fld F.PCI_EVENT_LINK_DOWN = 1) ∧
      u = { s.raised u with host := { s.host with linkUp := false, msix := u.host.msix } }) ∧
  (∀ s : State, s.host.linkUp = false → exec .pcieLinkDown s = .next s) ∧
  (∀ (n : Nat) (s : State), s.inService = true → s.host.linkUp = true → s.part.vfEnable = false →
    s.boot.record.state ≠ 0 → n ≤ 255 → exec (.vfEnableSet n) s =
      .next { s with part := { s.part with vfEnable := true, numVfs := n } }) ∧
  (∀ (n : Nat) (s : State), s.boot.record.state = 0 ∨ s.host.linkUp = false → exec (.vfEnableSet n) s = .next s) ∧
  (∀ s : State, s.part.vfEnable = true → s.noArmed → Performs .vfEnableClear s fun u =>
      u.part.vfEnable = false ∧ u.part.numVfs = 0 ∧ u.host.linkUp = s.host.linkUp ∧
      (∀ v, 1 ≤ v → v ≤ s.part.numVfs → u.host.func v = .reset v)) ∧
  (∀ s : State, s.part.vfEnable = false → exec .vfEnableClear s = .next s.settle) ∧
  (∀ (v : Fin 256) (s : State), v.val ≠ 0 → s.viEnabled v = true → s.host.linkUp = true → s.boot.step = 9 →
    s.boot.resets = [] → s.queuesOf v = [] → s.ownAllocs [v.val] = [] → s.vst.pools = [] → s.noArmed →
    Performs (.vfFlr v) s fun u =>
      (∃ r n, u.boot.resets = [r] ∧ r.kind = .interface v ∧ r.vis = [v.val] ∧ r.wipe = some n) ∧ u.adminQ v = .reset ∧
      u.host.func v = .reset v ∧ (∀ k, k ≠ v.val → u.host.func k = s.host.func k) ∧ u.part.vfEnable = s.part.vfEnable) ∧
  (∀ (v : Fin 256) (s : State), v.val = 0 ∨ s.host.linkUp = false → exec (.vfFlr v) s = .next s.settle) ∧
  (∀ s : State, s.host.linkUp = true → s.part.vfEnable = false → s.boot.step = 9 → s.boot.resets = [] →
    s.queuesOf 0 = [] → s.ownAllocs [0] = [] → s.vst.pools = [] → s.noArmed → Performs .pfFlr s fun u =>
      (∃ r n, u.boot.resets = [r] ∧ r.kind = .interface 0 ∧ r.vis = [0] ∧ r.wipe = some n) ∧ u.adminQ 0 = .reset ∧
      u.host.func 0 = .reset 0 ∧ (∀ k, k ≠ 0 → u.host.func k = s.host.func k)) ∧
  (∀ (v : Fin 256) (i pv : Nat) (s : State), s.msixVector v i = some pv → Answers (.msixUnmask v (some i)) s fun u =>
      let e := s.msixEntry pv
      let goes := e.pending = true ∧ (s.host.func v).msixEnable = true ∧ (s.host.func v).funcMask = false
      (goes → u.msixEntry pv = { e with mask := false, pending := false } ∧ u.out = .msix pv e.addr e.data :: s.out) ∧
      (¬goes → u.msixEntry pv = { e with mask := false } ∧ u.out = s.out) ∧
      (∀ k, k ≠ pv → u.msixEntry k = s.msixEntry k) ∧
      u = { s with host := { s.host with msix := u.host.msix }, out := u.out }) ∧
  (∀ (v : Fin 256) (s : State), Answers (.msixUnmask v none) s fun u =>
      u.host.func v = { s.host.func v with msixEnable := true, funcMask := false } ∧
      (∀ k, k ≠ v.val → u.host.func k = s.host.func k)) ∧
  (∀ (v : Fin 256) (pasid : Option Nat) (page pages : Nat) (s : State), s.barOpen v = true →
    Answers (.atsInvalidate v pasid page pages) s fun u =>
      (∀ t, t ∈ u.host.translations ↔ t ∈ s.host.translations ∧
        ¬(t.func = v.val ∧ t.pasid = pasid ∧ page ≤ t.page ∧ t.page < page + pages)) ∧
      u.out = .atsInvalidated v :: s.out ∧
      u = { s with host := { s.host with translations := u.host.translations }, out := u.out })

/-- R412, R413, R415, R416, R419 to R421: management answers what it offers and refuses the rest; an update goes from
request over verify and apply to activation, and refuses a step out of order or a component that does not verify;
flash operations take effect one at a time, a failed one leaving its area as it was; a boundary-scan instruction
selects its register. -/
def Obligations.ManagementAnswers : Prop :=
  (∀ (e : Nat) (s : State), s.mgtUp = true → 8 ≤ e → e < 255 → Answers (.setEndpointId e) s fun u =>
      u.host.eid = some e ∧ u.fld F.MGT_STATUS_EID = e ∧ u.fld F.MGT_STATUS_EID_VALID = 1 ∧ u.fld F.MGT_EVENT_EID_SET = 1 ∧
      .reply (.ok []) ∈ u.out ∧ u = { s.raised u with host := { s.host with eid := some e, msix := u.host.msix } }) ∧
  (∀ (e : Nat) (s : State), s.mgtUp = true → e < 8 ∨ 255 ≤ e →
    exec (.setEndpointId e) s = .next (s.emit (.reply .wrongState))) ∧
  (∀ (typ pldm : Nat) (s : State), s.mgtUp = true → exec (.mctpControlMessage typ pldm) s =
    .next (s.emit (.reply (if typ = 0 ∨ typ = 0x7E ∨ typ = 1 ∧ pldm ∈ [0, 2, 4, 5] then .ok [] else .unsupported)))) ∧
  (∀ (id : Nat) (s : State), s.mgtUp = true → exec (.getSensorReading id) s =
    .next (s.emit (.reply (if id = 0 ∨ 27 < id then .unsupported else (s.sensor id).elim .unavailable .ok)))) ∧
  (∀ (id : Nat) (s : State), s.mgtUp = false → exec (.getSensorReading id) s = .next s) ∧
  (∀ s : State, s.mgtUp = true → ∃ c, (c = 0 ∨ c = 1) ∧ (c = 0 ↔ s.order = .l) ∧ exec .fruDataRead s =
    .next (s.emit (.reply (.ok ([c, 0xB0] ++ toBytes 8 s.boot.serial.toNat))))) ∧
  (∀ s : State, s.mgtUp = true → s.host.update = 0 → Answers .requestUpdate s fun u =>
      u.fld F.MGT_STATUS_UPDATE = 1 ∧ u.out = .reply (.ok []) :: s.out ∧ s.sameRegsBut u [(.MGT_STATUS, 0, 0)] ∧
      u = { s with host := { s.host with component := none, applied := [], update := 1 }, regs := u.regs, out := u.out }) ∧
  (∀ s : State, s.mgtUp = true → s.host.update ≠ 0 →
    exec .requestUpdate s = .next (s.emit (.reply .alreadyUpdating))) ∧
  (∀ (c : Payload) (s : State), s.mgtUp = true → s.host.update = 1 ∨ s.host.update = 2 → s.host.component = none →
    Answers (.firmwareComponentVerify c) s fun u =>
      (c.signed = true → s.svnOk c = true → u.host.component = some c ∧ u.fld F.MGT_STATUS_UPDATE = 4 ∧
        .reply (.ok []) ∈ u.out) ∧
      (c.signed = false → u.fld F.MGT_EVENT_VERIFY_FAIL = 1) ∧
      (¬(c.signed = true ∧ s.svnOk c = true) → u.host.component = none ∧ u.fld F.MGT_STATUS_UPDATE = 2 ∧
        .reply .verifyFailed ∈ u.out) ∧
      u = { s.raised u with host := { s.host with
        component := u.host.component, update := u.host.update, msix := u.host.msix } }) ∧
  (∀ (c : Payload) (s : State), s.mgtUp = true → s.host.update = 0 →
    exec (.firmwareComponentVerify c) s = .next (s.emit (.reply .wrongState))) ∧
  (∀ (x : Image) (s : State), s.host.component = some (.pmc x) → s.host.update = 4 →
    Answers .firmwareComponentApply s fun u =>
      u.host.flashQueue = s.host.flashQueue ++ [.component (.pmc x) (1 - s.boot.directory.pmcActive)] ∧
      u.fld F.MGT_STATUS_UPDATE = 5 ∧ s.sameRegsBut u [(.MGT_STATUS, 0, 0)] ∧
      u = { s with host := { s.host with flashQueue := u.host.flashQueue, update := 5 }, regs := u.regs }) ∧
  (∀ s : State, s.mgtUp = true → s.host.component = none →
    exec .firmwareComponentApply s = .next (s.emit (.reply .wrongState))) ∧
  (∀ s : State, s.mgtUp = true → s.host.update = 2 → s.host.component = none → Answers .activateFirmware s fun u =>
      let l := s.host.applied
      (1 ∈ l → u.boot.directory.pmcPending = some (1 - s.boot.directory.pmcActive)) ∧
      (2 ∈ l → u.boot.directory.hallPending = some (1 - s.boot.directory.hallActive)) ∧
      (1 ∉ l → 2 ∉ l → u.boot = s.boot) ∧ u.fld F.MGT_EVENT_UPDATE_DONE = 1 ∧ u.host.update = 0 ∧ u.host.applied = [] ∧
      .reply (.ok [if 1 ∈ l ∨ 2 ∈ l ∨ 6 ∈ l then 1 else 0]) ∈ u.out ∧
      u = { s.raised u with boot := u.boot, host := { s.host with applied := [], update := 0, msix := u.host.msix } }) ∧
  (∀ (x : Image) (bank : Nat) (s : State), s.host.flashQueue = [.component (.pmc x) bank] → s.updateMayWrite = true →
    Performs (.flashOperation true) s fun u =>
      tget none u.boot.pmcBanks bank = some x ∧ (∀ k, k ≠ bank → tget none u.boot.pmcBanks k = tget none s.boot.pmcBanks k) ∧
      u.host.flashQueue = [] ∧ u.host.component = none ∧ u.host.applied = s.host.applied ++ [1] ∧
      u.fld F.MGT_STATUS_UPDATE = 2 ∧ .reply (.ok []) ∈ u.out ∧ s.sameRegsBut u [(.MGT_STATUS, 0, 0)]) ∧
  (∀ (i x : Nat) (rest : List FlashOp) (s : State), s.host.flashQueue = .retiredPage false i x :: rest →
    Performs (.flashOperation true) s fun u =>
      tget none u.host.pagesA i = some x ∧ (∀ k, k ≠ i → tget none u.host.pagesA k = tget none s.host.pagesA k) ∧
      u = { s with host := { s.host with flashQueue := rest, pagesA := u.host.pagesA } }) ∧
  (∀ (x : Image) (bank : Nat) (s : State), s.host.flashQueue = [.component (.pmc x) bank] → s.updateMayWrite = true →
    Performs (.flashOperation false) s fun u =>
      u.boot = s.boot ∧ u.host.flashQueue = [] ∧ u.fld F.MGT_EVENT_FLASH_ERR = 1 ∧ u.fld F.MGT_STATUS_UPDATE = 2) ∧
  (∀ (ok : Bool) (s : State), s.host.flashQueue = [] → exec (.flashOperation ok) s = .next s.settle) ∧
  (∀ s : State, ∃ id, id % 2 = 1 ∧ id / 2 ^ 28 = 1 ∧ id / 2 ^ 12 % 2 ^ 16 = (if s.order = .l then 0x5A10 else 0x5A11) ∧
    exec .idcode s = .next (({ s with host := { s.host with jtag := .idcode } } : State).emit (.tdo id))) ∧
  (∀ (x : Nat) (s : State), ∃ pins, exec (.samplePreload x) s =
    .next (({ s with host := { s.host with jtag := .sample, boundary := x }, drawn := s.drawn + 1 } : State).emit
      (.tdo pins))) ∧
  (∀ s : State, exec .extest s = .next { s with host := { s.host with jtag := .extest } }) ∧
  (∀ s : State, exec .clamp s = .next { s with host := { s.host with jtag := .clamp } }) ∧
  (∀ s : State, exec .highz s = .next { s with host := { s.host with jtag := .highz } }) ∧
  (∀ s : State, exec .ijtagSel s = .next { s with host := { s.host with jtag := .ijtag } }) ∧
  (∀ s : State, exec .bypass s = .next { s with host := { s.host with jtag := .bypass } })

/-! ## Faults and retirement (17_faults_and_retirement.md) -/

/-- R425, R426, R429, R441 to R445: a detector event grows its channel's bucket by its weight and writes a record; a
bucket that reaches its limit owes the channel's retirement where AUTO is on and tells LIMIT else; every LEAK_MS all
buckets of a kind fall by 1. A hard signature owes a retirement at once. The oldest record goes to the next slot of
the store; RAS_REC_CMD reads one back; RAS_RETIRE owes the retirement of a working channel and answers for any other.
-/
def Obligations.DetectorsCharge : Prop :=
  (∀ (kind : Fin 9) (s : State), s.reg .RAS_THRESH_C 0 kind ≠ 0 →
    s.reg .RAS_THRESH_C 0 kind * 1000000 ≤ s.time.tick - tget 0 s.ras.leakAt kind → Answers (.bucketLeak kind) s fun u =>
      (∀ i, i < kindCount kind → u.fld F.RAS_BUCKET_LEVEL 0 (channelId kind i) =
        s.fld F.RAS_BUCKET_LEVEL 0 (channelId kind i) - 1) ∧
      (∀ ch, ch < 65536 → (∀ i, i < kindCount kind → ch ≠ channelId kind i) →
        u.reg .RAS_BUCKET 0 ch = s.reg .RAS_BUCKET 0 ch) ∧
      u = { s with regs := u.regs, ras := { s.ras with leakAt := tset 0 s.ras.leakAt kind s.time.tick } }) ∧
  (∀ (kind : Fin 9) (s : State), s.time.tick - tget 0 s.ras.leakAt kind < s.reg .RAS_THRESH_C 0 kind * 1000000 →
    exec (.bucketLeak kind) s = .next s) ∧
  (∀ (lane : Fin 288) (s : State), s.retired (channelId 7 lane) = false → s.ras.folds = [] →
    Answers (.bridgeFlitCrcError lane) s fun u =>
      let ch := channelId 7 lane
      let w := s.fld F.RAS_THRESH_B_W_TUE 0 7
      let reached := s.fld F.RAS_BUCKET_LEVEL 0 ch < s.limit 7 ∧ s.limit 7 ≤ min 0xFFFF (s.fld F.RAS_BUCKET_LEVEL 0 ch + w)
      let auto := s.fld F.RAS_THRESH_B_FLAGS 0 7 % 2 = 1 ∧ s.fld F.RAS_CTRL_HOLD = 0 ∧ s.boot.record.state ≠ 3
      s.charged u ch kindTransient 0x06 w ∧ (reached → auto → ∃ o, o ∈ u.ras.owed ∧ o.channel = ch) ∧
      (reached → ¬auto → u.fld F.RAS_EVENT_LIMIT = 1) ∧ ((¬reached ∨ ¬auto) → u.ras.owed = s.ras.owed) ∧
      u = { s.raised u with ras := u.ras }) ∧
  (∀ (lane : Fin 288) (relocked : Bool) (s : State), s.retired (channelId 7 lane) = false → s.ras.folds = [] →
    Performs (.bridgeLaneLockLoss lane relocked) s fun u =>
      s.charged u (channelId 7 lane) kindPermanent 0x07 (s.fld F.RAS_THRESH_B_W_PUE 0 7) ∧
      (relocked = false → ∃ o, o ∈ u.ras.owed ∧ o.channel = channelId 7 lane ∧ o.hard = true) ∧
      u = { s.raised u with ras := u.ras }) ∧
  (∀ (n : Fin 256) (s : State), s.retired (channelId 4 n) = false → Performs (.alcoveIslandSilent n) s fun u =>
      (∃ o, o ∈ u.ras.owed ∧ o.channel = channelId 4 n ∧ o.hard = true ∧ o.detector = 0x0F) ∧
      u = { s with ras := { s.ras with owed := u.ras.owed } }) ∧
  (∀ (n : Fin 256) (s : State), s.retired (channelId 4 n) = true →
    exec (.alcoveIslandSilent n) s = .next s.settle) ∧
  (∀ (r : RasRecord) (rest : List RasRecord) (s : State), s.ras.unstored = r :: rest → s.ras.nextSlot < storeSlots →
    (∀ x, tget none s.ras.store s.ras.nextSlot = some x → x.kind ≠ kindRetired) → Answers .rasRecordStore s fun u =>
      u.ras = { s.ras with
        unstored := rest, store := u.ras.store, nextSlot := (s.ras.nextSlot + 1) % storeSlots } ∧
      tget none u.ras.store s.ras.nextSlot = some r ∧
      (∀ i, i ≠ s.ras.nextSlot → tget none u.ras.store i = tget none s.ras.store i) ∧
      (tget none s.ras.store s.ras.nextSlot ≠ none → u.fld F.RAS_EVENT_STORE_WRAP = 1) ∧
      (s.fld F.RAS_CTRL_PLDM_EN = 1 → .platformEvent (r.cper s.order) ∈ u.out) ∧ u = { s.raised u with ras := u.ras }) ∧
  (∀ s : State, s.ras.unstored = [] → exec .rasRecordStore s = .next s) ∧
  (∀ (a : Agent) (id : Nat) (r : RasRecord) (s : State), s.reaches a .RAS_REC_CMD → s.quiet → 0 < id → id < 2 ^ 32 →
    (s.ras.store.filterMap (·.2)).find? (fun x => x.recordId == id) = some r →
    Answers (.rasRecCmdWrite a id) s fun u =>
      (∀ w, w < 24 → u.reg .RAS_REC_DATA 0 w = field r.section (4 * w) 4 % 2 ^ 32) ∧ u.fld F.RAS_REC_STATUS_RESULT = 0 ∧
      u = { s with regs := u.regs }) ∧
  (∀ (a : Agent) (id : Nat) (s : State), s.reaches a .RAS_REC_CMD → s.quiet → 0 < id → id < 2 ^ 32 →
    (s.ras.store.filterMap (·.2)).find? (fun x => x.recordId == id) = none →
    Answers (.rasRecCmdWrite a id) s fun u =>
      u.fld F.RAS_REC_STATUS_RESULT = 1 ∧ (∀ w, w < 24 → u.reg .RAS_REC_DATA 0 w = s.reg .RAS_REC_DATA 0 w) ∧
      u = { s with regs := u.regs }) ∧
  (∀ (a : Agent) (x : Nat) (s : State), s.reaches a .RAS_RETIRE → s.quiet → x < 2 ^ 32 →
    Answers (.rasRetireWrite a x) s fun u =>
      let ch := F.RAS_RETIRE_CHANNEL.of x
      (isChannel ch = false → u.fld F.RAS_RETIRE_STATUS_RESULT = 1 ∧ u.ras = s.ras) ∧
      (isChannel ch = true → s.retired ch = true → u.fld F.RAS_RETIRE_STATUS_RESULT = 2 ∧ u.ras = s.ras) ∧
      (isChannel ch = true → s.retired ch = false → u.fld F.RAS_RETIRE_STATUS_RESULT = 0 ∧
        u.fld F.RAS_RETIRE_STATUS_BUSY = 1 ∧ ∃ o, o ∈ u.ras.owed ∧ o.channel = ch) ∧
      u = { s with regs := u.regs, ras := { s.ras with owed := u.ras.owed } })

/-- R434 to R438, R487: a retirement that is owed is carried out: the channel's bucket and the list name it, a record
tells it and what it served stops. A port is retired, an HBM channel carries nothing more, an alcove stops, a copy
engine without work stands empty, and a channel that nothing is owed stays as it is. -/
def Obligations.ChannelsRetire : Prop :=
  (∀ (ch : Fin 65536) (s : State), (∀ o, o ∈ s.ras.owed → o.channel ≠ ch.val) →
    exec (.channelRetire ch) s = .next s.settle) ∧
  (∀ (p : Fin 64) (o : OwedRetire) (ch : Fin 65536) (s : State), ch.val = channelId 1 p →
    s.ras.owed.find? (fun y => y.channel == ch.val) = some o → s.retired ch = false → s.boot.retireA.length < 1024 →
    s.noArmed → s.noWaiting → (List.range 16).all (fun w => !s.winArmed p w) → (s.port p).queues = [] →
    (s.port p).flows = [] → (s.port p).state ≠ .retired → Performs (.channelRetire ch) s fun u =>
      s.retiredNow u ch ∧ (u.port p).state = .retired ∧ (u.port p).unacked = [] ∧ (∀ q, q ≠ p.val → u.port q = s.port q) ∧
      u.alcoves = s.alcoves ∧ u.hbm = s.hbm) ∧
  (∀ (c : Fin 256) (o : OwedRetire) (ch : Fin 65536) (s : State), ch.val = channelId 3 c →
    s.ras.owed.find? (fun y => y.channel == ch.val) = some o → s.retired ch = false → s.boot.retireA.length < 1024 →
    s.noArmed → s.part.regions = [] → s.fld F.TGEN_STATUS_STATE c ≠ 1 → Performs (.channelRetire ch) s fun u =>
      s.retiredNow u ch ∧ (u.channel c).state = .retired ∧ (u.channel c).pc0Retired = true ∧
      (u.channel c).pc1Retired = true ∧ (∀ k, k ∈ u.hbm.writebacks ↔ k ∈ s.hbm.writebacks ∧ keyChan k ≠ c.val) ∧
      (∀ d, d ≠ c.val → u.channel d = s.channel d) ∧ u.hbm.cells = s.hbm.cells ∧ u.alcoves = s.alcoves ∧ u.clz = s.clz) ∧
  (∀ (n : Fin 256) (o : OwedRetire) (ch : Fin 65536) (s : State), ch.val = channelId 4 n →
    s.ras.owed.find? (fun y => y.channel == ch.val) = some o → s.retired ch = false → s.boot.retireA.length < 1024 →
    s.noArmed → s.noScan → (s.alcove n).grant = none → Performs (.channelRetire ch) s fun u =>
      s.retiredNow u ch ∧ (u.alcove n).core.state = .retired ∧ (u.alcove n).streams = [] ∧ (u.alcove n).held = [] ∧
      (u.alcove n).store = (s.alcove n).store ∧ (∀ m, m ≠ n.val → u.alcove m = s.alcove m) ∧ u.hbm = s.hbm ∧
      u.clz = s.clz) ∧
  (∀ (n : Fin 256) (k : Nat) (o : OwedRetire) (ch : Fin 65536) (s : State), k < 4 → ch.val = channelId 5 (4 * n + k) →
    s.ras.owed.find? (fun y => y.channel == ch.val) = some o → s.retired ch = false →
    s.retired (channelId 4 n) = false → s.boot.retireA.length < 1023 →
    s.noArmed → s.noScan → (s.alcove n).grant = none → Performs (.channelRetire ch) s fun u =>
      s.retiredNow u ch ∧ u.retired (channelId 4 n) = true ∧ channelId 4 n ∈ u.boot.retireA ∧
      (u.alcove n).core.state = .retired ∧ (∀ m, m ≠ n.val → u.alcove m = s.alcove m)) ∧
  (∀ (e : Fin 64) (o : OwedRetire) (ch : Fin 65536) (s : State), ch.val = channelId 6 e →
    s.ras.owed.find? (fun y => y.channel == ch.val) = some o → s.retired ch = false → s.boot.retireA.length < 1024 →
    s.noArmed → s.noScan → s.noShots → s.engine e = .reset → (∀ x, x < 64 → (s.engine x).queue = []) →
    Performs (.channelRetire ch) s fun u =>
      s.retiredNow u ch ∧ u.engine e = { CopyEngine.reset with retired := true } ∧
      (∀ x, x ≠ e.val → u.engine x = s.engine x) ∧ u.alcoves = s.alcoves ∧ u.clz = s.clz)

/-- R188, R432, R433: a message without an answer for 25 µs is sent again, marked RESEND and with no hops, and
counted; 200 µs after its first resend its copy fails with a record and a logged error. A receipt entry that received
nothing for 512 µs is released. -/
def Obligations.RemoteRetries : Prop :=
  (∀ (i q : Nat) (x : Unanswered) (s : State), s.mem.unanswered[i]? = some x → 25000 ≤ s.time.tick - x.lastSend →
    (∀ t, x.firstResend = some t → s.time.tick - t < 200000) → x.agent < 64 →
    s.routePort (x.msg.setHdr fun h => { h with resend := true, hops := 0 }) = some q → x.msg.flow = 0 →
    (x.msg.setHdr fun h => { h with resend := true, hops := 0 }).hops < 63 → Answers (.remoteResend i) s fun u =>
      let m := x.msg.setHdr fun h => { h with resend := true, hops := 0 }
      let vc := s.nextVc m none
      u.mem.unanswered = s.mem.unanswered.set i
        { x with lastSend := s.time.tick, firstResend := x.firstResend.or (some s.time.tick) } ∧
      u.port q = { s.port q with queues := tset [] (s.port q).queues vc (tget [] (s.port q).queues vc ++ [m.stepHop vc]) } ∧
      (∀ p, p ≠ q → u.port p = s.port p) ∧
      u.fld F.CE_RETRY_COUNT_COUNT x.agent = min F.CE_RETRY_COUNT_COUNT.max (s.fld F.CE_RETRY_COUNT_COUNT x.agent + 1) ∧
      s.sameRegsBut u [(.CE_RETRY_COUNT, x.agent, 0)] ∧
      u = { s with regs := u.regs, clz := { s.clz with ports := u.clz.ports },
                   mem := { s.mem with unanswered := u.mem.unanswered } }) ∧
  (∀ (i : Nat) (x : Unanswered) (s : State), s.mem.unanswered[i]? = some x → s.time.tick - x.lastSend < 25000 →
    exec (.remoteResend i) s = .next s) ∧
  (∀ (i e id n tag t : Nat) (x : Unanswered) (j : CopyJob) (s : State), s.mem.unanswered[i]? = some x →
    x.firstResend = some t → 200000 ≤ s.time.tick - t → x.copy = some id →
    s.mem.engines.find? (fun y => y.2.holds id) = some (e, s.engine e) → (s.engine e).running = some j → j.id = id →
    e < 64 → j.origin = .alcove n tag → (s.alcove n).grant = none → tget 0 s.inj.answerDrop id = 0 →
    s.fld F.CE_ERROR_VALID e = 0 → Answers (.remoteGiveUp i) s fun u =>
      (∀ y, y ∈ u.mem.unanswered ↔ y ∈ s.mem.unanswered ∧ y.copy ≠ some id) ∧ (u.engine e).running = none ∧
      (∀ k, k ≠ e → u.engine k = s.engine k) ∧ u.fld F.CE_ERROR_VALID e = 1 ∧ u.fld F.CE_ERROR_CODE e = 4 ∧
      u.fld F.CE_ERROR_TAG e = tag % 2 ^ 16 ∧
      (∃ r, r ∈ u.ras.unstored ∧ r.kind = kindRetryExhausted ∧ r.detector = 0x12 ∧ r.channel = channelId 6 e ∧
        r.recordId = nextRecordId s.ras.lastId) ∧
      (u.alcove n).copies = (s.alcove n).copies.filter (fun c => c.copy != id) ∧
      u = { s.raised u with mem := u.mem, ras := u.ras, inj := u.inj, alcoves := u.alcoves }) ∧
  (∀ (i : Nat) (x : Unanswered) (s : State), s.mem.unanswered[i]? = some x →
    (∀ t, x.firstResend = some t → s.time.tick - t < 200000) → exec (.remoteGiveUp i) s = .next s) ∧
  (∀ (h : Fin 8) (i : Nat) (f : FilterEntry) (s : State), (s.filter h)[i]? = some f → 512000 ≤ s.time.tick - f.lastTick →
    Answers (.receiptEntryRelease h i) s fun u =>
      u.filter h = (s.filter h).eraseIdx i ∧ (∀ k, k ≠ h.val → u.filter k = s.filter k) ∧
      u.mem = { s.mem with inflight := s.mem.inflight.map fun g => { g with waiting := false } } ∧
      u.fld F.RAS_RCPT_USED 0 h = ((s.filter h).length - 1) % (F.RAS_RCPT_USED.max + 1) ∧
      s.sameRegsBut u [(.RAS_RCPT, 0, h)] ∧ u = { s with regs := u.regs, mem := u.mem, ras := u.ras }) ∧
  (∀ (h : Fin 8) (i : Nat) (f : FilterEntry) (s : State), (s.filter h)[i]? = some f → s.time.tick - f.lastTick < 512000 →
    exec (.receiptEntryRelease h i) s = .next s)

/-! ## Silent-error defence and error injection (18_silent_error_defence.md, 19_error_injection.md) -/

/-- R452, R453: after 50 µs a self-test that passes makes the shadow idle with its planes and tiles zeroed, and
confirms the mismatch it judged; one that fails disables the shadow, writes its record and charges no channel. The
timer and a write of SELFTEST begin one. -/
def Obligations.ShadowSelfTest : Prop :=
  (∀ (h : Fin 8) (step : Nat) (s : State), (s.shadowOf h).state = .selfTest →
    50000 ≤ s.time.tick - (s.shadowOf h).began → s.noShots → (s.shadowOf h).judging = false →
    Performs (.shadowSelftestComplete h true step) s fun u =>
      u.shadowOf h = { (s.shadowOf h).cleared .idle with tested := s.time.tick } ∧
      (∀ k, k ≠ h.val → u.shadowOf k = s.shadowOf k) ∧ u = { s with sdc := u.sdc }) ∧
  (∀ (h : Fin 8) (step : Nat) (s : State), (s.shadowOf h).state = .selfTest →
    50000 ≤ s.time.tick - (s.shadowOf h).began → s.noShots →
    Performs (.shadowSelftestComplete h false step) s fun u =>
      u.shadowOf h = { (s.shadowOf h).cleared .disabled with tested := s.time.tick } ∧
      u.fld F.SDC_EVENT_SHADOW_FAULT 0 h = 1 ∧
      (∃ r, u.ras.unstored = s.ras.unstored ++ [r] ∧ r.kind = kindShadowFault ∧ r.location = [h.val] ∧
        r.channel = 0xFFFF) ∧
      (∀ ch, u.fld F.RAS_BUCKET_LEVEL 0 ch = s.fld F.RAS_BUCKET_LEVEL 0 ch) ∧
      u = { s.raised u with sdc := u.sdc, ras := u.ras }) ∧
  (∀ (h : Fin 8) (step : Nat) (d : ShadowDiff) (s : State), (s.shadowOf h).state = .selfTest →
    50000 ≤ s.time.tick - (s.shadowOf h).began → s.noShots → (s.shadowOf h).judging = true →
    (s.shadowOf h).diff = some d → (s.shadowOf h).checksums = [] →
    Performs (.shadowSelftestComplete h true step) s fun u =>
      u.shadowOf h = { (s.shadowOf h).cleared .idle with tested := s.time.tick } ∧
      u.fld F.SDC_EVENT_SHADOW_MISMATCH 0 h = 1 ∧
      u.fld F.SDC_SH_EVENTS_MISMATCHES 0 h = min 0xFFFF (s.fld F.SDC_SH_EVENTS_MISMATCHES 0 h + 1) ∧
      u = { s.raised u with sdc := u.sdc, ras := u.ras, vst := u.vst }) ∧
  (∀ (h : Fin 8) (s : State), (s.shadowOf h).state = .idle → s.scanOf h = none →
    0 < s.fld F.SDC_SH_CTRL_SELFTEST_MS 0 h →
    s.fld F.SDC_SH_CTRL_SELFTEST_MS 0 h * 1000000 ≤ s.time.tick - (s.shadowOf h).tested →
    Answers (.shadowSelftestTimer h) s fun u =>
      u.shadowOf h = { s.shadowOf h with state := .selfTest, judging := false, began := s.time.tick } ∧
      (∀ k, k ≠ h.val → u.shadowOf k = s.shadowOf k) ∧ u = { s with sdc := u.sdc })

/-- R454, R455: a round starts on the next set of the list once its time has come, and takes its chunks one by one.
R447, R457: a target whose signatures all match passes; a failing domain brings a retest with the same set; a retest
that passes is a transient failure, and one that fails a hard signature of each failing domain's channel. R459, R460,
R461: a verified pack that no slot holds goes into the lowest empty slot; one that can be neither placed nor withdrawn
is refused and leaves the slots as they were; a scan-area image replaces the base sets; an evaluation takes the least
of the rates asked for. -/
def Obligations.ScansAndPacks : Prop :=
  ((∀ (t key : Nat) (x : ScanSet) (slot : Option Nat) (s : State), s.inService = true → s.fld F.SDC_CTRL_SCAN_EN = 1 →
    s.openRound = none → s.sdc.lastRound = some t → s.sdc.lastSet = none → s.setList.head? = some (key, x, slot) →
    max 40 (s.fld F.SDC_CTRL_ROUND_MS) * 1000000 ≤ s.time.tick - t → Answers .scanRoundStart s fun u =>
      u.sdc.round = some { key := key, set := x, slot := slot, since := s.time.tick, chunks := 0 } ∧
      u.sdc.lastRound = some s.time.tick ∧ u.sdc.lastSet = some key ∧ u.regs = s.regs ∧ u.hbm = s.hbm ∧ u.ras = s.ras) ∧
  (∀ (r : Round) (s : State), s.openRound = some r → r.chunks < r.set.chunks → s.ras.unstored = [] →
    s.host.flashQueue = [] → Answers .scanChunkDeliver s fun u =>
      u.sdc.round = some { r with chunks := r.chunks + 1 } ∧ u = { s with sdc := u.sdc }) ∧
  (∀ (t : Nat) (s : State), s.sdc.lastRound = some t → s.time.tick - t < 40000000 → exec .scanRoundStart s = .next s)) ∧
  ((∀ (h : Fin 8) (r : Round) (x : ScanRun) (s : State), s.openRound = some r → s.scanOf h = some x → x.retest = none →
    r.set.chunks ≤ r.chunks → s.noShots → Answers (.scanRoundEnd h 0) s fun u =>
      u.scanOf h = none ∧ u.fld F.SDC_SCAN_PASS_COUNT = (s.fld F.SDC_SCAN_PASS_COUNT + 1) % 2 ^ 32 ∧
      s.sameRegsBut u [(.SDC_SCAN_PASS, 0, 0)] ∧
      u = { s with regs := u.regs, sdc := u.sdc, alcoves := u.alcoves, vst := u.vst }) ∧
  (∀ (h : Fin 8) (mask : Nat) (r : Round) (x : ScanRun) (s : State), s.openRound = some r → s.scanOf h = some x →
    x.retest = none → r.set.chunks ≤ r.chunks → s.noShots → mask &&& scanDomains x.target ≠ 0 →
    Answers (.scanRoundEnd h mask) s fun u =>
      u.scanOf h = some { x with retest := some (mask &&& scanDomains x.target), forced := 0, mark := .natural } ∧
      (∀ k, k ≠ h.val → u.scanOf k = s.scanOf k) ∧ u = { s with sdc := u.sdc }) ∧
  (∀ (h : Fin 8) (pattern diff first : Nat) (r : Round) (x : ScanRun) (s : State), s.openRound = some r →
    s.scanOf h = some x → x.retest = some first → x.forced = 0 → Performs (.scanRetestEnd h 0 pattern diff) s fun u =>
      u.scanOf h = none ∧ u.fld F.SDC_SCAN_PASS_COUNT = (s.fld F.SDC_SCAN_PASS_COUNT + 1) % 2 ^ 32 ∧
      u.fld F.SDC_SCAN_FAIL_TRANSIENT = min 0xFFFF (s.fld F.SDC_SCAN_FAIL_TRANSIENT + 1) ∧
      u.fld F.SDC_SCAN_FAIL_RETIRED = s.fld F.SDC_SCAN_FAIL_RETIRED ∧ u.fld F.SDC_EVENT_SCAN_FAIL 0 h = 1 ∧
      u = { s.raised u with sdc := u.sdc, ras := u.ras, alcoves := u.alcoves, vst := u.vst }) ∧
  (∀ (h : Fin 8) (mask pattern diff first : Nat) (r : Round) (x : ScanRun) (s : State), s.openRound = some r →
    s.scanOf h = some x → x.retest = some first → x.target ≠ 0xFFFF → x.mark.nocharge = false →
    mask &&& scanDomains x.target ≠ 0 → Performs (.scanRetestEnd h mask pattern diff) s fun u =>
      u.scanOf h = none ∧ u.fld F.SDC_SCAN_FAIL_RETIRED = min 0xFFFF (s.fld F.SDC_SCAN_FAIL_RETIRED + 1) ∧
      (∀ d, d < 8 → bit (mask &&& scanDomains x.target) d = 1 → s.retired (domainChannel x.target d) = false →
        ∃ y ∈ u.ras.owed, y.channel = domainChannel x.target d ∧ y.hard = true) ∧
      u.fld F.SDC_EVENT_SCAN_FAIL 0 h = 1 ∧
      u = { s.raised u with sdc := u.sdc, ras := u.ras, alcoves := u.alcoves, vst := u.vst }) ∧
  (∀ (a : Agent) (h : Fin 8) (v : Nat) (s : State), s.reaches a .SDC_SH_CTRL h → s.quiet →
    (s.shadowOf h).state = .idle → s.scanOf h = none → Answers (.sdcSelftestWrite a h v) s fun u =>
      u.shadowOf h = { s.shadowOf h with state := .selfTest, judging := false, began := s.time.tick } ∧
      s.sameRegsBut u [(.SDC_SH_CTRL, h, 0)] ∧ u = { s with regs := u.regs, sdc := u.sdc })) ∧
  ((∀ (x : ScanSet) (k : Nat) (s : State), s.host.component = some (.pack x) → s.host.update = 5 → x.legal = true →
    x.packId ≠ 0 → x.bytes ≤ 2 ^ 20 → x.withdraw = false → k < 16 → s.pack k = none →
    (∀ j, j < k → s.pack j ≠ none) → (∀ j, j < 16 → ∀ p, s.pack j = some p → p.set.packId ≠ x.packId) →
    s.openRound = none → s.updateMayWrite = true → Answers .packInstall s fun u =>
      u.pack k = some { set := x, ms := 0, expired := false } ∧ (∀ j, j ≠ k → u.pack j = s.pack j) ∧
      u.fld F.SDC_EVENT_PACK_CHANGE = 1 ∧ u.host.component = none ∧ u.host.update = 2 ∧
      (∃ r, u.ras.unstored = s.ras.unstored ++ [r] ∧ r.kind = kindPack ∧ r.location = [k, 0]) ∧
      u = { s.raised u with sdc := u.sdc, ras := u.ras, host := u.host }) ∧
  (∀ (x : ScanSet) (s : State), s.host.component = some (.pack x) → s.host.update = 5 → s.packPlace x = none →
    Answers .packInstall s fun u =>
      u.sdc = s.sdc ∧ u.fld F.SDC_EVENT_PACK_CHANGE = 1 ∧ u.host.component = none ∧
      .reply .incompatible ∈ u.out ∧
      (∃ r, u.ras.unstored = s.ras.unstored ++ [r] ∧ r.kind = kindPack ∧ r.location = [0xFF, 3]) ∧
      u = { s.raised u with ras := u.ras, host := u.host }) ∧
  (∀ (l : List ScanSet) (b : Bool) (s : State), s.host.component = some (.scan l b) → s.host.update = 5 →
    l.length ≤ 8 → (∀ x ∈ l, x.legalBase = true) → (l.map (·.bytes)).sum ≤ 2 ^ 24 → s.openRound = none →
    s.updateMayWrite = true → Answers .scanAreaUpdate s fun u =>
      u.sdc.base = l ∧ u.sdc.packs = s.sdc.packs ∧ u.host.component = none ∧
      u = { s with sdc := u.sdc, host := u.host, regs := u.regs, out := u.out }) ∧
  (∀ (s : State), (∀ k, k < 16 → s.pack k = none) → Answers .focusPackEvaluate s fun u =>
      (∀ h, h < 8 → u.sampleRate h = min 24 (s.fld F.SDC_SH_CTRL_RATE 0 h) ∧ u.forcedFormats h = 0) ∧
      u = { s with sdc := u.sdc }) ∧
  (∀ (k : Nat) (p : Pack) (s : State), k < 16 → s.pack k = some p → p.expired = false → p.set.focus = true →
    p.set.fld 0x1C 4 ≠ 0 → p.set.fld 0x1C 4 * 3600000 ≤ p.ms + 1 → (∀ j, j < 16 → j ≠ k → s.pack j = none) →
    Answers .focusPackEvaluate s fun u =>
      u.pack k = some { p with ms := p.ms + 1, expired := true } ∧
      (∀ h, h < 8 → u.sampleRate h = min 24 (s.fld F.SDC_SH_CTRL_RATE 0 h))))

/-- R464 to R469: writing ARM 1 checks the injector: one that fails its checks is REFUSED and idle, one that passes is
ARMED with its counts cleared and its first arming point at START, or with a shot due at once when START has passed.
Writing ARM 0 disarms it. At each arming point a shot falls due, one still due is counted as missed, and the service-
timer row acts at the point itself and is DONE. -/
def Obligations.InjectorsArm : Prop :=
  (∀ (a : Agent) (i : Fin 16) (x : Nat) (s : State), s.reaches a .INJ_CTRL i → x < 2 ^ 32 →
    atArming (F.INJ_CTRL_DETECTOR.of x) (F.INJ_CTRL_STORE.of x == 1) = false → Performs (.injArmWrite a i x) s fun u =>
      let now := s.now (u.injIsland (F.INJ_CTRL_DETECTOR.of x) (s.fld F.INJ_TARGET_TARGET i))
      u.fld F.INJ_CTRL_ARM i = 1 ∧ u.fld F.INJ_CTRL_DETECTOR i = F.INJ_CTRL_DETECTOR.of x ∧
      (u.injChecks i = false → u.fld F.INJ_CTRL_STATE i = 0 ∧ u.fld F.INJ_CTRL_REFUSED i = 1 ∧ u.injector i = .reset) ∧
      (u.injChecks i = true → u.fld F.INJ_CTRL_STATE i = 1 ∧ u.fld F.INJ_CTRL_REFUSED i = 0 ∧
        u.fld F.INJ_COUNT_FIRED i = 0 ∧ u.fld F.INJ_COUNT_MISSED i = (if (s.injector i).due then 1 else 0) ∧
        u.injector i = if s.injStart i ≤ now then { due := true, next := u.injNext i now }
          else { due := false, next := some (s.injStart i) }) ∧
      (∀ k, k ≠ i.val → u.injector k = s.injector k) ∧
      s.sameRegsBut u [(.INJ_CTRL, i, 0), (.INJ_COUNT, i, 0)] ∧ u = { s with regs := u.regs, inj := u.inj }) ∧
  (∀ (a : Agent) (i : Fin 16) (x : Nat) (s : State), s.reaches a .INJ_CTRL i → x < 2 ^ 32 →
    Performs (.injDisarmWrite a i x) s fun u =>
      u.fld F.INJ_CTRL_ARM i = 0 ∧ u.fld F.INJ_CTRL_STATE i = 0 ∧ u.injector i = .reset ∧
      (∀ k, k ≠ i.val → u.injector k = s.injector k) ∧ s.sameRegsBut u [(.INJ_CTRL, i, 0)] ∧
      u = { s with regs := u.regs, inj := u.inj }) ∧
  (∀ (i : Fin 16) (t : Nat) (s : State), (s.injector i).next = some t → s.fld F.INJ_CTRL_STATE i = 1 →
    t ≤ s.now (s.injIsland (s.fld F.INJ_CTRL_DETECTOR i) (s.fld F.INJ_TARGET_TARGET i)) →
    atArming (s.fld F.INJ_CTRL_DETECTOR i) (s.shotStores i) = false → Performs (.injArmingPoint i) s fun u =>
      u.injector i = { due := true, next := s.injNext i t } ∧
      u.fld F.INJ_COUNT_MISSED i =
        (if (s.injector i).due then min 0xFFFF (s.fld F.INJ_COUNT_MISSED i + 1) else s.fld F.INJ_COUNT_MISSED i) ∧
      u.fld F.INJ_COUNT_FIRED i = s.fld F.INJ_COUNT_FIRED i ∧ (∀ k, k ≠ i.val → u.injector k = s.injector k) ∧
      s.sameRegsBut u [(.INJ_COUNT, i, 0)] ∧ u = { s with regs := u.regs, inj := u.inj }) ∧
  (∀ (i : Fin 16) (t : Nat) (s : State), (s.injector i).next = some t → s.fld F.INJ_CTRL_STATE i = 1 →
    t ≤ s.now (s.injIsland (s.fld F.INJ_CTRL_DETECTOR i) (s.fld F.INJ_TARGET_TARGET i)) → (s.injector i).due = false →
    s.fld F.INJ_CTRL_DETECTOR i = 0x19 → s.fld F.INJ_CTRL_PERIODIC i = 0 → Performs (.injArmingPoint i) s fun u =>
      u.inj.timerStopped = true ∧ u.fld F.INJ_CTRL_STATE i = 2 ∧ u.fld F.INJ_CTRL_ARM i = 0 ∧
      u.fld F.INJ_COUNT_FIRED i = min 0xFFFF (s.fld F.INJ_COUNT_FIRED i + 1) ∧ u.injector i = .reset ∧
      s.sameRegsBut u [(.INJ_CTRL, i, 0), (.INJ_COUNT, i, 0)] ∧ u = { s with regs := u.regs, inj := u.inj }) ∧
  (∀ (i : Fin 16) (s : State), (s.injector i).next = none → exec (.injArmingPoint i) s = .next s.settle) ∧
  (∀ (i : Fin 16) (t : Nat) (s : State), (s.injector i).next = some t →
    s.now (s.injIsland (s.fld F.INJ_CTRL_DETECTOR i) (s.fld F.INJ_TARGET_TARGET i)) < t →
    exec (.injArmingPoint i) s = .next s.settle)

/-! ## Power, clocks and the thermal steps (21_package_power_and_pins.md) -/

/-- R500 to R502, R504 to R511: the PLL of a hall glides by 25 MHz towards the lowest cap in force; each evaluation
moves the board and hall caps by 25 MHz against their limits and tells LIMIT and FLOOR; THROTTLE_N is shown; a thermal
sample enters and leaves the steps of R508 and moves the thermal cap; a trip, a fall of PWR_OK_IN and a rail lost in
service reset the device; a rail that does not come up leaves its hall unpowered or ends the boot in RECOVERY. -/
def Obligations.PowerRuns : Prop :=
  (∀ (h : Fin 8) (s : State), (s.hallPower h).powered = true → Answers (.clockGlideStep h) s fun u =>
      let x := s.hallPower h
      let held := s.pwr.pins.throttleN = false ∧ s.fld F.PWR_CTRL_THROTTLE_EN = 1
      let cap := if held then 1000 else min (s.hallMhz h) (x.pinCap + 25)
      let t := max 1000 (min (min (s.hallMhz h) s.pwr.boardCap) (min x.hallCap (min x.thermalCap cap)))
      u.hallPower h = { x with
        pinCap := cap, running := if x.running < t then min t (x.running + 25) else max t (x.running - 25) } ∧
      (∀ k, k ≠ h.val → u.hallPower k = s.hallPower k) ∧ u = { s with pwr := { s.pwr with halls := u.pwr.halls } }) ∧
  (∀ (h : Fin 8) (s : State), (s.hallPower h).powered = false → exec (.clockGlideStep h) s = .next s) ∧
  (∀ (w mv : List Nat) (good : Nat) (s : State), s.boot.step = 9 → s.fld F.BOOT_STATUS_STATE ≠ 5 →
    (s.hc 8).core.state = .running → s.fld F.PWR_CTRL_LIMIT_EN = 1 → s.inj.timerStopped = false →
    Answers (.powerLimitEvaluate w mv good) s fun u =>
      let p := min 0xFFFF (w.foldl (· + ·) 0 + s.fld F.PWR_BOARD_OFFSET_OFFSET_W)
      let cap := s.pwr.boardCap
      u.fld F.PWR_STATUS_BOARD_W = p ∧ u.fld F.PWR_RAILS_GOOD = good % 65536 ∧
      (s.boardLimit < p → u.pwr.boardCap = max (cap - 25) 1000) ∧
      (100 * p < 98 * s.boardLimit → u.pwr.boardCap = min s.topMhz (cap + 25)) ∧
      (p ≤ s.boardLimit → 98 * s.boardLimit ≤ 100 * p → u.pwr.boardCap = cap) ∧
      (u.pwr.boardCap < cap → u.fld F.PWR_EVENT_LIMIT = 1) ∧
      (s.boardLimit < p → u.pwr.boardCap = 1000 → s.pwr.floorRun = 99 → u.fld F.PWR_STATUS_AT_FLOOR = 1 ∧
        u.fld F.PWR_EVENT_FLOOR = 1) ∧
      (∀ h, h < 8 → (s.hallPower h).powered = true →
        u.hallPower h = { s.hallPower h with
          mv := mv.getD h 0, watts := w.getD h 0
          hallCap := if s.hallLimit < w.getD h 0 then max ((s.hallPower h).hallCap - 25) 1000
            else if 100 * w.getD h 0 < 98 * s.hallLimit then min s.topMhz ((s.hallPower h).hallCap + 25)
            else (s.hallPower h).hallCap }) ∧
      u.boot = { s.boot with service := some s.time.tick } ∧ u = { s.raised u with pwr := u.pwr, boot := u.boot }) ∧
  (∀ (w mv : List Nat) (good : Nat) (s : State), s.boot.step < 8 → exec (.powerLimitEvaluate w mv good) s = .next s) ∧
  (∀ s : State, s.pwr.pins.throttleN = true → Answers .throttleNFall s fun u =>
      u.pwr = { s.pwr with pins := { s.pwr.pins with throttleN := false } } ∧ u.fld F.PWR_STATUS_THROTTLE_PIN = 1 ∧
      u.fld F.PWR_EVENT_THROTTLE_PIN = 1 ∧ u = { s.raised u with pwr := u.pwr }) ∧
  (∀ s : State, s.pwr.pins.throttleN = false → exec .throttleNFall s = .next s) ∧
  (∀ s : State, Answers .throttleNRise s fun u =>
      u.pwr = { s.pwr with pins := { s.pwr.pins with throttleN := true } } ∧ u.fld F.PWR_STATUS_THROTTLE_PIN = 0 ∧
      s.sameRegsBut u [(.PWR_STATUS, 0, 0)] ∧ u = { s with pwr := u.pwr, regs := u.regs }) ∧
  (∀ (h : Fin 8) (t : Int) (s : State), (s.hallPower h).powered = true → Answers (.thermalSample h t) s fun u =>
      let x := s.hallPower h
      let y := u.hallPower h
      y.temp = t ∧ (110 ≤ t → y.step = 3 ∧ y.thermalCap = 1000) ∧
      (t < 110 → 107 < t → y.step = if x.step = 3 then 3 else 2) ∧ (100 ≤ t → t ≤ 107 → y.step = 2) ∧
      (97 < t → t < 100 → y.step = if 2 ≤ x.step then 2 else 1) ∧ (95 ≤ t → t ≤ 97 → y.step = 1) ∧
      (92 < t → t < 95 → y.step = if 1 ≤ x.step then 1 else 0) ∧ (t ≤ 92 → y.step = 0) ∧
      (y.step = 2 → x.step = 2 → 1000000 ≤ s.time.tick - x.moved →
        y.thermalCap = max 1000 (x.thermalCap - 100) ∧ y.moved = s.time.tick) ∧
      (y.step = 1 → y.thermalCap = x.thermalCap) ∧
      (y.step = 0 → x.step = 0 → 10000000 ≤ s.time.tick - x.moved →
        y.thermalCap = min (s.hallMhz h) (x.thermalCap + 100) ∧ y.moved = s.time.tick) ∧
      (x.step < y.step → u.fld F.PWR_EVENT_WARN = 1) ∧ (x.step < 3 → y.step = 3 → u.fld F.PWR_EVENT_CRIT = 1) ∧
      y = { x with temp := t, step := y.step, thermalCap := y.thermalCap, moved := y.moved } ∧
      (∀ k, k ≠ h.val → u.hallPower k = s.hallPower k) ∧
      u = { s.raised u with pwr := { s.pwr with halls := u.pwr.halls } }) ∧
  (∀ (h : Fin 8) (t : Int) (s : State), (s.hallPower h).powered = false → exec (.thermalSample h t) s = .next s) ∧
  (∀ s : State, (∃ x, x ∈ s.pwr.halls ∧ 115 ≤ x.2.temp) ∨ (∃ x, x ∈ s.pwr.stackTemp ∧ 110 ≤ x.2) →
    Answers .thermalTrip s fun u =>
      u.pwr.tripped = true ∧ u.pwr.seqEn = false ∧ u.boot.step = 0 ∧ u.alcoves = [] ∧ u.hcs = [] ∧ u.hbm = .reset ∧
      u.ras.store = s.ras.store ∧ u.boot.retireA = s.boot.retireA ∧ u.host.pagesA = s.host.pagesA ∧
      u.pending = s.pending) ∧
  (∀ s : State, (∀ x, x ∈ s.pwr.halls → x.2.temp < 115) → (∀ x, x ∈ s.pwr.stackTemp → x.2 < 110) →
    exec .thermalTrip s = .next s) ∧
  (∀ s : State, s.pwr.pins.pwrOk = true → Answers .pwrOkInFall s fun u =>
      u.pwr.pins = { s.pwr.pins with pwrOk := false } ∧ u.pwr.seqEn = false ∧ u.boot.step = 0 ∧ u.alcoves = [] ∧
      u.hcs = [] ∧ u.hbm = .reset ∧ u.ras.store = s.ras.store ∧ u.host.pagesA = s.host.pagesA ∧
      u.host.pagesB = s.host.pagesB ∧ u.pending = s.pending) ∧
  (∀ s : State, s.pwr.pins.pwrOk = false → exec .pwrOkInFall s = .next s) ∧
  (∀ (rail : Nat) (s : State), rail < 8 → s.boot.step = 9 → (s.hallPower rail).powered = true →
    s.pwr.pins.pwrOk = true → s.pwr.tripped = false → Answers (.railFaultInService rail) s fun u =>
      u.boot.step = 3 ∧ u.fld F.BOOT_STATUS_LAST_RESET = 1 ∧ bit u.pwr.latchedFaults rail = 1 ∧ u.alcoves = []) ∧
  (∀ (rail : Nat) (s : State), rail ∈ [8, 9, 10, 11, 12, 13, 14, 15] → s.boot.step = 9 → s.pwr.pins.pwrOk = true →
    Answers (.railFaultInService rail) s fun u =>
      u.pwr.pins.pwrOk = false ∧ u.boot.step = 0 ∧ bit u.pwr.latchedFaults rail = 1 ∧ u.alcoves = []) ∧
  (∀ (rail : Nat) (s : State), s.boot.step ≠ 9 → exec (.railFaultInService rail) s = .next s) ∧
  (∀ (rail : Nat) (s : State), s.bootAt 6 = true → 0 < rail → rail < 8 → s.noWaiting →
    (∀ p, p < 64 → (s.port p).queues = [] ∧ (s.port p).flows = []) → Answers (.railRegulationTimeout rail) s fun u =>
      rail ∈ u.boot.unpowered ∧ u.fld F.BOOT_STATUS_DEGRADED = 1 ∧ bit (u.fld F.BOOT_STATUS_HALLS_UP) rail = 0 ∧
      bit (u.fld F.PWR_RAILS_GOOD) rail = 0 ∧ (u.hallPower rail).powered = false ∧
      (∀ n, n < 256 → n / 32 = rail → (u.alcove n).core.state = if (s.alcove n).core.state = .retired then .retired else .off) ∧
      (∀ n, n / 32 ≠ rail → u.alcove n = s.alcove n)) ∧
  (∀ (rail : Nat) (s : State), s.bootAt 6 = true → rail ∈ [0, 8, 9, 10, 12, 13, 14] →
    Answers (.railRegulationTimeout rail) s fun u =>
      u.fld F.BOOT_STATUS_STATE = 5 ∧ u.boot = { s.boot with watchdog := false } ∧
      s.sameRegsBut u [(.PWR_RAILS, 0, 0), (.BOOT_STATUS, 0, 0)] ∧ u = { s with boot := u.boot, regs := u.regs }) ∧
  (∀ (rail : Nat) (s : State), s.boot.step ≠ 6 → s.boot.step ≠ 7 → exec (.railRegulationTimeout rail) s = .next s)

/-! ## Memories of the package (08_memory_spaces_and_ordering.md) -/

/-- Every byte memory of the package keeps its canonical form at every step: addresses rise strictly and no entry is
listed that reads as an unlisted address does. -/
def Obligations.MemoriesStayCanonical : Prop :=
  ∀ s t : State, s.memoryWf = true → step s = .next t → t.memoryWf = true

/-- The memories of the reset state are in canonical form. -/
def Obligations.ResetMemoriesCanonical : Prop :=
  State.reset.memoryWf = true
end

