-- ==== Sys2Proof/Laws/Table.lean ====
section
/-! SUPPORT. Laws of sparse tables: what a key holds after an update, and that updates keep the canonical form. -/

namespace Sys2Proof.Machine

variable {α : Type}

theorem tfind_tins_same (t : Tbl α) (k : Nat) (v : α) : tfind (tins t k v) k = some v := by
  induction t with
  | nil => simp [tins, tfind]
  | cons p r ih =>
    obtain ⟨j, w⟩ := p
    simp only [tins]
    split
    · simp [tfind]
    · split
      · simp [tfind]
      · rename_i h1 h2
        have h3 : j ≠ k := fun h => h2 h.symm
        simp [tfind, h3, ih]

theorem tfind_tins_other (t : Tbl α) {k j : Nat} (v : α) (h : j ≠ k) : tfind (tins t k v) j = tfind t j := by
  induction t with
  | nil => simp [tins, tfind, Ne.symm h]
  | cons p r ih =>
    obtain ⟨i, w⟩ := p
    simp only [tins]
    split
    · simp [tfind, Ne.symm h]
    · split
      · rename_i h1 h2
        subst h2
        simp [tfind, Ne.symm h]
      · by_cases hi : i = j <;> simp [tfind, hi, ih]

theorem tfind_tdel_same (t : Tbl α) (k : Nat) : tfind (tdel t k) k = none := by
  induction t with
  | nil => rfl
  | cons p r ih =>
    obtain ⟨j, w⟩ := p
    by_cases h : j = k
    · simpa [tdel, h] using ih
    · simp only [tdel, List.filter_cons, bne_iff_ne, ne_eq, h, not_false_eq_true, ↓reduceIte, tfind]
      exact ih

theorem tfind_tdel_other (t : Tbl α) {k j : Nat} (h : j ≠ k) : tfind (tdel t k) j = tfind t j := by
  induction t with
  | nil => rfl
  | cons p r ih =>
    obtain ⟨i, w⟩ := p
    by_cases hi : i = k
    · subst hi
      simpa [tdel, tfind, Ne.symm h] using ih
    · simp only [tdel, List.filter_cons, bne_iff_ne, ne_eq, hi, not_false_eq_true, ↓reduceIte, tfind]
      split
      · rfl
      · exact ih

@[simp] theorem tget_nil (d : α) (k : Nat) : tget d [] k = d := rfl

/-! ## Rising keys -/

theorem tsorted_cons (j : Nat) (v : α) (r : Tbl α) :
    tsorted ((j, v) :: r) = true ↔ (∀ p ∈ r, j < p.1) ∧ tsorted r = true := by
  induction r generalizing j v with
  | nil => simp [tsorted]
  | cons q r ih =>
    obtain ⟨k, w⟩ := q
    simp only [tsorted, Bool.and_eq_true, decide_eq_true_eq, List.mem_cons, forall_eq_or_imp]
    constructor
    · rintro ⟨h1, h2⟩
      exact ⟨⟨h1, fun p hp => Nat.lt_trans h1 (((ih k w).mp h2).1 p hp)⟩, h2⟩
    · rintro ⟨⟨h1, _⟩, h2⟩
      exact ⟨h1, h2⟩

theorem tsorted_filter (t : Tbl α) (f : Nat × α → Bool) (h : tsorted t = true) : tsorted (t.filter f) = true := by
  induction t with
  | nil => rfl
  | cons p r ih =>
    obtain ⟨j, v⟩ := p
    have h' := (tsorted_cons j v r).mp h
    by_cases hf : f (j, v) = true
    · rw [List.filter_cons_of_pos hf, tsorted_cons]
      exact ⟨fun q hq => h'.1 q ((List.mem_filter.mp hq).1), ih h'.2⟩
    · rw [List.filter_cons_of_neg hf]
      exact ih h'.2

theorem mem_tins (t : Tbl α) (k : Nat) (v : α) (p : Nat × α) (h : p ∈ tins t k v) : p = (k, v) ∨ p ∈ t := by
  induction t with
  | nil => simpa [tins] using h
  | cons q r ih =>
    obtain ⟨j, w⟩ := q
    simp only [tins] at h
    split at h
    · simpa using h
    · split at h
      · rcases List.mem_cons.mp h with h | h
        · exact .inl h
        · exact .inr (List.mem_cons_of_mem _ h)
      · rcases List.mem_cons.mp h with h | h
        · exact .inr (h ▸ List.mem_cons_self)
        · rcases ih h with h | h
          · exact .inl h
          · exact .inr (List.mem_cons_of_mem _ h)

theorem tsorted_tins (t : Tbl α) (k : Nat) (v : α) (h : tsorted t = true) : tsorted (tins t k v) = true := by
  induction t with
  | nil => rfl
  | cons q r ih =>
    obtain ⟨j, w⟩ := q
    have h' := (tsorted_cons j w r).mp h
    simp only [tins]
    split
    · rename_i hk
      rw [tsorted_cons]
      refine ⟨fun p hp => ?_, h⟩
      rcases List.mem_cons.mp hp with hp | hp
      · simpa [hp] using hk
      · exact Nat.lt_trans hk (h'.1 p hp)
    · split
      · rename_i hk
        rw [tsorted_cons]
        exact ⟨fun p hp => hk ▸ h'.1 p hp, h'.2⟩
      · rename_i h1 h2
        rw [tsorted_cons]
        refine ⟨fun p hp => ?_, ih h'.2⟩
        rcases mem_tins r k v p hp with hp | hp
        · rw [hp]
          show j < k
          omega
        · exact h'.1 p hp

/-! ## What a key holds after an update -/

variable [DecidableEq α]

@[simp] theorem tget_tset_same (d : α) (t : Tbl α) (k : Nat) (v : α) : tget d (tset d t k v) k = v := by
  unfold tget tset
  split
  · rename_i h
    simp [tfind_tdel_same, h]
  · simp [tfind_tins_same]

theorem tget_tset_other (d : α) (t : Tbl α) {k j : Nat} (v : α) (h : j ≠ k) :
    tget d (tset d t k v) j = tget d t j := by
  unfold tget tset
  split
  · rw [tfind_tdel_other t h]
  · rw [tfind_tins_other t v h]

@[simp] theorem tget_tmod_same (d : α) (t : Tbl α) (k : Nat) (f : α → α) : tget d (tmod d t k f) k = f (tget d t k) := by
  simp [tmod]

theorem tget_tmod_other (d : α) (t : Tbl α) {k j : Nat} (f : α → α) (h : j ≠ k) :
    tget d (tmod d t k f) j = tget d t j := by
  simp [tmod, tget_tset_other, h]

/-! ## The canonical form -/

theorem tcanonical_nil (d : α) : tcanonical d ([] : Tbl α) = true := rfl

theorem tcanonical_tset (d : α) (t : Tbl α) (k : Nat) (v : α) (h : tcanonical d t = true) :
    tcanonical d (tset d t k v) = true := by
  simp only [tcanonical, Bool.and_eq_true, List.all_eq_true, bne_iff_ne, ne_eq] at h ⊢
  unfold tset
  split
  · exact ⟨tsorted_filter t _ h.1, fun p hp => h.2 p ((List.mem_filter.mp hp).1)⟩
  · rename_i hv
    refine ⟨tsorted_tins t k v h.1, fun p hp => ?_⟩
    rcases mem_tins t k v p hp with hp | hp
    · simpa [hp] using hv
    · exact h.2 p hp

theorem tcanonical_filter (d : α) (t : Tbl α) (f : Nat × α → Bool) (h : tcanonical d t = true) :
    tcanonical d (t.filter f) = true := by
  simp only [tcanonical, Bool.and_eq_true, List.all_eq_true] at h ⊢
  exact ⟨tsorted_filter t f h.1, fun p hp => h.2 p ((List.mem_filter.mp hp).1)⟩

theorem tcanonical_tdel (d : α) (t : Tbl α) (k : Nat) (h : tcanonical d t = true) : tcanonical d (tdel t k) = true :=
  tcanonical_filter d t _ h

end Sys2Proof.Machine
end

