-- ==== Sys2Proof/Laws/State.lean ====
section
/-! SUPPORT. What each update of State leaves in each field: true by unfolding the update once, so that no later proof
unfolds it again. -/

namespace Sys2Proof.Machine

/-! ## `State.onTime` -/

section
variable (s : State) (f : TimeSt → TimeSt)
@[simp] theorem State.onTime_pending : (s.onTime f).pending = s.pending := rfl
@[simp] theorem State.onTime_order : (s.onTime f).order = s.order := rfl
@[simp] theorem State.onTime_regs : (s.onTime f).regs = s.regs := rfl
@[simp] theorem State.onTime_readData : (s.onTime f).readData = s.readData := rfl
@[simp] theorem State.onTime_time : (s.onTime f).time = f s.time := rfl
@[simp] theorem State.onTime_ic : (s.onTime f).ic = s.ic := rfl
@[simp] theorem State.onTime_ras : (s.onTime f).ras = s.ras := rfl
@[simp] theorem State.onTime_pwr : (s.onTime f).pwr = s.pwr := rfl
@[simp] theorem State.onTime_part : (s.onTime f).part = s.part := rfl
@[simp] theorem State.onTime_host : (s.onTime f).host = s.host := rfl
@[simp] theorem State.onTime_boot : (s.onTime f).boot = s.boot := rfl
@[simp] theorem State.onTime_clz : (s.onTime f).clz = s.clz := rfl
@[simp] theorem State.onTime_mem : (s.onTime f).mem = s.mem := rfl
@[simp] theorem State.onTime_hbm : (s.onTime f).hbm = s.hbm := rfl
@[simp] theorem State.onTime_sync : (s.onTime f).sync = s.sync := rfl
@[simp] theorem State.onTime_vst : (s.onTime f).vst = s.vst := rfl
@[simp] theorem State.onTime_inj : (s.onTime f).inj = s.inj := rfl
@[simp] theorem State.onTime_ann : (s.onTime f).ann = s.ann := rfl
@[simp] theorem State.onTime_sdc : (s.onTime f).sdc = s.sdc := rfl
@[simp] theorem State.onTime_alcoves : (s.onTime f).alcoves = s.alcoves := rfl
@[simp] theorem State.onTime_hcs : (s.onTime f).hcs = s.hcs := rfl
@[simp] theorem State.onTime_out : (s.onTime f).out = s.out := rfl
@[simp] theorem State.onTime_drawn : (s.onTime f).drawn = s.drawn := rfl
end

/-! ## `State.onIc` -/

section
variable (s : State) (f : IcSt → IcSt)
@[simp] theorem State.onIc_pending : (s.onIc f).pending = s.pending := rfl
@[simp] theorem State.onIc_order : (s.onIc f).order = s.order := rfl
@[simp] theorem State.onIc_regs : (s.onIc f).regs = s.regs := rfl
@[simp] theorem State.onIc_readData : (s.onIc f).readData = s.readData := rfl
@[simp] theorem State.onIc_time : (s.onIc f).time = s.time := rfl
@[simp] theorem State.onIc_ic : (s.onIc f).ic = f s.ic := rfl
@[simp] theorem State.onIc_ras : (s.onIc f).ras = s.ras := rfl
@[simp] theorem State.onIc_pwr : (s.onIc f).pwr = s.pwr := rfl
@[simp] theorem State.onIc_part : (s.onIc f).part = s.part := rfl
@[simp] theorem State.onIc_host : (s.onIc f).host = s.host := rfl
@[simp] theorem State.onIc_boot : (s.onIc f).boot = s.boot := rfl
@[simp] theorem State.onIc_clz : (s.onIc f).clz = s.clz := rfl
@[simp] theorem State.onIc_mem : (s.onIc f).mem = s.mem := rfl
@[simp] theorem State.onIc_hbm : (s.onIc f).hbm = s.hbm := rfl
@[simp] theorem State.onIc_sync : (s.onIc f).sync = s.sync := rfl
@[simp] theorem State.onIc_vst : (s.onIc f).vst = s.vst := rfl
@[simp] theorem State.onIc_inj : (s.onIc f).inj = s.inj := rfl
@[simp] theorem State.onIc_ann : (s.onIc f).ann = s.ann := rfl
@[simp] theorem State.onIc_sdc : (s.onIc f).sdc = s.sdc := rfl
@[simp] theorem State.onIc_alcoves : (s.onIc f).alcoves = s.alcoves := rfl
@[simp] theorem State.onIc_hcs : (s.onIc f).hcs = s.hcs := rfl
@[simp] theorem State.onIc_out : (s.onIc f).out = s.out := rfl
@[simp] theorem State.onIc_drawn : (s.onIc f).drawn = s.drawn := rfl
end

/-! ## `State.onRas` -/

section
variable (s : State) (f : RasSt → RasSt)
@[simp] theorem State.onRas_pending : (s.onRas f).pending = s.pending := rfl
@[simp] theorem State.onRas_order : (s.onRas f).order = s.order := rfl
@[simp] theorem State.onRas_regs : (s.onRas f).regs = s.regs := rfl
@[simp] theorem State.onRas_readData : (s.onRas f).readData = s.readData := rfl
@[simp] theorem State.onRas_time : (s.onRas f).time = s.time := rfl
@[simp] theorem State.onRas_ic : (s.onRas f).ic = s.ic := rfl
@[simp] theorem State.onRas_ras : (s.onRas f).ras = f s.ras := rfl
@[simp] theorem State.onRas_pwr : (s.onRas f).pwr = s.pwr := rfl
@[simp] theorem State.onRas_part : (s.onRas f).part = s.part := rfl
@[simp] theorem State.onRas_host : (s.onRas f).host = s.host := rfl
@[simp] theorem State.onRas_boot : (s.onRas f).boot = s.boot := rfl
@[simp] theorem State.onRas_clz : (s.onRas f).clz = s.clz := rfl
@[simp] theorem State.onRas_mem : (s.onRas f).mem = s.mem := rfl
@[simp] theorem State.onRas_hbm : (s.onRas f).hbm = s.hbm := rfl
@[simp] theorem State.onRas_sync : (s.onRas f).sync = s.sync := rfl
@[simp] theorem State.onRas_vst : (s.onRas f).vst = s.vst := rfl
@[simp] theorem State.onRas_inj : (s.onRas f).inj = s.inj := rfl
@[simp] theorem State.onRas_ann : (s.onRas f).ann = s.ann := rfl
@[simp] theorem State.onRas_sdc : (s.onRas f).sdc = s.sdc := rfl
@[simp] theorem State.onRas_alcoves : (s.onRas f).alcoves = s.alcoves := rfl
@[simp] theorem State.onRas_hcs : (s.onRas f).hcs = s.hcs := rfl
@[simp] theorem State.onRas_out : (s.onRas f).out = s.out := rfl
@[simp] theorem State.onRas_drawn : (s.onRas f).drawn = s.drawn := rfl
end

/-! ## `State.onPwr` -/

section
variable (s : State) (f : PwrSt → PwrSt)
@[simp] theorem State.onPwr_pending : (s.onPwr f).pending = s.pending := rfl
@[simp] theorem State.onPwr_order : (s.onPwr f).order = s.order := rfl
@[simp] theorem State.onPwr_regs : (s.onPwr f).regs = s.regs := rfl
@[simp] theorem State.onPwr_readData : (s.onPwr f).readData = s.readData := rfl
@[simp] theorem State.onPwr_time : (s.onPwr f).time = s.time := rfl
@[simp] theorem State.onPwr_ic : (s.onPwr f).ic = s.ic := rfl
@[simp] theorem State.onPwr_ras : (s.onPwr f).ras = s.ras := rfl
@[simp] theorem State.onPwr_pwr : (s.onPwr f).pwr = f s.pwr := rfl
@[simp] theorem State.onPwr_part : (s.onPwr f).part = s.part := rfl
@[simp] theorem State.onPwr_host : (s.onPwr f).host = s.host := rfl
@[simp] theorem State.onPwr_boot : (s.onPwr f).boot = s.boot := rfl
@[simp] theorem State.onPwr_clz : (s.onPwr f).clz = s.clz := rfl
@[simp] theorem State.onPwr_mem : (s.onPwr f).mem = s.mem := rfl
@[simp] theorem State.onPwr_hbm : (s.onPwr f).hbm = s.hbm := rfl
@[simp] theorem State.onPwr_sync : (s.onPwr f).sync = s.sync := rfl
@[simp] theorem State.onPwr_vst : (s.onPwr f).vst = s.vst := rfl
@[simp] theorem State.onPwr_inj : (s.onPwr f).inj = s.inj := rfl
@[simp] theorem State.onPwr_ann : (s.onPwr f).ann = s.ann := rfl
@[simp] theorem State.onPwr_sdc : (s.onPwr f).sdc = s.sdc := rfl
@[simp] theorem State.onPwr_alcoves : (s.onPwr f).alcoves = s.alcoves := rfl
@[simp] theorem State.onPwr_hcs : (s.onPwr f).hcs = s.hcs := rfl
@[simp] theorem State.onPwr_out : (s.onPwr f).out = s.out := rfl
@[simp] theorem State.onPwr_drawn : (s.onPwr f).drawn = s.drawn := rfl
end

/-! ## `State.onPart` -/

section
variable (s : State) (f : PartSt → PartSt)
@[simp] theorem State.onPart_pending : (s.onPart f).pending = s.pending := rfl
@[simp] theorem State.onPart_order : (s.onPart f).order = s.order := rfl
@[simp] theorem State.onPart_regs : (s.onPart f).regs = s.regs := rfl
@[simp] theorem State.onPart_readData : (s.onPart f).readData = s.readData := rfl
@[simp] theorem State.onPart_time : (s.onPart f).time = s.time := rfl
@[simp] theorem State.onPart_ic : (s.onPart f).ic = s.ic := rfl
@[simp] theorem State.onPart_ras : (s.onPart f).ras = s.ras := rfl
@[simp] theorem State.onPart_pwr : (s.onPart f).pwr = s.pwr := rfl
@[simp] theorem State.onPart_part : (s.onPart f).part = f s.part := rfl
@[simp] theorem State.onPart_host : (s.onPart f).host = s.host := rfl
@[simp] theorem State.onPart_boot : (s.onPart f).boot = s.boot := rfl
@[simp] theorem State.onPart_clz : (s.onPart f).clz = s.clz := rfl
@[simp] theorem State.onPart_mem : (s.onPart f).mem = s.mem := rfl
@[simp] theorem State.onPart_hbm : (s.onPart f).hbm = s.hbm := rfl
@[simp] theorem State.onPart_sync : (s.onPart f).sync = s.sync := rfl
@[simp] theorem State.onPart_vst : (s.onPart f).vst = s.vst := rfl
@[simp] theorem State.onPart_inj : (s.onPart f).inj = s.inj := rfl
@[simp] theorem State.onPart_ann : (s.onPart f).ann = s.ann := rfl
@[simp] theorem State.onPart_sdc : (s.onPart f).sdc = s.sdc := rfl
@[simp] theorem State.onPart_alcoves : (s.onPart f).alcoves = s.alcoves := rfl
@[simp] theorem State.onPart_hcs : (s.onPart f).hcs = s.hcs := rfl
@[simp] theorem State.onPart_out : (s.onPart f).out = s.out := rfl
@[simp] theorem State.onPart_drawn : (s.onPart f).drawn = s.drawn := rfl
end

/-! ## `State.onHost` -/

section
variable (s : State) (f : HostSt → HostSt)
@[simp] theorem State.onHost_pending : (s.onHost f).pending = s.pending := rfl
@[simp] theorem State.onHost_order : (s.onHost f).order = s.order := rfl
@[simp] theorem State.onHost_regs : (s.onHost f).regs = s.regs := rfl
@[simp] theorem State.onHost_readData : (s.onHost f).readData = s.readData := rfl
@[simp] theorem State.onHost_time : (s.onHost f).time = s.time := rfl
@[simp] theorem State.onHost_ic : (s.onHost f).ic = s.ic := rfl
@[simp] theorem State.onHost_ras : (s.onHost f).ras = s.ras := rfl
@[simp] theorem State.onHost_pwr : (s.onHost f).pwr = s.pwr := rfl
@[simp] theorem State.onHost_part : (s.onHost f).part = s.part := rfl
@[simp] theorem State.onHost_host : (s.onHost f).host = f s.host := rfl
@[simp] theorem State.onHost_boot : (s.onHost f).boot = s.boot := rfl
@[simp] theorem State.onHost_clz : (s.onHost f).clz = s.clz := rfl
@[simp] theorem State.onHost_mem : (s.onHost f).mem = s.mem := rfl
@[simp] theorem State.onHost_hbm : (s.onHost f).hbm = s.hbm := rfl
@[simp] theorem State.onHost_sync : (s.onHost f).sync = s.sync := rfl
@[simp] theorem State.onHost_vst : (s.onHost f).vst = s.vst := rfl
@[simp] theorem State.onHost_inj : (s.onHost f).inj = s.inj := rfl
@[simp] theorem State.onHost_ann : (s.onHost f).ann = s.ann := rfl
@[simp] theorem State.onHost_sdc : (s.onHost f).sdc = s.sdc := rfl
@[simp] theorem State.onHost_alcoves : (s.onHost f).alcoves = s.alcoves := rfl
@[simp] theorem State.onHost_hcs : (s.onHost f).hcs = s.hcs := rfl
@[simp] theorem State.onHost_out : (s.onHost f).out = s.out := rfl
@[simp] theorem State.onHost_drawn : (s.onHost f).drawn = s.drawn := rfl
end

/-! ## `State.onBoot` -/

section
variable (s : State) (f : BootSt → BootSt)
@[simp] theorem State.onBoot_pending : (s.onBoot f).pending = s.pending := rfl
@[simp] theorem State.onBoot_order : (s.onBoot f).order = s.order := rfl
@[simp] theorem State.onBoot_regs : (s.onBoot f).regs = s.regs := rfl
@[simp] theorem State.onBoot_readData : (s.onBoot f).readData = s.readData := rfl
@[simp] theorem State.onBoot_time : (s.onBoot f).time = s.time := rfl
@[simp] theorem State.onBoot_ic : (s.onBoot f).ic = s.ic := rfl
@[simp] theorem State.onBoot_ras : (s.onBoot f).ras = s.ras := rfl
@[simp] theorem State.onBoot_pwr : (s.onBoot f).pwr = s.pwr := rfl
@[simp] theorem State.onBoot_part : (s.onBoot f).part = s.part := rfl
@[simp] theorem State.onBoot_host : (s.onBoot f).host = s.host := rfl
@[simp] theorem State.onBoot_boot : (s.onBoot f).boot = f s.boot := rfl
@[simp] theorem State.onBoot_clz : (s.onBoot f).clz = s.clz := rfl
@[simp] theorem State.onBoot_mem : (s.onBoot f).mem = s.mem := rfl
@[simp] theorem State.onBoot_hbm : (s.onBoot f).hbm = s.hbm := rfl
@[simp] theorem State.onBoot_sync : (s.onBoot f).sync = s.sync := rfl
@[simp] theorem State.onBoot_vst : (s.onBoot f).vst = s.vst := rfl
@[simp] theorem State.onBoot_inj : (s.onBoot f).inj = s.inj := rfl
@[simp] theorem State.onBoot_ann : (s.onBoot f).ann = s.ann := rfl
@[simp] theorem State.onBoot_sdc : (s.onBoot f).sdc = s.sdc := rfl
@[simp] theorem State.onBoot_alcoves : (s.onBoot f).alcoves = s.alcoves := rfl
@[simp] theorem State.onBoot_hcs : (s.onBoot f).hcs = s.hcs := rfl
@[simp] theorem State.onBoot_out : (s.onBoot f).out = s.out := rfl
@[simp] theorem State.onBoot_drawn : (s.onBoot f).drawn = s.drawn := rfl
end

/-! ## `State.onClz` -/

section
variable (s : State) (f : ClzSt → ClzSt)
@[simp] theorem State.onClz_pending : (s.onClz f).pending = s.pending := rfl
@[simp] theorem State.onClz_order : (s.onClz f).order = s.order := rfl
@[simp] theorem State.onClz_regs : (s.onClz f).regs = s.regs := rfl
@[simp] theorem State.onClz_readData : (s.onClz f).readData = s.readData := rfl
@[simp] theorem State.onClz_time : (s.onClz f).time = s.time := rfl
@[simp] theorem State.onClz_ic : (s.onClz f).ic = s.ic := rfl
@[simp] theorem State.onClz_ras : (s.onClz f).ras = s.ras := rfl
@[simp] theorem State.onClz_pwr : (s.onClz f).pwr = s.pwr := rfl
@[simp] theorem State.onClz_part : (s.onClz f).part = s.part := rfl
@[simp] theorem State.onClz_host : (s.onClz f).host = s.host := rfl
@[simp] theorem State.onClz_boot : (s.onClz f).boot = s.boot := rfl
@[simp] theorem State.onClz_clz : (s.onClz f).clz = f s.clz := rfl
@[simp] theorem State.onClz_mem : (s.onClz f).mem = s.mem := rfl
@[simp] theorem State.onClz_hbm : (s.onClz f).hbm = s.hbm := rfl
@[simp] theorem State.onClz_sync : (s.onClz f).sync = s.sync := rfl
@[simp] theorem State.onClz_vst : (s.onClz f).vst = s.vst := rfl
@[simp] theorem State.onClz_inj : (s.onClz f).inj = s.inj := rfl
@[simp] theorem State.onClz_ann : (s.onClz f).ann = s.ann := rfl
@[simp] theorem State.onClz_sdc : (s.onClz f).sdc = s.sdc := rfl
@[simp] theorem State.onClz_alcoves : (s.onClz f).alcoves = s.alcoves := rfl
@[simp] theorem State.onClz_hcs : (s.onClz f).hcs = s.hcs := rfl
@[simp] theorem State.onClz_out : (s.onClz f).out = s.out := rfl
@[simp] theorem State.onClz_drawn : (s.onClz f).drawn = s.drawn := rfl
end

/-! ## `State.onMem` -/

section
variable (s : State) (f : MemSt → MemSt)
@[simp] theorem State.onMem_pending : (s.onMem f).pending = s.pending := rfl
@[simp] theorem State.onMem_order : (s.onMem f).order = s.order := rfl
@[simp] theorem State.onMem_regs : (s.onMem f).regs = s.regs := rfl
@[simp] theorem State.onMem_readData : (s.onMem f).readData = s.readData := rfl
@[simp] theorem State.onMem_time : (s.onMem f).time = s.time := rfl
@[simp] theorem State.onMem_ic : (s.onMem f).ic = s.ic := rfl
@[simp] theorem State.onMem_ras : (s.onMem f).ras = s.ras := rfl
@[simp] theorem State.onMem_pwr : (s.onMem f).pwr = s.pwr := rfl
@[simp] theorem State.onMem_part : (s.onMem f).part = s.part := rfl
@[simp] theorem State.onMem_host : (s.onMem f).host = s.host := rfl
@[simp] theorem State.onMem_boot : (s.onMem f).boot = s.boot := rfl
@[simp] theorem State.onMem_clz : (s.onMem f).clz = s.clz := rfl
@[simp] theorem State.onMem_mem : (s.onMem f).mem = f s.mem := rfl
@[simp] theorem State.onMem_hbm : (s.onMem f).hbm = s.hbm := rfl
@[simp] theorem State.onMem_sync : (s.onMem f).sync = s.sync := rfl
@[simp] theorem State.onMem_vst : (s.onMem f).vst = s.vst := rfl
@[simp] theorem State.onMem_inj : (s.onMem f).inj = s.inj := rfl
@[simp] theorem State.onMem_ann : (s.onMem f).ann = s.ann := rfl
@[simp] theorem State.onMem_sdc : (s.onMem f).sdc = s.sdc := rfl
@[simp] theorem State.onMem_alcoves : (s.onMem f).alcoves = s.alcoves := rfl
@[simp] theorem State.onMem_hcs : (s.onMem f).hcs = s.hcs := rfl
@[simp] theorem State.onMem_out : (s.onMem f).out = s.out := rfl
@[simp] theorem State.onMem_drawn : (s.onMem f).drawn = s.drawn := rfl
end

/-! ## `State.onHbm` -/

section
variable (s : State) (f : HbmSt → HbmSt)
@[simp] theorem State.onHbm_pending : (s.onHbm f).pending = s.pending := rfl
@[simp] theorem State.onHbm_order : (s.onHbm f).order = s.order := rfl
@[simp] theorem State.onHbm_regs : (s.onHbm f).regs = s.regs := rfl
@[simp] theorem State.onHbm_readData : (s.onHbm f).readData = s.readData := rfl
@[simp] theorem State.onHbm_time : (s.onHbm f).time = s.time := rfl
@[simp] theorem State.onHbm_ic : (s.onHbm f).ic = s.ic := rfl
@[simp] theorem State.onHbm_ras : (s.onHbm f).ras = s.ras := rfl
@[simp] theorem State.onHbm_pwr : (s.onHbm f).pwr = s.pwr := rfl
@[simp] theorem State.onHbm_part : (s.onHbm f).part = s.part := rfl
@[simp] theorem State.onHbm_host : (s.onHbm f).host = s.host := rfl
@[simp] theorem State.onHbm_boot : (s.onHbm f).boot = s.boot := rfl
@[simp] theorem State.onHbm_clz : (s.onHbm f).clz = s.clz := rfl
@[simp] theorem State.onHbm_mem : (s.onHbm f).mem = s.mem := rfl
@[simp] theorem State.onHbm_hbm : (s.onHbm f).hbm = f s.hbm := rfl
@[simp] theorem State.onHbm_sync : (s.onHbm f).sync = s.sync := rfl
@[simp] theorem State.onHbm_vst : (s.onHbm f).vst = s.vst := rfl
@[simp] theorem State.onHbm_inj : (s.onHbm f).inj = s.inj := rfl
@[simp] theorem State.onHbm_ann : (s.onHbm f).ann = s.ann := rfl
@[simp] theorem State.onHbm_sdc : (s.onHbm f).sdc = s.sdc := rfl
@[simp] theorem State.onHbm_alcoves : (s.onHbm f).alcoves = s.alcoves := rfl
@[simp] theorem State.onHbm_hcs : (s.onHbm f).hcs = s.hcs := rfl
@[simp] theorem State.onHbm_out : (s.onHbm f).out = s.out := rfl
@[simp] theorem State.onHbm_drawn : (s.onHbm f).drawn = s.drawn := rfl
end

/-! ## `State.onSync` -/

section
variable (s : State) (f : SyncSt → SyncSt)
@[simp] theorem State.onSync_pending : (s.onSync f).pending = s.pending := rfl
@[simp] theorem State.onSync_order : (s.onSync f).order = s.order := rfl
@[simp] theorem State.onSync_regs : (s.onSync f).regs = s.regs := rfl
@[simp] theorem State.onSync_readData : (s.onSync f).readData = s.readData := rfl
@[simp] theorem State.onSync_time : (s.onSync f).time = s.time := rfl
@[simp] theorem State.onSync_ic : (s.onSync f).ic = s.ic := rfl
@[simp] theorem State.onSync_ras : (s.onSync f).ras = s.ras := rfl
@[simp] theorem State.onSync_pwr : (s.onSync f).pwr = s.pwr := rfl
@[simp] theorem State.onSync_part : (s.onSync f).part = s.part := rfl
@[simp] theorem State.onSync_host : (s.onSync f).host = s.host := rfl
@[simp] theorem State.onSync_boot : (s.onSync f).boot = s.boot := rfl
@[simp] theorem State.onSync_clz : (s.onSync f).clz = s.clz := rfl
@[simp] theorem State.onSync_mem : (s.onSync f).mem = s.mem := rfl
@[simp] theorem State.onSync_hbm : (s.onSync f).hbm = s.hbm := rfl
@[simp] theorem State.onSync_sync : (s.onSync f).sync = f s.sync := rfl
@[simp] theorem State.onSync_vst : (s.onSync f).vst = s.vst := rfl
@[simp] theorem State.onSync_inj : (s.onSync f).inj = s.inj := rfl
@[simp] theorem State.onSync_ann : (s.onSync f).ann = s.ann := rfl
@[simp] theorem State.onSync_sdc : (s.onSync f).sdc = s.sdc := rfl
@[simp] theorem State.onSync_alcoves : (s.onSync f).alcoves = s.alcoves := rfl
@[simp] theorem State.onSync_hcs : (s.onSync f).hcs = s.hcs := rfl
@[simp] theorem State.onSync_out : (s.onSync f).out = s.out := rfl
@[simp] theorem State.onSync_drawn : (s.onSync f).drawn = s.drawn := rfl
end

/-! ## `State.onInj` -/

section
variable (s : State) (f : InjSt → InjSt)
@[simp] theorem State.onInj_pending : (s.onInj f).pending = s.pending := rfl
@[simp] theorem State.onInj_order : (s.onInj f).order = s.order := rfl
@[simp] theorem State.onInj_regs : (s.onInj f).regs = s.regs := rfl
@[simp] theorem State.onInj_readData : (s.onInj f).readData = s.readData := rfl
@[simp] theorem State.onInj_time : (s.onInj f).time = s.time := rfl
@[simp] theorem State.onInj_ic : (s.onInj f).ic = s.ic := rfl
@[simp] theorem State.onInj_ras : (s.onInj f).ras = s.ras := rfl
@[simp] theorem State.onInj_pwr : (s.onInj f).pwr = s.pwr := rfl
@[simp] theorem State.onInj_part : (s.onInj f).part = s.part := rfl
@[simp] theorem State.onInj_host : (s.onInj f).host = s.host := rfl
@[simp] theorem State.onInj_boot : (s.onInj f).boot = s.boot := rfl
@[simp] theorem State.onInj_clz : (s.onInj f).clz = s.clz := rfl
@[simp] theorem State.onInj_mem : (s.onInj f).mem = s.mem := rfl
@[simp] theorem State.onInj_hbm : (s.onInj f).hbm = s.hbm := rfl
@[simp] theorem State.onInj_sync : (s.onInj f).sync = s.sync := rfl
@[simp] theorem State.onInj_vst : (s.onInj f).vst = s.vst := rfl
@[simp] theorem State.onInj_inj : (s.onInj f).inj = f s.inj := rfl
@[simp] theorem State.onInj_ann : (s.onInj f).ann = s.ann := rfl
@[simp] theorem State.onInj_sdc : (s.onInj f).sdc = s.sdc := rfl
@[simp] theorem State.onInj_alcoves : (s.onInj f).alcoves = s.alcoves := rfl
@[simp] theorem State.onInj_hcs : (s.onInj f).hcs = s.hcs := rfl
@[simp] theorem State.onInj_out : (s.onInj f).out = s.out := rfl
@[simp] theorem State.onInj_drawn : (s.onInj f).drawn = s.drawn := rfl
end

/-! ## `State.onSdc` -/

section
variable (s : State) (f : SdcSt → SdcSt)
@[simp] theorem State.onSdc_pending : (s.onSdc f).pending = s.pending := rfl
@[simp] theorem State.onSdc_order : (s.onSdc f).order = s.order := rfl
@[simp] theorem State.onSdc_regs : (s.onSdc f).regs = s.regs := rfl
@[simp] theorem State.onSdc_readData : (s.onSdc f).readData = s.readData := rfl
@[simp] theorem State.onSdc_time : (s.onSdc f).time = s.time := rfl
@[simp] theorem State.onSdc_ic : (s.onSdc f).ic = s.ic := rfl
@[simp] theorem State.onSdc_ras : (s.onSdc f).ras = s.ras := rfl
@[simp] theorem State.onSdc_pwr : (s.onSdc f).pwr = s.pwr := rfl
@[simp] theorem State.onSdc_part : (s.onSdc f).part = s.part := rfl
@[simp] theorem State.onSdc_host : (s.onSdc f).host = s.host := rfl
@[simp] theorem State.onSdc_boot : (s.onSdc f).boot = s.boot := rfl
@[simp] theorem State.onSdc_clz : (s.onSdc f).clz = s.clz := rfl
@[simp] theorem State.onSdc_mem : (s.onSdc f).mem = s.mem := rfl
@[simp] theorem State.onSdc_hbm : (s.onSdc f).hbm = s.hbm := rfl
@[simp] theorem State.onSdc_sync : (s.onSdc f).sync = s.sync := rfl
@[simp] theorem State.onSdc_vst : (s.onSdc f).vst = s.vst := rfl
@[simp] theorem State.onSdc_inj : (s.onSdc f).inj = s.inj := rfl
@[simp] theorem State.onSdc_ann : (s.onSdc f).ann = s.ann := rfl
@[simp] theorem State.onSdc_sdc : (s.onSdc f).sdc = f s.sdc := rfl
@[simp] theorem State.onSdc_alcoves : (s.onSdc f).alcoves = s.alcoves := rfl
@[simp] theorem State.onSdc_hcs : (s.onSdc f).hcs = s.hcs := rfl
@[simp] theorem State.onSdc_out : (s.onSdc f).out = s.out := rfl
@[simp] theorem State.onSdc_drawn : (s.onSdc f).drawn = s.drawn := rfl
end

/-! ## `State.onVst` -/

section
variable (s : State) (f : VstSt → VstSt)
@[simp] theorem State.onVst_pending : (s.onVst f).pending = s.pending := rfl
@[simp] theorem State.onVst_order : (s.onVst f).order = s.order := rfl
@[simp] theorem State.onVst_regs : (s.onVst f).regs = s.regs := rfl
@[simp] theorem State.onVst_readData : (s.onVst f).readData = s.readData := rfl
@[simp] theorem State.onVst_time : (s.onVst f).time = s.time := rfl
@[simp] theorem State.onVst_ic : (s.onVst f).ic = s.ic := rfl
@[simp] theorem State.onVst_ras : (s.onVst f).ras = s.ras := rfl
@[simp] theorem State.onVst_pwr : (s.onVst f).pwr = s.pwr := rfl
@[simp] theorem State.onVst_part : (s.onVst f).part = s.part := rfl
@[simp] theorem State.onVst_host : (s.onVst f).host = s.host := rfl
@[simp] theorem State.onVst_boot : (s.onVst f).boot = s.boot := rfl
@[simp] theorem State.onVst_clz : (s.onVst f).clz = s.clz := rfl
@[simp] theorem State.onVst_mem : (s.onVst f).mem = s.mem := rfl
@[simp] theorem State.onVst_hbm : (s.onVst f).hbm = s.hbm := rfl
@[simp] theorem State.onVst_sync : (s.onVst f).sync = s.sync := rfl
@[simp] theorem State.onVst_vst : (s.onVst f).vst = f s.vst := rfl
@[simp] theorem State.onVst_inj : (s.onVst f).inj = s.inj := rfl
@[simp] theorem State.onVst_ann : (s.onVst f).ann = s.ann := rfl
@[simp] theorem State.onVst_sdc : (s.onVst f).sdc = s.sdc := rfl
@[simp] theorem State.onVst_alcoves : (s.onVst f).alcoves = s.alcoves := rfl
@[simp] theorem State.onVst_hcs : (s.onVst f).hcs = s.hcs := rfl
@[simp] theorem State.onVst_out : (s.onVst f).out = s.out := rfl
@[simp] theorem State.onVst_drawn : (s.onVst f).drawn = s.drawn := rfl
end

/-! ## `State.setAlcove` -/

section
variable (s : State) (n : Nat) (a : Alcove)
@[simp] theorem State.setAlcove_pending : (s.setAlcove n a).pending = s.pending := rfl
@[simp] theorem State.setAlcove_order : (s.setAlcove n a).order = s.order := rfl
@[simp] theorem State.setAlcove_regs : (s.setAlcove n a).regs = s.regs := rfl
@[simp] theorem State.setAlcove_readData : (s.setAlcove n a).readData = s.readData := rfl
@[simp] theorem State.setAlcove_time : (s.setAlcove n a).time = s.time := rfl
@[simp] theorem State.setAlcove_ic : (s.setAlcove n a).ic = s.ic := rfl
@[simp] theorem State.setAlcove_ras : (s.setAlcove n a).ras = s.ras := rfl
@[simp] theorem State.setAlcove_pwr : (s.setAlcove n a).pwr = s.pwr := rfl
@[simp] theorem State.setAlcove_part : (s.setAlcove n a).part = s.part := rfl
@[simp] theorem State.setAlcove_host : (s.setAlcove n a).host = s.host := rfl
@[simp] theorem State.setAlcove_boot : (s.setAlcove n a).boot = s.boot := rfl
@[simp] theorem State.setAlcove_clz : (s.setAlcove n a).clz = s.clz := rfl
@[simp] theorem State.setAlcove_mem : (s.setAlcove n a).mem = s.mem := rfl
@[simp] theorem State.setAlcove_hbm : (s.setAlcove n a).hbm = s.hbm := rfl
@[simp] theorem State.setAlcove_sync : (s.setAlcove n a).sync = s.sync := rfl
@[simp] theorem State.setAlcove_vst : (s.setAlcove n a).vst = s.vst := rfl
@[simp] theorem State.setAlcove_inj : (s.setAlcove n a).inj = s.inj := rfl
@[simp] theorem State.setAlcove_ann : (s.setAlcove n a).ann = s.ann := rfl
@[simp] theorem State.setAlcove_sdc : (s.setAlcove n a).sdc = s.sdc := rfl
@[simp] theorem State.setAlcove_hcs : (s.setAlcove n a).hcs = s.hcs := rfl
@[simp] theorem State.setAlcove_out : (s.setAlcove n a).out = s.out := rfl
@[simp] theorem State.setAlcove_drawn : (s.setAlcove n a).drawn = s.drawn := rfl
end

/-! ## `State.onAlcove` -/

section
variable (s : State) (n : Nat) (f : Alcove → Alcove)
@[simp] theorem State.onAlcove_pending : (s.onAlcove n f).pending = s.pending := rfl
@[simp] theorem State.onAlcove_order : (s.onAlcove n f).order = s.order := rfl
@[simp] theorem State.onAlcove_regs : (s.onAlcove n f).regs = s.regs := rfl
@[simp] theorem State.onAlcove_readData : (s.onAlcove n f).readData = s.readData := rfl
@[simp] theorem State.onAlcove_time : (s.onAlcove n f).time = s.time := rfl
@[simp] theorem State.onAlcove_ic : (s.onAlcove n f).ic = s.ic := rfl
@[simp] theorem State.onAlcove_ras : (s.onAlcove n f).ras = s.ras := rfl
@[simp] theorem State.onAlcove_pwr : (s.onAlcove n f).pwr = s.pwr := rfl
@[simp] theorem State.onAlcove_part : (s.onAlcove n f).part = s.part := rfl
@[simp] theorem State.onAlcove_host : (s.onAlcove n f).host = s.host := rfl
@[simp] theorem State.onAlcove_boot : (s.onAlcove n f).boot = s.boot := rfl
@[simp] theorem State.onAlcove_clz : (s.onAlcove n f).clz = s.clz := rfl
@[simp] theorem State.onAlcove_mem : (s.onAlcove n f).mem = s.mem := rfl
@[simp] theorem State.onAlcove_hbm : (s.onAlcove n f).hbm = s.hbm := rfl
@[simp] theorem State.onAlcove_sync : (s.onAlcove n f).sync = s.sync := rfl
@[simp] theorem State.onAlcove_vst : (s.onAlcove n f).vst = s.vst := rfl
@[simp] theorem State.onAlcove_inj : (s.onAlcove n f).inj = s.inj := rfl
@[simp] theorem State.onAlcove_ann : (s.onAlcove n f).ann = s.ann := rfl
@[simp] theorem State.onAlcove_sdc : (s.onAlcove n f).sdc = s.sdc := rfl
@[simp] theorem State.onAlcove_hcs : (s.onAlcove n f).hcs = s.hcs := rfl
@[simp] theorem State.onAlcove_out : (s.onAlcove n f).out = s.out := rfl
@[simp] theorem State.onAlcove_drawn : (s.onAlcove n f).drawn = s.drawn := rfl
end

/-! ## `State.setHc` -/

section
variable (s : State) (h : Nat) (c : HallCtl)
@[simp] theorem State.setHc_pending : (s.setHc h c).pending = s.pending := rfl
@[simp] theorem State.setHc_order : (s.setHc h c).order = s.order := rfl
@[simp] theorem State.setHc_regs : (s.setHc h c).regs = s.regs := rfl
@[simp] theorem State.setHc_readData : (s.setHc h c).readData = s.readData := rfl
@[simp] theorem State.setHc_time : (s.setHc h c).time = s.time := rfl
@[simp] theorem State.setHc_ic : (s.setHc h c).ic = s.ic := rfl
@[simp] theorem State.setHc_ras : (s.setHc h c).ras = s.ras := rfl
@[simp] theorem State.setHc_pwr : (s.setHc h c).pwr = s.pwr := rfl
@[simp] theorem State.setHc_part : (s.setHc h c).part = s.part := rfl
@[simp] theorem State.setHc_host : (s.setHc h c).host = s.host := rfl
@[simp] theorem State.setHc_boot : (s.setHc h c).boot = s.boot := rfl
@[simp] theorem State.setHc_clz : (s.setHc h c).clz = s.clz := rfl
@[simp] theorem State.setHc_mem : (s.setHc h c).mem = s.mem := rfl
@[simp] theorem State.setHc_hbm : (s.setHc h c).hbm = s.hbm := rfl
@[simp] theorem State.setHc_sync : (s.setHc h c).sync = s.sync := rfl
@[simp] theorem State.setHc_vst : (s.setHc h c).vst = s.vst := rfl
@[simp] theorem State.setHc_inj : (s.setHc h c).inj = s.inj := rfl
@[simp] theorem State.setHc_ann : (s.setHc h c).ann = s.ann := rfl
@[simp] theorem State.setHc_sdc : (s.setHc h c).sdc = s.sdc := rfl
@[simp] theorem State.setHc_alcoves : (s.setHc h c).alcoves = s.alcoves := rfl
@[simp] theorem State.setHc_out : (s.setHc h c).out = s.out := rfl
@[simp] theorem State.setHc_drawn : (s.setHc h c).drawn = s.drawn := rfl
end

/-! ## `State.onHc` -/

section
variable (s : State) (h : Nat) (f : HallCtl → HallCtl)
@[simp] theorem State.onHc_pending : (s.onHc h f).pending = s.pending := rfl
@[simp] theorem State.onHc_order : (s.onHc h f).order = s.order := rfl
@[simp] theorem State.onHc_regs : (s.onHc h f).regs = s.regs := rfl
@[simp] theorem State.onHc_readData : (s.onHc h f).readData = s.readData := rfl
@[simp] theorem State.onHc_time : (s.onHc h f).time = s.time := rfl
@[simp] theorem State.onHc_ic : (s.onHc h f).ic = s.ic := rfl
@[simp] theorem State.onHc_ras : (s.onHc h f).ras = s.ras := rfl
@[simp] theorem State.onHc_pwr : (s.onHc h f).pwr = s.pwr := rfl
@[simp] theorem State.onHc_part : (s.onHc h f).part = s.part := rfl
@[simp] theorem State.onHc_host : (s.onHc h f).host = s.host := rfl
@[simp] theorem State.onHc_boot : (s.onHc h f).boot = s.boot := rfl
@[simp] theorem State.onHc_clz : (s.onHc h f).clz = s.clz := rfl
@[simp] theorem State.onHc_mem : (s.onHc h f).mem = s.mem := rfl
@[simp] theorem State.onHc_hbm : (s.onHc h f).hbm = s.hbm := rfl
@[simp] theorem State.onHc_sync : (s.onHc h f).sync = s.sync := rfl
@[simp] theorem State.onHc_vst : (s.onHc h f).vst = s.vst := rfl
@[simp] theorem State.onHc_inj : (s.onHc h f).inj = s.inj := rfl
@[simp] theorem State.onHc_ann : (s.onHc h f).ann = s.ann := rfl
@[simp] theorem State.onHc_sdc : (s.onHc h f).sdc = s.sdc := rfl
@[simp] theorem State.onHc_alcoves : (s.onHc h f).alcoves = s.alcoves := rfl
@[simp] theorem State.onHc_out : (s.onHc h f).out = s.out := rfl
@[simp] theorem State.onHc_drawn : (s.onHc h f).drawn = s.drawn := rfl
end

/-! ## `State.setAnn` -/

section
variable (s : State) (h : Nat) (x : Option AnnRun)
@[simp] theorem State.setAnn_pending : (s.setAnn h x).pending = s.pending := rfl
@[simp] theorem State.setAnn_order : (s.setAnn h x).order = s.order := rfl
@[simp] theorem State.setAnn_regs : (s.setAnn h x).regs = s.regs := rfl
@[simp] theorem State.setAnn_readData : (s.setAnn h x).readData = s.readData := rfl
@[simp] theorem State.setAnn_time : (s.setAnn h x).time = s.time := rfl
@[simp] theorem State.setAnn_ic : (s.setAnn h x).ic = s.ic := rfl
@[simp] theorem State.setAnn_ras : (s.setAnn h x).ras = s.ras := rfl
@[simp] theorem State.setAnn_pwr : (s.setAnn h x).pwr = s.pwr := rfl
@[simp] theorem State.setAnn_part : (s.setAnn h x).part = s.part := rfl
@[simp] theorem State.setAnn_host : (s.setAnn h x).host = s.host := rfl
@[simp] theorem State.setAnn_boot : (s.setAnn h x).boot = s.boot := rfl
@[simp] theorem State.setAnn_clz : (s.setAnn h x).clz = s.clz := rfl
@[simp] theorem State.setAnn_mem : (s.setAnn h x).mem = s.mem := rfl
@[simp] theorem State.setAnn_hbm : (s.setAnn h x).hbm = s.hbm := rfl
@[simp] theorem State.setAnn_sync : (s.setAnn h x).sync = s.sync := rfl
@[simp] theorem State.setAnn_vst : (s.setAnn h x).vst = s.vst := rfl
@[simp] theorem State.setAnn_inj : (s.setAnn h x).inj = s.inj := rfl
@[simp] theorem State.setAnn_sdc : (s.setAnn h x).sdc = s.sdc := rfl
@[simp] theorem State.setAnn_alcoves : (s.setAnn h x).alcoves = s.alcoves := rfl
@[simp] theorem State.setAnn_hcs : (s.setAnn h x).hcs = s.hcs := rfl
@[simp] theorem State.setAnn_out : (s.setAnn h x).out = s.out := rfl
@[simp] theorem State.setAnn_drawn : (s.setAnn h x).drawn = s.drawn := rfl
end

/-! ## `State.emit` -/

section
variable (s : State) (x : Out)
@[simp] theorem State.emit_pending : (s.emit x).pending = s.pending := rfl
@[simp] theorem State.emit_order : (s.emit x).order = s.order := rfl
@[simp] theorem State.emit_regs : (s.emit x).regs = s.regs := rfl
@[simp] theorem State.emit_readData : (s.emit x).readData = s.readData := rfl
@[simp] theorem State.emit_time : (s.emit x).time = s.time := rfl
@[simp] theorem State.emit_ic : (s.emit x).ic = s.ic := rfl
@[simp] theorem State.emit_ras : (s.emit x).ras = s.ras := rfl
@[simp] theorem State.emit_pwr : (s.emit x).pwr = s.pwr := rfl
@[simp] theorem State.emit_part : (s.emit x).part = s.part := rfl
@[simp] theorem State.emit_host : (s.emit x).host = s.host := rfl
@[simp] theorem State.emit_boot : (s.emit x).boot = s.boot := rfl
@[simp] theorem State.emit_clz : (s.emit x).clz = s.clz := rfl
@[simp] theorem State.emit_mem : (s.emit x).mem = s.mem := rfl
@[simp] theorem State.emit_hbm : (s.emit x).hbm = s.hbm := rfl
@[simp] theorem State.emit_sync : (s.emit x).sync = s.sync := rfl
@[simp] theorem State.emit_vst : (s.emit x).vst = s.vst := rfl
@[simp] theorem State.emit_inj : (s.emit x).inj = s.inj := rfl
@[simp] theorem State.emit_ann : (s.emit x).ann = s.ann := rfl
@[simp] theorem State.emit_sdc : (s.emit x).sdc = s.sdc := rfl
@[simp] theorem State.emit_alcoves : (s.emit x).alcoves = s.alcoves := rfl
@[simp] theorem State.emit_hcs : (s.emit x).hcs = s.hcs := rfl
@[simp] theorem State.emit_drawn : (s.emit x).drawn = s.drawn := rfl
end

/-! ## `State.setPort` -/

section
variable (s : State) (p : Nat) (x : Port)
@[simp] theorem State.setPort_pending : (s.setPort p x).pending = s.pending := rfl
@[simp] theorem State.setPort_order : (s.setPort p x).order = s.order := rfl
@[simp] theorem State.setPort_regs : (s.setPort p x).regs = s.regs := rfl
@[simp] theorem State.setPort_readData : (s.setPort p x).readData = s.readData := rfl
@[simp] theorem State.setPort_time : (s.setPort p x).time = s.time := rfl
@[simp] theorem State.setPort_ic : (s.setPort p x).ic = s.ic := rfl
@[simp] theorem State.setPort_ras : (s.setPort p x).ras = s.ras := rfl
@[simp] theorem State.setPort_pwr : (s.setPort p x).pwr = s.pwr := rfl
@[simp] theorem State.setPort_part : (s.setPort p x).part = s.part := rfl
@[simp] theorem State.setPort_host : (s.setPort p x).host = s.host := rfl
@[simp] theorem State.setPort_boot : (s.setPort p x).boot = s.boot := rfl
@[simp] theorem State.setPort_mem : (s.setPort p x).mem = s.mem := rfl
@[simp] theorem State.setPort_hbm : (s.setPort p x).hbm = s.hbm := rfl
@[simp] theorem State.setPort_sync : (s.setPort p x).sync = s.sync := rfl
@[simp] theorem State.setPort_vst : (s.setPort p x).vst = s.vst := rfl
@[simp] theorem State.setPort_inj : (s.setPort p x).inj = s.inj := rfl
@[simp] theorem State.setPort_ann : (s.setPort p x).ann = s.ann := rfl
@[simp] theorem State.setPort_sdc : (s.setPort p x).sdc = s.sdc := rfl
@[simp] theorem State.setPort_alcoves : (s.setPort p x).alcoves = s.alcoves := rfl
@[simp] theorem State.setPort_hcs : (s.setPort p x).hcs = s.hcs := rfl
@[simp] theorem State.setPort_out : (s.setPort p x).out = s.out := rfl
@[simp] theorem State.setPort_drawn : (s.setPort p x).drawn = s.drawn := rfl
end

/-! ## `State.setReg` -/

section
variable (s : State) (r : Reg) (w i x : Nat)
@[simp] theorem State.setReg_pending : (s.setReg r w i x).pending = s.pending := rfl
@[simp] theorem State.setReg_order : (s.setReg r w i x).order = s.order := rfl
@[simp] theorem State.setReg_readData : (s.setReg r w i x).readData = s.readData := rfl
@[simp] theorem State.setReg_time : (s.setReg r w i x).time = s.time := rfl
@[simp] theorem State.setReg_ic : (s.setReg r w i x).ic = s.ic := rfl
@[simp] theorem State.setReg_ras : (s.setReg r w i x).ras = s.ras := rfl
@[simp] theorem State.setReg_pwr : (s.setReg r w i x).pwr = s.pwr := rfl
@[simp] theorem State.setReg_part : (s.setReg r w i x).part = s.part := rfl
@[simp] theorem State.setReg_host : (s.setReg r w i x).host = s.host := rfl
@[simp] theorem State.setReg_boot : (s.setReg r w i x).boot = s.boot := rfl
@[simp] theorem State.setReg_clz : (s.setReg r w i x).clz = s.clz := rfl
@[simp] theorem State.setReg_mem : (s.setReg r w i x).mem = s.mem := rfl
@[simp] theorem State.setReg_hbm : (s.setReg r w i x).hbm = s.hbm := rfl
@[simp] theorem State.setReg_sync : (s.setReg r w i x).sync = s.sync := rfl
@[simp] theorem State.setReg_vst : (s.setReg r w i x).vst = s.vst := rfl
@[simp] theorem State.setReg_inj : (s.setReg r w i x).inj = s.inj := rfl
@[simp] theorem State.setReg_ann : (s.setReg r w i x).ann = s.ann := rfl
@[simp] theorem State.setReg_sdc : (s.setReg r w i x).sdc = s.sdc := rfl
@[simp] theorem State.setReg_alcoves : (s.setReg r w i x).alcoves = s.alcoves := rfl
@[simp] theorem State.setReg_hcs : (s.setReg r w i x).hcs = s.hcs := rfl
@[simp] theorem State.setReg_out : (s.setReg r w i x).out = s.out := rfl
@[simp] theorem State.setReg_drawn : (s.setReg r w i x).drawn = s.drawn := rfl
end

/-! ## `State.setFld` -/

section
variable (s : State) (f : Fld) (x w i : Nat)
@[simp] theorem State.setFld_pending : (s.setFld f x w i).pending = s.pending := rfl
@[simp] theorem State.setFld_order : (s.setFld f x w i).order = s.order := rfl
@[simp] theorem State.setFld_readData : (s.setFld f x w i).readData = s.readData := rfl
@[simp] theorem State.setFld_time : (s.setFld f x w i).time = s.time := rfl
@[simp] theorem State.setFld_ic : (s.setFld f x w i).ic = s.ic := rfl
@[simp] theorem State.setFld_ras : (s.setFld f x w i).ras = s.ras := rfl
@[simp] theorem State.setFld_pwr : (s.setFld f x w i).pwr = s.pwr := rfl
@[simp] theorem State.setFld_part : (s.setFld f x w i).part = s.part := rfl
@[simp] theorem State.setFld_host : (s.setFld f x w i).host = s.host := rfl
@[simp] theorem State.setFld_boot : (s.setFld f x w i).boot = s.boot := rfl
@[simp] theorem State.setFld_clz : (s.setFld f x w i).clz = s.clz := rfl
@[simp] theorem State.setFld_mem : (s.setFld f x w i).mem = s.mem := rfl
@[simp] theorem State.setFld_hbm : (s.setFld f x w i).hbm = s.hbm := rfl
@[simp] theorem State.setFld_sync : (s.setFld f x w i).sync = s.sync := rfl
@[simp] theorem State.setFld_vst : (s.setFld f x w i).vst = s.vst := rfl
@[simp] theorem State.setFld_inj : (s.setFld f x w i).inj = s.inj := rfl
@[simp] theorem State.setFld_ann : (s.setFld f x w i).ann = s.ann := rfl
@[simp] theorem State.setFld_sdc : (s.setFld f x w i).sdc = s.sdc := rfl
@[simp] theorem State.setFld_alcoves : (s.setFld f x w i).alcoves = s.alcoves := rfl
@[simp] theorem State.setFld_hcs : (s.setFld f x w i).hcs = s.hcs := rfl
@[simp] theorem State.setFld_out : (s.setFld f x w i).out = s.out := rfl
@[simp] theorem State.setFld_drawn : (s.setFld f x w i).drawn = s.drawn := rfl
end

/-! ## `State.addFld` -/

section
variable (s : State) (f : Fld) (n w i : Nat)
@[simp] theorem State.addFld_pending : (s.addFld f n w i).pending = s.pending := rfl
@[simp] theorem State.addFld_order : (s.addFld f n w i).order = s.order := rfl
@[simp] theorem State.addFld_readData : (s.addFld f n w i).readData = s.readData := rfl
@[simp] theorem State.addFld_time : (s.addFld f n w i).time = s.time := rfl
@[simp] theorem State.addFld_ic : (s.addFld f n w i).ic = s.ic := rfl
@[simp] theorem State.addFld_ras : (s.addFld f n w i).ras = s.ras := rfl
@[simp] theorem State.addFld_pwr : (s.addFld f n w i).pwr = s.pwr := rfl
@[simp] theorem State.addFld_part : (s.addFld f n w i).part = s.part := rfl
@[simp] theorem State.addFld_host : (s.addFld f n w i).host = s.host := rfl
@[simp] theorem State.addFld_boot : (s.addFld f n w i).boot = s.boot := rfl
@[simp] theorem State.addFld_clz : (s.addFld f n w i).clz = s.clz := rfl
@[simp] theorem State.addFld_mem : (s.addFld f n w i).mem = s.mem := rfl
@[simp] theorem State.addFld_hbm : (s.addFld f n w i).hbm = s.hbm := rfl
@[simp] theorem State.addFld_sync : (s.addFld f n w i).sync = s.sync := rfl
@[simp] theorem State.addFld_vst : (s.addFld f n w i).vst = s.vst := rfl
@[simp] theorem State.addFld_inj : (s.addFld f n w i).inj = s.inj := rfl
@[simp] theorem State.addFld_ann : (s.addFld f n w i).ann = s.ann := rfl
@[simp] theorem State.addFld_sdc : (s.addFld f n w i).sdc = s.sdc := rfl
@[simp] theorem State.addFld_alcoves : (s.addFld f n w i).alcoves = s.alcoves := rfl
@[simp] theorem State.addFld_hcs : (s.addFld f n w i).hcs = s.hcs := rfl
@[simp] theorem State.addFld_out : (s.addFld f n w i).out = s.out := rfl
@[simp] theorem State.addFld_drawn : (s.addFld f n w i).drawn = s.drawn := rfl
end

/-! ## `State.wrapFld` -/

section
variable (s : State) (f : Fld) (n w i : Nat)
@[simp] theorem State.wrapFld_pending : (s.wrapFld f n w i).pending = s.pending := rfl
@[simp] theorem State.wrapFld_order : (s.wrapFld f n w i).order = s.order := rfl
@[simp] theorem State.wrapFld_readData : (s.wrapFld f n w i).readData = s.readData := rfl
@[simp] theorem State.wrapFld_time : (s.wrapFld f n w i).time = s.time := rfl
@[simp] theorem State.wrapFld_ic : (s.wrapFld f n w i).ic = s.ic := rfl
@[simp] theorem State.wrapFld_ras : (s.wrapFld f n w i).ras = s.ras := rfl
@[simp] theorem State.wrapFld_pwr : (s.wrapFld f n w i).pwr = s.pwr := rfl
@[simp] theorem State.wrapFld_part : (s.wrapFld f n w i).part = s.part := rfl
@[simp] theorem State.wrapFld_host : (s.wrapFld f n w i).host = s.host := rfl
@[simp] theorem State.wrapFld_boot : (s.wrapFld f n w i).boot = s.boot := rfl
@[simp] theorem State.wrapFld_clz : (s.wrapFld f n w i).clz = s.clz := rfl
@[simp] theorem State.wrapFld_mem : (s.wrapFld f n w i).mem = s.mem := rfl
@[simp] theorem State.wrapFld_hbm : (s.wrapFld f n w i).hbm = s.hbm := rfl
@[simp] theorem State.wrapFld_sync : (s.wrapFld f n w i).sync = s.sync := rfl
@[simp] theorem State.wrapFld_vst : (s.wrapFld f n w i).vst = s.vst := rfl
@[simp] theorem State.wrapFld_inj : (s.wrapFld f n w i).inj = s.inj := rfl
@[simp] theorem State.wrapFld_ann : (s.wrapFld f n w i).ann = s.ann := rfl
@[simp] theorem State.wrapFld_sdc : (s.wrapFld f n w i).sdc = s.sdc := rfl
@[simp] theorem State.wrapFld_alcoves : (s.wrapFld f n w i).alcoves = s.alcoves := rfl
@[simp] theorem State.wrapFld_hcs : (s.wrapFld f n w i).hcs = s.hcs := rfl
@[simp] theorem State.wrapFld_out : (s.wrapFld f n w i).out = s.out := rfl
@[simp] theorem State.wrapFld_drawn : (s.wrapFld f n w i).drawn = s.drawn := rfl
end

/-! ## What an update puts in place -/

@[simp] theorem State.alcove_setAlcove_same (s : State) (n : Nat) (a : Alcove) : (s.setAlcove n a).alcove n = a := by
  simp [State.alcove, State.setAlcove]

theorem State.alcove_setAlcove_other (s : State) {n k : Nat} (a : Alcove) (h : k ≠ n) :
    (s.setAlcove n a).alcove k = s.alcove k := by
  simp [State.alcove, State.setAlcove, tget_tset_other, h]

@[simp] theorem State.alcove_onAlcove_same (s : State) (n : Nat) (f : Alcove → Alcove) :
    (s.onAlcove n f).alcove n = f (s.alcove n) := by
  simp [State.onAlcove]

theorem State.alcove_onAlcove_other (s : State) {n k : Nat} (f : Alcove → Alcove) (h : k ≠ n) :
    (s.onAlcove n f).alcove k = s.alcove k := by
  simp [State.onAlcove, State.alcove_setAlcove_other, h]

@[simp] theorem State.hc_setHc_same (s : State) (h : Nat) (c : HallCtl) : (s.setHc h c).hc h = c := by
  simp [State.hc, State.setHc]

theorem State.hc_setHc_other (s : State) {h k : Nat} (c : HallCtl) (hk : k ≠ h) : (s.setHc h c).hc k = s.hc k := by
  simp [State.hc, State.setHc, tget_tset_other, hk]

@[simp] theorem State.hc_onHc_same (s : State) (h : Nat) (f : HallCtl → HallCtl) : (s.onHc h f).hc h = f (s.hc h) := by
  simp [State.onHc]

@[simp] theorem State.port_setPort_same (s : State) (p : Nat) (x : Port) : (s.setPort p x).port p = x := by
  simp [State.port, State.setPort]

theorem State.port_setPort_other (s : State) {p k : Nat} (x : Port) (h : k ≠ p) : (s.setPort p x).port k = s.port k := by
  simp [State.port, State.setPort, tget_tset_other, h]

@[simp] theorem State.port_onPort_same (s : State) (p : Nat) (f : Port → Port) : (s.onPort p f).port p = f (s.port p) := by
  simp [State.onPort]

@[simp] theorem State.annRun_setAnn_same (s : State) (h : Nat) (x : Option AnnRun) : (s.setAnn h x).annRun h = x := by
  simp [State.annRun, State.setAnn]

end Sys2Proof.Machine
end

