-- ==== Sys2Proof/Laws/Regs.lean ====
section
/-! SUPPORT. Laws of package registers and their fields: a written field reads back, and other fields and registers are
left alone. -/

namespace Sys2Proof.Machine

/-! ## Bit fields -/

theorem bits_lt (n hi lo : Nat) : bits n hi lo < 2 ^ (hi + 1 - lo) := Nat.mod_lt _ (Nat.two_pow_pos _)

theorem testBit_bits (n hi lo j : Nat) : (bits n hi lo).testBit j = (decide (j < hi + 1 - lo) && n.testBit (lo + j)) := by
  simp [bits, Nat.testBit_mod_two_pow, Nat.testBit_div_two_pow, Nat.add_comm]

/-- A number split at the bounds of a field. -/
theorem putBits_split (n hi lo x : Nat) :
    putBits n hi lo x =
      2 ^ lo * (2 ^ (hi + 1 - lo) * (n / 2 ^ lo / 2 ^ (hi + 1 - lo)) + x % 2 ^ (hi + 1 - lo)) + n % 2 ^ lo := by
  have h1 := Nat.div_add_mod n (2 ^ lo)
  have h2 := Nat.div_add_mod (n / 2 ^ lo) (2 ^ (hi + 1 - lo))
  unfold putBits bits
  generalize n / 2 ^ lo / 2 ^ (hi + 1 - lo) = h at *
  generalize n / 2 ^ lo % 2 ^ (hi + 1 - lo) = m at *
  generalize x % 2 ^ (hi + 1 - lo) = y
  generalize n % 2 ^ lo = a at *
  rw [← h2] at h1
  have h3 : n - m * 2 ^ lo = 2 ^ lo * (2 ^ (hi + 1 - lo) * h) + a := by
    rw [← h1, Nat.mul_add]
    have : m * 2 ^ lo = 2 ^ lo * m := Nat.mul_comm _ _
    omega
  rw [h3, Nat.mul_add]
  have : y * 2 ^ lo = 2 ^ lo * y := Nat.mul_comm _ _
  omega

theorem testBit_putBits (n hi lo x j : Nat) :
    (putBits n hi lo x).testBit j =
      if lo ≤ j ∧ j < lo + (hi + 1 - lo) then x.testBit (j - lo) else n.testBit j := by
  rw [putBits_split, Nat.testBit_two_pow_mul_add _ (Nat.mod_lt _ (Nat.two_pow_pos _))]
  split
  · rename_i h
    have : ¬(lo ≤ j ∧ j < lo + (hi + 1 - lo)) := by omega
    simp [this, Nat.testBit_mod_two_pow, h]
  · rename_i h
    rw [Nat.testBit_two_pow_mul_add _ (Nat.mod_lt _ (Nat.two_pow_pos _))]
    split
    · rename_i h2
      have : lo ≤ j ∧ j < lo + (hi + 1 - lo) := by omega
      simp [this, Nat.testBit_mod_two_pow, h2]
    · rename_i h2
      have : ¬(lo ≤ j ∧ j < lo + (hi + 1 - lo)) := by omega
      simp only [this, ↓reduceIte, Nat.testBit_div_two_pow]
      congr 1
      omega

theorem bits_putBits_same (n hi lo x : Nat) : bits (putBits n hi lo x) hi lo = x % 2 ^ (hi + 1 - lo) := by
  apply Nat.eq_of_testBit_eq
  intro j
  rw [testBit_bits, testBit_putBits, Nat.testBit_mod_two_pow]
  by_cases h : j < hi + 1 - lo
  · have : lo ≤ lo + j ∧ lo + j < lo + (hi + 1 - lo) := by omega
    simp [h, this]
  · simp [h]

theorem bits_putBits_other (n hi lo x hi' lo' : Nat) (h : hi' < lo ∨ hi < lo') :
    bits (putBits n hi lo x) hi' lo' = bits n hi' lo' := by
  apply Nat.eq_of_testBit_eq
  intro j
  rw [testBit_bits, testBit_bits, testBit_putBits]
  by_cases hj : j < hi' + 1 - lo'
  · have : ¬(lo ≤ lo' + j ∧ lo' + j < lo + (hi + 1 - lo)) := by omega
    simp [this]
  · simp [hj]

theorem putBits_lt (n hi lo x : Nat) (hn : n < 2 ^ 32) (hh : hi < 32) : putBits n hi lo x < 2 ^ 32 := by
  apply Nat.lt_pow_two_of_testBit
  intro j hj
  rw [testBit_putBits]
  split
  · omega
  · exact Nat.testBit_lt_two_pow (Nat.lt_of_lt_of_le hn (Nat.pow_le_pow_right (by omega) hj))

/-! ## Registers -/

theorem State.reg_lt (s : State) (r : Reg) (w i : Nat) : s.reg r w i < 2 ^ 32 := (tget _ _ _ : W32).isLt

@[simp] theorem State.reg_setReg_same (s : State) (r : Reg) (w i x : Nat) :
    (s.setReg r w i x).reg r w i = x % 2 ^ 32 := by
  simp [State.reg, State.setReg]

theorem State.reg_setReg_other (s : State) (r r' : Reg) (w i w' i' x : Nat) (h : r'.addr w' i' ≠ r.addr w i) :
    (s.setReg r w i x).reg r' w' i' = s.reg r' w' i' := by
  simp only [State.reg, State.setReg]
  by_cases hx : BitVec.ofNat 32 x = BitVec.ofNat 32 r.resetVal
  · simp only [tset, hx, ↓reduceIte, tget, tfind_tdel_other _ h]
  · simp only [tset, hx, ↓reduceIte, tget, tfind_tins_other _ _ h]

/-- A field whose bits lie in a register. -/
def Fld.fits (f : Fld) : Prop := f.hi < 32

theorem State.fld_setFld_same (s : State) (f : Fld) (x w i : Nat) (hf : f.fits) :
    (s.setFld f x w i).fld f w i = x % 2 ^ (f.hi + 1 - f.lo) := by
  simp only [State.fld, State.setFld, State.reg_setReg_same, Fld.of, Fld.put]
  rw [Nat.mod_eq_of_lt (putBits_lt _ _ _ _ (s.reg_lt _ _ _) hf), bits_putBits_same]

theorem State.fld_setFld_field (s : State) (f f' : Fld) (x w i : Nat) (hf : f.fits) (hr : f'.reg = f.reg)
    (h : f'.hi < f.lo ∨ f.hi < f'.lo) : (s.setFld f x w i).fld f' w i = s.fld f' w i := by
  simp only [State.fld, State.setFld, hr, State.reg_setReg_same, Fld.of, Fld.put]
  rw [Nat.mod_eq_of_lt (putBits_lt _ _ _ _ (s.reg_lt _ _ _) hf), bits_putBits_other _ _ _ _ _ _ h]

theorem State.fld_setFld_other (s : State) (f f' : Fld) (x w i w' i' : Nat) (h : f'.reg.addr w' i' ≠ f.reg.addr w i) :
    (s.setFld f x w i).fld f' w' i' = s.fld f' w' i' := by
  simp only [State.fld, State.setFld]
  rw [State.reg_setReg_other _ _ _ _ _ _ _ _ h]

end Sys2Proof.Machine
end

