-- ==== Sys2Proof/Laws/RegMap.lean ====
section
/-! SUPPORT. The register map has no overlap: the address of an instance leads back to it (R515 to R517, R524), and a
write by name is the write of that register. -/

namespace Sys2Proof.Machine

/-- The last address of a row. -/
def RegRow.last (x : RegRow) : Nat := x.base + (x.windows - 1) * x.winStride + (x.count - 1) * x.stride

/-- Whether a number divides every step of a row. -/
def RegRow.stepsBy (x : RegRow) (m : Nat) : Bool :=
  (x.windows == 1 || x.winStride % m == 0) && (x.count == 1 || x.stride % m == 0)

/-- The last offset of a row in a window. -/
def RegRow.lastIn (x : RegRow) : Nat := x.base % x.winStride + (x.count - 1) * x.stride

/-- A check that two rows share no address. -/
def RegRow.apart (x y : RegRow) : Bool :=
  decide (x.last < y.base) || decide (y.last < x.base) ||
    (x.stepsBy 16 && y.stepsBy 16 && x.base % 16 != y.base % 16) ||
    (x.stepsBy 8 && y.stepsBy 8 && x.base % 8 != y.base % 8) ||
    (x.winStride == y.winStride && decide (x.lastIn < x.winStride) && decide (y.lastIn < x.winStride) &&
      (decide (x.lastIn < y.base % x.winStride) || decide (y.lastIn < x.base % x.winStride)))

/-- A check that a row's instances have addresses of their own. -/
def RegRow.single (x : RegRow) : Bool :=
  (x.windows == 1 || decide ((x.count - 1) * x.stride < x.winStride)) && (x.count == 1 || decide (0 < x.stride))

/-- The check of one row against the rows of a list. -/
def apartFrom (x : RegRow) : List Reg → Bool
  | [] => true
  | r :: l => x.apart r.row && apartFrom x l

/-- The check of every row and every pair of a list. -/
def allApart : List Reg → Bool
  | [] => true
  | r :: l => r.row.single && apartFrom r.row l && allApart l

theorem map_apart : allApart allRegs = true := by decide +kernel

theorem mem_allRegs (r : Reg) : r ∈ allRegs := by cases r <;> decide +kernel

theorem mod_of_steps (x : RegRow) (m w i : Nat) (h : x.stepsBy m = true) (hw : w < x.windows) (hi : i < x.count) :
    (x.base + w * x.winStride + i * x.stride) % m = x.base % m := by
  simp only [RegRow.stepsBy, Bool.and_eq_true, Bool.or_eq_true, beq_iff_eq] at h
  have hw' : (w * x.winStride) % m = 0 := by
    rcases h.1 with h1 | h1
    · have : w = 0 := by omega
      simp [this]
    · rw [Nat.mul_mod, h1]; simp
  have hi' : (i * x.stride) % m = 0 := by
    rcases h.2 with h1 | h1
    · have : i = 0 := by omega
      simp [this]
    · rw [Nat.mul_mod, h1]; simp
  rw [Nat.add_mod, Nat.add_mod x.base, hw', hi']
  simp

theorem le_last (x : RegRow) (w i : Nat) (hw : w < x.windows) (hi : i < x.count) :
    x.base + w * x.winStride + i * x.stride ≤ x.last := by
  unfold RegRow.last
  have h1 : w * x.winStride ≤ (x.windows - 1) * x.winStride := Nat.mul_le_mul_right _ (by omega)
  have h2 : i * x.stride ≤ (x.count - 1) * x.stride := Nat.mul_le_mul_right _ (by omega)
  omega

theorem mod_in_window (x : RegRow) (w i : Nat) (h : x.lastIn < x.winStride) (hi : i < x.count) :
    (x.base + w * x.winStride + i * x.stride) % x.winStride = x.base % x.winStride + i * x.stride := by
  have h2 : i * x.stride ≤ (x.count - 1) * x.stride := Nat.mul_le_mul_right _ (by omega)
  unfold RegRow.lastIn at h
  have : x.base + w * x.winStride + i * x.stride = x.base + i * x.stride + w * x.winStride := by omega
  rw [this, Nat.add_mul_mod_self_right, ← Nat.mod_add_mod, Nat.mod_eq_of_lt (by omega)]

theorem ne_of_apart (x y : RegRow) (h : x.apart y = true) (w i w' i' : Nat) (hw : w < x.windows) (hi : i < x.count)
    (hw' : w' < y.windows) (hi' : i' < y.count) :
    x.base + w * x.winStride + i * x.stride ≠ y.base + w' * y.winStride + i' * y.stride := by
  intro he
  have l1 := le_last x w i hw hi
  have l2 := le_last y w' i' hw' hi'
  simp only [RegRow.apart, Bool.and_eq_true, Bool.or_eq_true, decide_eq_true_eq, bne_iff_ne, ne_eq, beq_iff_eq] at h
  rcases h with (((h | h) | ⟨⟨h1, h2⟩, h3⟩) | ⟨⟨h1, h2⟩, h3⟩) | ⟨⟨⟨h1, h2⟩, h3⟩, h4⟩
  · omega
  · omega
  · exact h3 (by rw [← mod_of_steps x 16 w i h1 hw hi, he, mod_of_steps y 16 w' i' h2 hw' hi'])
  · exact h3 (by rw [← mod_of_steps x 8 w i h1 hw hi, he, mod_of_steps y 8 w' i' h2 hw' hi'])
  · have e1 := mod_in_window x w i h2 hi
    have e2 := mod_in_window y w' i' (by rw [← h1]; exact h3) hi'
    rw [he, h1, e2] at e1
    have m1 : i * x.stride ≤ (x.count - 1) * x.stride := Nat.mul_le_mul_right _ (by omega)
    have m2 : i' * y.stride ≤ (y.count - 1) * y.stride := Nat.mul_le_mul_right _ (by omega)
    unfold RegRow.lastIn at h4
    rw [h1] at h4
    omega

theorem apartFrom_mem (x : RegRow) (l : List Reg) (h : apartFrom x l = true) (r : Reg) (hr : r ∈ l) :
    x.apart r.row = true := by
  induction l with
  | nil => simp at hr
  | cons q l ih =>
    simp only [apartFrom, Bool.and_eq_true] at h
    rcases List.mem_cons.mp hr with hr | hr
    · exact hr ▸ h.1
    · exact ih h.2 hr

theorem single_of_mem (l : List Reg) (h : allApart l = true) (r : Reg) (hr : r ∈ l) : r.row.single = true := by
  induction l with
  | nil => simp at hr
  | cons q l ih =>
    simp only [allApart, Bool.and_eq_true] at h
    rcases List.mem_cons.mp hr with hr | hr
    · exact hr ▸ h.1.1
    · exact ih h.2 hr

/-- Two registers share no address. -/
theorem addr_ne (l : List Reg) (h : allApart l = true) (r q : Reg) (hr : r ∈ l) (hq : q ∈ l) (hne : r ≠ q)
    (w i w' i' : Nat) (hw : w < r.row.windows) (hi : i < r.row.count) (hw' : w' < q.row.windows) (hi' : i' < q.row.count) :
    r.addr w i ≠ q.addr w' i' := by
  induction l with
  | nil => simp at hr
  | cons p l ih =>
    simp only [allApart, Bool.and_eq_true] at h
    rcases List.mem_cons.mp hr with h1 | h1 <;> rcases List.mem_cons.mp hq with h2 | h2
    · exact absurd (h1.trans h2.symm) hne
    · subst h1
      exact ne_of_apart _ _ (apartFrom_mem _ _ h.1.2 q h2) w i w' i' hw hi hw' hi'
    · subst h2
      exact (ne_of_apart _ _ (apartFrom_mem _ _ h.1.2 r h1) w' i' w i hw' hi' hw hi).symm
    · exact ih h.2 h1 h2

/-- What one register answers at an address with the window and instance computed from it. -/
def Reg.answerWith (r : Reg) (a w i : Nat) : Option (Reg × Nat × Nat) :=
  if r.row.base ≤ a && w < r.row.windows && i < r.row.count && r.addr w i == a then some (r, w, i) else none

/-- What one register answers at an address. -/
def Reg.answer (r : Reg) (a : Nat) : Option (Reg × Nat × Nat) :=
  let x := r.row
  let w := if x.windows = 1 then 0 else (a - x.base) / x.winStride
  let o := a - x.base - w * x.winStride
  let i := if x.count = 1 then 0 else o / x.stride
  r.answerWith a w i

theorem regAt_eq (a : Nat) : regAt a = allRegs.findSome? (·.answer a) := rfl

theorem answer_some (r : Reg) (a : Nat) (x : Reg × Nat × Nat) (h : r.answer a = some x) :
    x.1 = r ∧ x.2.1 < r.row.windows ∧ x.2.2 < r.row.count ∧ r.addr x.2.1 x.2.2 = a := by
  unfold Reg.answer at h
  dsimp only at h
  revert h
  generalize (if r.row.windows = 1 then 0 else (a - r.row.base) / r.row.winStride) = w
  generalize (if r.row.count = 1 then 0 else (a - r.row.base - w * r.row.winStride) / r.row.stride) = i
  intro h
  unfold Reg.answerWith at h
  by_cases hc : (decide (r.row.base ≤ a) && decide (w < r.row.windows) && decide (i < r.row.count) && r.addr w i == a) = true
  · rw [if_pos hc] at h
    injection h with h
    subst h
    simp only [Bool.and_eq_true, decide_eq_true_eq, beq_iff_eq] at hc
    exact ⟨rfl, hc.1.1.2, hc.1.2, hc.2⟩
  · rw [if_neg hc] at h
    cases h

theorem answer_self (r : Reg) (w i : Nat) (hw : w < r.row.windows) (hi : i < r.row.count) :
    r.answer (r.addr w i) = some (r, w, i) := by
  have hs := single_of_mem _ map_apart r (mem_allRegs r)
  simp only [RegRow.single, Bool.and_eq_true, Bool.or_eq_true, decide_eq_true_eq, beq_iff_eq] at hs
  have hm : i * r.row.stride ≤ (r.row.count - 1) * r.row.stride := Nat.mul_le_mul_right _ (by omega)
  have e0 : r.addr w i - r.row.base = w * r.row.winStride + i * r.row.stride := by unfold Reg.addr; omega
  have ew : (if r.row.windows = 1 then 0 else (r.addr w i - r.row.base) / r.row.winStride) = w := by
    split
    · omega
    · rcases hs.1 with h | h
      · omega
      · rw [e0, Nat.add_comm, Nat.add_mul_div_right _ _ (by omega), Nat.div_eq_of_lt (by omega), Nat.zero_add]
  have ei : (if r.row.count = 1 then 0 else (r.addr w i - r.row.base - w * r.row.winStride) / r.row.stride) = i := by
    split
    · omega
    · rcases hs.2 with h | h
      · omega
      · rw [e0, Nat.add_sub_cancel_left, Nat.mul_div_cancel _ h]
  simp only [Reg.answer, ew, ei, Reg.answerWith]
  simp [hw, hi, Reg.addr, Nat.add_assoc]

/-- The address of an instance leads to it. -/
theorem regAt_addr (r : Reg) (w i : Nat) (hw : w < r.row.windows) (hi : i < r.row.count) :
    regAt (r.addr w i) = some (r, w, i) := by
  rw [regAt_eq]
  have key : ∀ l : List Reg, (∀ q ∈ l, q ∈ allRegs) → r ∈ l →
      l.findSome? (·.answer (r.addr w i)) = some (r, w, i) := by
    intro l
    induction l with
    | nil => intro _ h; simp at h
    | cons q l ih =>
      intro hl hr
      by_cases hq : q = r
      · subst hq
        simp [answer_self q w i hw hi]
      · have hn : q.answer (r.addr w i) = none := by
          cases hc : q.answer (r.addr w i) with
          | none => rfl
          | some x =>
            have ⟨_, h2, h3, h4⟩ := answer_some q _ x hc
            exact absurd h4.symm (addr_ne _ map_apart r q (mem_allRegs r) (mem_allRegs q) (Ne.symm hq) w i _ _ hw hi h2 h3)
        simp only [List.findSome?_cons, hn]
        exact ih (fun p hp => hl p (List.mem_cons_of_mem _ hp)) ((List.mem_cons.mp hr).resolve_left (Ne.symm hq))
  exact key allRegs (fun _ h => h) (mem_allRegs r)

/-- Instances of different registers, and different instances of one, lie at different addresses. -/
theorem addr_inj (r q : Reg) (w i w' i' : Nat) (hw : w < r.row.windows) (hi : i < r.row.count)
    (hw' : w' < q.row.windows) (hi' : i' < q.row.count) (h : r.addr w i = q.addr w' i') : r = q ∧ w = w' ∧ i = i' := by
  have h1 := regAt_addr r w i hw hi
  rw [h, regAt_addr q w' i' hw' hi'] at h1
  simp only [Option.some.injEq, Prod.mk.injEq] at h1
  exact ⟨h1.1.symm, h1.2.1.symm, h1.2.2.symm⟩

/-! ## The fields of a register -/

/-- A check that the fields of a list lie in register `r`, apart from one another. -/
def fieldsApart (r : Reg) : List Fld → Bool
  | [] => true
  | f :: l => f.reg == r && decide (f.hi < 32) && decide (f.lo ≤ f.hi) &&
      l.all (fun g => decide (f.hi < g.lo) || decide (g.hi < f.lo)) && fieldsApart r l

theorem reg_fieldsApart (r : Reg) : fieldsApart r r.fields = true := by cases r <;> decide +kernel

theorem fieldsApart_mem (r : Reg) (l : List Fld) (h : fieldsApart r l = true) (f : Fld) (hf : f ∈ l) :
    f.reg = r ∧ f.hi < 32 ∧ f.lo ≤ f.hi := by
  induction l with
  | nil => simp at hf
  | cons g l ih =>
    simp only [fieldsApart, Bool.and_eq_true, beq_iff_eq, decide_eq_true_eq] at h
    rcases List.mem_cons.mp hf with hf | hf
    · subst hf; exact ⟨h.1.1.1.1, h.1.1.1.2, h.1.1.2⟩
    · exact ih h.2 hf

theorem Fld.of_put_same (f : Fld) (v x : Nat) : f.of (f.put v x) = x % 2 ^ (f.hi + 1 - f.lo) := bits_putBits_same _ _ _ _

theorem Fld.of_put_apart (f g : Fld) (v x : Nat) (h : f.hi < g.lo ∨ g.hi < f.lo) : f.of (g.put v x) = f.of v :=
  bits_putBits_other _ _ _ _ _ _ h

theorem Fld.put_of (f : Fld) (v : Nat) : f.put v (f.of v) = v := by
  apply Nat.eq_of_testBit_eq
  intro j
  unfold Fld.put
  rw [testBit_putBits]
  split
  · rename_i h
    unfold Fld.of
    rw [testBit_bits]
    have h1 : j - f.lo < f.hi + 1 - f.lo := by omega
    have h2 : f.lo + (j - f.lo) = j := by omega
    simp [h1, h2]
  · rfl

/-- A field that is not in a list of updates keeps its value. -/
theorem of_fold_apart (l : List Fld) (f : Fld) (v : Nat) (g : Fld → Nat)
    (h : ∀ x ∈ l, f.hi < x.lo ∨ x.hi < f.lo) : f.of (l.foldl (fun x y => y.put x (g y)) v) = f.of v := by
  induction l generalizing v with
  | nil => rfl
  | cons a l ih =>
    rw [List.foldl_cons, ih _ fun x hx => h x (List.mem_cons_of_mem _ hx)]
    exact Fld.of_put_apart _ _ _ _ (h a List.mem_cons_self)

/-- Each field of a register written field by field holds what was written to it. -/
theorem of_fold (r : Reg) (l : List Fld) (hl : fieldsApart r l = true) (f : Fld) (hf : f ∈ l) (v : Nat) (g : Fld → Nat) :
    f.of (l.foldl (fun x y => y.put x (g y)) v) = g f % 2 ^ (f.hi + 1 - f.lo) := by
  induction l generalizing v with
  | nil => simp at hf
  | cons a l ih =>
    simp only [fieldsApart, Bool.and_eq_true, List.all_eq_true, Bool.or_eq_true, decide_eq_true_eq] at hl
    rw [List.foldl_cons]
    by_cases hc : f ∈ l
    · exact ih hl.2 hc _
    · have : f = a := (List.mem_cons.mp hf).resolve_right hc
      subst this
      rw [of_fold_apart l f _ g hl.1.2, Fld.of_put_same]

/-- Fields written with what they hold leave the register as it was. -/
theorem fold_same (l : List Fld) (v : Nat) (g : Fld → Nat) (h : ∀ f ∈ l, g f = f.of v) :
    l.foldl (fun x y => y.put x (g y)) v = v := by
  induction l with
  | nil => rfl
  | cons a l ih =>
    rw [List.foldl_cons, h a List.mem_cons_self, Fld.put_of]
    exact ih fun f hf => h f (List.mem_cons_of_mem _ hf)

theorem fold_lt (r : Reg) (l : List Fld) (hl : fieldsApart r l = true) (v : Nat) (g : Fld → Nat) (hv : v < 2 ^ 32) :
    l.foldl (fun x y => y.put x (g y)) v < 2 ^ 32 := by
  induction l generalizing v with
  | nil => exact hv
  | cons a l ih =>
    have h := fieldsApart_mem r (a :: l) hl a List.mem_cons_self
    simp only [fieldsApart, Bool.and_eq_true] at hl
    exact ih hl.2 _ (putBits_lt _ _ _ _ hv h.2.1)

end Sys2Proof.Machine
end

