-- ==== Sys2Proof/Laws/Command.lean ====
section
/-! SUPPORT. What surrounds a command's own effect: nothing falls due in a quiet state, and a write by name that reaches
its register is that register's write. -/

namespace Sys2Proof.Machine

theorem Answers.intro {c : Instr} {s t : State} {P : State → Prop} (h : exec c s = .next t) (hp : P t) : Answers c s P :=
  ⟨t, h, hp⟩

/-! ## What falls due -/

theorem hardRetires_of_none (s : State) (n : Nat) (h : s.ras.owed.any (·.hard) = false) : s.hardRetires n = s := by
  cases n with
  | zero => rfl
  | succ n =>
    have : s.ras.owed.find? (·.hard) = none := by
      rw [List.find?_eq_none]
      intro x hx
      have := List.any_eq_false.mp h x hx
      simpa using this
    simp [State.hardRetires, this]

theorem adminProgress_of_none (s : State) (v : Nat) (h : (s.adminQ v).wait = none) : s.adminProgress v = s := by
  simp [State.adminProgress, h]

theorem tfind_mem {α : Type} (t : Tbl α) (k : Nat) (x : α) (h : tfind t k = some x) : (k, x) ∈ t := by
  induction t with
  | nil => cases h
  | cons p t ih =>
    obtain ⟨j, w⟩ := p
    simp only [tfind] at h
    split at h
    · rename_i hj
      injection h with h
      subst hj h
      exact List.mem_cons_self
    · exact List.mem_cons_of_mem _ (ih h)

theorem adminQ_wait (s : State) (v : Nat) (h : s.vst.admin.all (fun p => p.2.wait.isNone) = true) :
    (s.adminQ v).wait = none := by
  unfold State.adminQ tget
  cases hf : tfind s.vst.admin v with
  | none => rfl
  | some x =>
    have := List.all_eq_true.mp h _ (tfind_mem _ _ _ hf)
    simpa using this

theorem foldl_id {α β : Type} (l : List α) (s : β) (f : β → α → β) (h : ∀ x ∈ l, f s x = s) : l.foldl f s = s := by
  induction l with
  | nil => rfl
  | cons x l ih =>
    rw [List.foldl_cons, h x List.mem_cons_self]
    exact ih fun y hy => h y (List.mem_cons_of_mem _ hy)

theorem adminProgressAll_of_none (s : State) (h : s.vst.admin.all (fun p => p.2.wait.isNone) = true) :
    s.adminProgressAll = s :=
  foldl_id _ _ _ fun _ _ => adminProgress_of_none _ _ (adminQ_wait _ _ h)

theorem resetProgress_of_none (s : State) (h : s.boot.resets.any (·.waiting) = false) : s.resetProgress = s := by
  apply foldl_id
  intro r hr
  have := List.any_eq_false.mp h r hr
  simp [this]

/-- In a quiet state nothing falls due. -/
theorem settle_of_quiet (s : State) (h : s.quiet = true) : s.settle = s := by
  simp only [State.quiet, Bool.and_eq_true, Bool.not_eq_true'] at h
  rw [State.settle, hardRetires_of_none _ _ h.1.1, adminProgressAll_of_none _ h.1.2, resetProgress_of_none _ h.2]

/-- What quiet looks at. -/
theorem quiet_congr {s t : State} (h1 : t.ras.owed = s.ras.owed) (h2 : t.vst.admin = s.vst.admin)
    (h3 : t.boot.resets = s.boot.resets) : t.quiet = s.quiet := by
  simp [State.quiet, h1, h2, h3]

/-! ## A write by name -/

theorem packageWrite_of_reaches (s : State) (a : Agent) (r : Reg) (w i v : Nat) (same : Option SameUpdate)
    (hw : w < r.row.windows) (hi : i < r.row.count) (h1 : a.mayWrite r i = true) (h2 : s.dark r w = false)
    (h3 : (r != .RAS_BUCKET || isChannel i) = true) : s.packageWrite a (r.addr w i) v same = s.regWrite a r w i v same := by
  have hr : registerAt (r.addr w i) = some (r, w, i) := by
    unfold registerAt
    rw [regAt_addr r w i hw hi]
    split
    · rename_i h
      injection h with h
      cases h
      simp at h3
      simp [h3]
    · rfl
  simp [State.packageWrite, hr, h1, h2]

/-- A write by name that reaches its register is that register's write. -/
theorem namedWrite_of_reaches (s : State) (a : Agent) (r : Reg) (w i v : Nat) (hw : w < r.row.windows)
    (hi : i < r.row.count) (h : s.reaches a r w i = true) :
    doNamedWrite a r w i v s = s.regWrite a r w i (v % 2 ^ 32) none := by
  simp only [State.reaches, Bool.and_eq_true, Bool.not_eq_true'] at h
  obtain ⟨⟨⟨h1, h2⟩, h3⟩, h4⟩ := h
  have key := packageWrite_of_reaches s a r w i (v % 2 ^ 32) none hw hi h1 h2 h3
  cases a with
  | host f =>
    simp only [Bool.and_eq_true] at h4
    obtain ⟨⟨h5, h6⟩, h7⟩ := h4
    simp only [doNamedWrite, State.writeReg, h5, h6, State.hostWrite4, Bool.not_true, Bool.false_eq_true, ↓reduceIte]
    split at h7
    · rename_i x ro hx
      simp only [Bool.and_eq_true, Bool.not_eq_true', beq_iff_eq] at h7
      simpa [hx, h7.1, h7.2] using key
    · cases h7
  | hc _ => simpa [doNamedWrite, State.writeReg, Agent.addrOf] using key
  | pmc => simpa [doNamedWrite, State.writeReg, Agent.addrOf] using key
  | mgt => simpa [doNamedWrite, State.writeReg, Agent.addrOf] using key
  | bridge => simpa [doNamedWrite, State.writeReg, Agent.addrOf] using key

theorem sameFires_none (s : State) (r : Reg) (w : Nat) : s.sameFires r w none = s := by
  have : r.fields.find? (fun _ => false) = none := List.find?_eq_none.mpr (by simp)
  simp [State.sameFires, Fld.updated, this]

/-! ## What a write stores -/

/-- The value that a write by agent `a` makes of a register that holds `old`. -/
def writtenValue (a : Agent) (r : Reg) (old v : Nat) : Nat :=
  r.fields.foldl (fun x f => f.put x (if !a.mayField f || fieldLocked old f then f.of old else f.written (f.of old) (f.of v))) old

theorem Fld.written_kept (f : Fld) (x : Nat) : f.written x (f.written x x) = x := by
  unfold Fld.written
  cases f.acc <;> simp

/-- A write of a register stores its fields, then has its effect. -/
theorem regWrite_eq (s : State) (a : Agent) (r : Reg) (w i v : Nat) (h : s.locked r w = false) :
    s.regWrite a r w i v none =
      (s.setReg r w i (writtenValue a r (s.reg r w i) v)).regEffect a r w i (s.reg r w i) v := by
  simp only [State.regWrite, h, Bool.false_eq_true, ↓reduceIte, sameFires_none, writtenValue]
  congr 3
  funext x f
  simp only [Fld.afterWrite, Fld.updated]
  split
  · rw [Fld.written_kept]
  · rfl

/-- What each field holds after a write. -/
theorem of_writtenValue (a : Agent) (r : Reg) (old v : Nat) (f : Fld) (hf : f ∈ r.fields) :
    f.of (writtenValue a r old v) =
      (if !a.mayField f || fieldLocked old f then f.of old else f.written (f.of old) (f.of v)) %
        2 ^ (f.hi + 1 - f.lo) :=
  of_fold r _ (reg_fieldsApart r) f hf _ _

theorem writtenValue_lt (a : Agent) (r : Reg) (old v : Nat) (h : old < 2 ^ 32) : writtenValue a r old v < 2 ^ 32 :=
  fold_lt r _ (reg_fieldsApart r) _ _ h

/-- A register whose fields are write-only or read-only keeps its stored value. -/
theorem writtenValue_kept (a : Agent) (r : Reg) (old v : Nat)
    (h : ∀ f ∈ r.fields, f.acc = .wo ∨ f.acc = .ro) : writtenValue a r old v = old := by
  apply fold_same
  intro f hf
  rcases h f hf with h | h <;> split <;> simp [Fld.written, h]

/-- A stored register holds what was stored. -/
theorem State.reg_setReg_lt (s : State) (r : Reg) (w i x : Nat) (h : x < 2 ^ 32) : (s.setReg r w i x).reg r w i = x := by
  rw [State.reg_setReg_same, Nat.mod_eq_of_lt h]

/-- Storing in one instance leaves the others of the map. -/
theorem State.reg_setReg_ne (s : State) (r q : Reg) (w i w' i' x : Nat) (hw : w < r.row.windows) (hi : i < r.row.count)
    (hw' : w' < q.row.windows) (hi' : i' < q.row.count) (h : (q, w', i') ≠ (r, w, i)) :
    (s.setReg r w i x).reg q w' i' = s.reg q w' i' := by
  apply State.reg_setReg_other
  intro he
  have ⟨h1, h2, h3⟩ := addr_inj q r w' i' w i hw' hi' hw hi he
  exact h (by rw [h1, h2, h3])

theorem State.sameRegsBut_setReg (s : State) (r : Reg) (w i x : Nat) (hw : w < r.row.windows) (hi : i < r.row.count) :
    s.sameRegsBut (s.setReg r w i x) [(r, w, i)] := fun q w' i' h1 h2 h3 =>
  State.reg_setReg_ne s r q w i w' i' x hw hi h1 h2 (by simpa using h3)

/-- Storing what a register holds changes no register. -/
theorem State.sameRegsBut_kept (s : State) (r : Reg) (w i : Nat) (hw : w < r.row.windows) (hi : i < r.row.count) :
    s.sameRegsBut (s.setReg r w i (s.reg r w i)) [] := fun q w' i' h1 h2 _ => by
  by_cases h : (q, w', i') = (r, w, i)
  · simp only [Prod.mk.injEq] at h
    rw [h.1, h.2.1, h.2.2, State.reg_setReg_lt _ _ _ _ _ (State.reg_lt _ _ _ _)]
  · exact State.reg_setReg_ne s r q w i w' i' _ hw hi h1 h2 h

end Sys2Proof.Machine
end

