-- ==== Sys2Proof/Laws/Interrupts.lean ====
section
/-! SUPPORT. What the interrupt controller's operations can do: a source that fires, a notice and a message change
registers, sources, pending MSI-X bits and what the device puts out, and nothing else (R344 to R358). -/

namespace Sys2Proof.Machine

/-! ## The frame -/

theorem raised_refl (s : State) : s = s.raised s := rfl

theorem raised_trans {s t u : State} (h1 : t = s.raised t) (h2 : u = t.raised u) : u = s.raised u := by
  rw [h1] at h2
  exact h2

/-- A fold of operations that only raise interrupts only raises interrupts. -/
theorem foldl_raised {α : Type} (l : List α) (f : State → α → State) (h : ∀ t x, f t x = t.raised (f t x)) (s : State) :
    l.foldl f s = s.raised (l.foldl f s) := by
  induction l generalizing s with
  | nil => rfl
  | cons x l ih => exact raised_trans (h s x) (ih _)

/-- The same where the fold also gathers something else. -/
theorem foldl_fst_raised {α β : Type} (l : List α) (f : State × β → α → State × β)
    (h : ∀ t x, (f t x).1 = t.1.raised (f t x).1) (s : State × β) :
    (l.foldl f s).1 = s.1.raised (l.foldl f s).1 := by
  induction l generalizing s with
  | nil => rfl
  | cons x l ih => exact raised_trans (h s x) (ih _)

/-! ## Registers -/

theorem setReg_raised (s : State) (r : Reg) (w i x : Nat) : s.setReg r w i x = s.raised (s.setReg r w i x) := rfl

theorem setFld_raised (s : State) (f : Fld) (x w i : Nat) : s.setFld f x w i = s.raised (s.setFld f x w i) := rfl

theorem addFld_raised (s : State) (f : Fld) (n w i : Nat) : s.addFld f n w i = s.raised (s.addFld f n w i) := rfl

theorem logFirst_raised (s : State) (valid past : Fld) (w i : Nat) (l : List (Fld × Nat)) :
    s.logFirst valid past w i l = s.raised (s.logFirst valid past w i l) := by
  unfold State.logFirst
  split
  · rfl
  · exact raised_trans (setFld_raised s valid 1 w i) (foldl_raised l _ (fun t x => setFld_raised t x.1 x.2 w i) _)

/-! ## Messages and sources -/

theorem setIcSource_raised (s : State) (src : Nat) (x : IcSource) :
    s.setIcSource src x = s.raised (s.setIcSource src x) := rfl

theorem msixSend_raised (s : State) (v pv : Nat) : s.msixSend v pv = s.raised (s.msixSend v pv) := by
  unfold State.msixSend
  dsimp only
  split <;> rfl

theorem viMessage_raised (s : State) (v vec : Nat) : (s.viMessage v vec).1 = s.raised (s.viMessage v vec).1 := by
  unfold State.viMessage
  dsimp only
  split
  · rfl
  · split
    · exact msixSend_raised ..
    · rfl

theorem hostTake_raised (s : State) (src : Nat) : (s.hostTake src).1 = s.raised (s.hostTake src).1 :=
  raised_trans (setIcSource_raised s src _) (viMessage_raised ..)

theorem assignSource_raised (s : State) (src : Nat) : (s.assignSource src).1 = s.raised (s.assignSource src).1 := by
  unfold State.assignSource
  dsimp only
  split
  · rfl
  · split
    · rfl
    · split
      · exact raised_trans (setIcSource_raised s src _) (hostTake_raised ..)
      · rfl

theorem fireOnce_raised (s : State) (src : Nat) : (s.fireOnce src).1 = s.raised (s.fireOnce src).1 := by
  unfold State.fireOnce
  dsimp only
  split
  · exact raised_trans (addFld_raised s _ 1 src 0) (assignSource_raised ..)
  · rfl
  · rfl
  · rfl

theorem icEvent_raised (s : State) (b : Nat) : s.icEvent b = s.raised (s.icEvent b) := by
  unfold State.icEvent
  split
  · rfl
  · dsimp only
    have h1 := raised_trans (setReg_raised s .IC_EVENT 0 0 (s.reg .IC_EVENT ||| b)) (fireOnce_raised _ icOwnSource)
    split
    · exact h1
    · exact raised_trans h1 (raised_trans (setReg_raised _ .IC_EVENT 0 0 _) (fireOnce_raised _ icOwnSource))

/-- A source that fires. -/
theorem fire_raised (s : State) (src : Nat) : s.fire src = s.raised (s.fire src) :=
  raised_trans (fireOnce_raised s src) (icEvent_raised ..)

theorem raise_raised (s : State) (f : Fld) (src w i : Nat) : s.raise f src w i = s.raised (s.raise f src w i) :=
  raised_trans (setFld_raised s f 1 w i) (fire_raised ..)

theorem raiseLog_raised (s : State) (valid past : Fld) (src w i : Nat) (l : List (Fld × Nat)) :
    s.raiseLog valid past src w i l = s.raised (s.raiseLog valid past src w i l) :=
  raised_trans (logFirst_raised s valid past w i l) (fire_raised ..)

theorem reassignAll_raised (s : State) : s.reassignAll = s.raised s.reassignAll := by
  unfold State.reassignAll
  refine raised_trans (foldl_fst_raised _ _ (fun t x => ?_) (s, 0)) (icEvent_raised _ _)
  dsimp only
  split
  · split
    · split
      · rfl
      · exact assignSource_raised ..
    · exact assignSource_raised ..
  · rfl

theorem badEoi_raised (s : State) : s.badEoi = s.raised s.badEoi :=
  raised_trans (addFld_raised s _ 1 0 0) (icEvent_raised ..)

/-- A completion. -/
theorem completeSource_raised (s : State) (t src : Nat) : s.completeSource t src = s.raised (s.completeSource t src) := by
  unfold State.completeSource
  dsimp only
  split
  · split
    · rfl
    · split
      · rfl
      · split
        · refine raised_trans ?_ (raised_trans (hostTake_raised _ src) (icEvent_raised ..))
          rfl
        · refine raised_trans ?_ (reassignAll_raised _)
          rfl
    · exact badEoi_raised s
    · exact badEoi_raised s
  · exact badEoi_raised s

theorem dropTarget_raised (s : State) (t : Nat) : s.dropTarget t = s.raised (s.dropTarget t) := by
  unfold State.dropTarget
  refine raised_trans ?_ (raised_trans (icEvent_raised _ _) (reassignAll_raised _))
  refine raised_trans ?_ (foldl_fst_raised _ _ (fun t x => ?_) _)
  · rfl
  · exact assignSource_raised t.1 x

/-! ## Notices -/

theorem noticePending_raised (s : State) (v : Nat) : s.noticePending v = s.raised (s.noticePending v) := by
  unfold State.noticePending
  split
  · dsimp only
    have h : ((s.setNotice v .active).viMessage v (s.fld F.IC_VI_NOTICE_VECTOR v)).1 =
        s.raised ((s.setNotice v .active).viMessage v (s.fld F.IC_VI_NOTICE_VECTOR v)).1 :=
      raised_trans (t := s.setNotice v .active) rfl (viMessage_raised ..)
    split
    · exact raised_trans h (icEvent_raised ..)
    · exact h
  · rfl

theorem fireNotice_raised (s : State) (v : Nat) : s.fireNotice v = s.raised (s.fireNotice v) := by
  unfold State.fireNotice
  split
  · exact noticePending_raised ..
  · rfl
  · rfl
  · rfl

theorem completeNotice_raised (s : State) (v : Nat) : s.completeNotice v = s.raised (s.completeNotice v) := by
  unfold State.completeNotice
  split
  · rfl
  · exact noticePending_raised ..
  · exact badEoi_raised s
  · exact badEoi_raised s

theorem viEvent_raised (s : State) (f : Fld) (v : Nat) : s.viEvent f v = s.raised (s.viEvent f v) :=
  raised_trans (setFld_raised s f 1 v 0) (fireNotice_raised ..)

theorem viSync_raised (s : State) (f : Fld) (v : Nat) : s.viSync f v = s.raised (s.viSync f v) :=
  raised_trans (setFld_raised s f 1 v 0) (fireNotice_raised ..)

theorem completionMessage_raised (s : State) (v vec : Nat) :
    s.completionMessage v vec = s.raised (s.completionMessage v vec) := by
  unfold State.completionMessage
  dsimp only
  split
  · exact raised_trans (viMessage_raised ..) (icEvent_raised ..)
  · exact viMessage_raised ..

end Sys2Proof.Machine
end

