-- ==== Sys2Proof/Laws/Links.lean ====
section
/-! SUPPORT. What sending can do: a flit or a message that is sent changes the Coluz block and what the device puts out, and of
the ports only its own (R367, R374). -/

namespace Sys2Proof.Machine

/-! ## Ports -/

@[simp] theorem port_setPort_same (s : State) (p : Nat) (x : Port) : (s.setPort p x).port p = x := tget_tset_same ..

theorem port_setPort_other (s : State) {p q : Nat} (x : Port) (h : q ≠ p) : (s.setPort p x).port q = s.port q :=
  tget_tset_other _ _ _ h

@[simp] theorem port_onPort_same (s : State) (p : Nat) (f : Port → Port) : (s.onPort p f).port p = f (s.port p) :=
  port_setPort_same ..

theorem port_onPort_other (s : State) {p q : Nat} (f : Port → Port) (h : q ≠ p) : (s.onPort p f).port q = s.port q :=
  port_setPort_other _ _ h

@[simp] theorem port_emit (s : State) (o : Out) (p : Nat) : (s.emit o).port p = s.port p := rfl

/-! ## Sending -/

/-- `s` with the Coluz block and the output of `t`. -/
def State.sends (s t : State) : State := { s with clz := t.clz, out := t.out }

theorem sends_trans {s t u : State} (h1 : t = s.sends t) (h2 : u = t.sends u) : u = s.sends u := by
  rw [h1] at h2
  exact h2

theorem onPort_sends (s : State) (p : Nat) (f : Port → Port) : s.onPort p f = s.sends (s.onPort p f) := rfl

theorem sendFlit_sends (s : State) (p kind seq cont : Nat) (win : Bool) (payload : List Nat) :
    s.sendFlit p kind seq cont win payload = s.sends (s.sendFlit p kind seq cont win payload) := rfl

/-- A flit that port `p` sends changes of the ports only what `p` owes. -/
theorem port_sendFlit_same (s : State) (p kind seq cont : Nat) (win : Bool) (payload : List Nat) :
    ∃ owed, (s.sendFlit p kind seq cont win payload).port p = { s.port p with owed := owed } :=
  ⟨_, port_setPort_same ..⟩

theorem port_sendFlit_other (s : State) {p q : Nat} (kind seq cont : Nat) (win : Bool) (payload : List Nat) (h : q ≠ p) :
    (s.sendFlit p kind seq cont win payload).port q = s.port q := port_setPort_other _ _ h

/-- The flit sent is the newest of what the device has put out, and carries its kind, number and payload. -/
theorem out_sendFlit (s : State) (p kind seq cont : Nat) (win : Bool) (payload : List Nat) :
    ∃ h : FlitHdr, h.kind = kind ∧ h.seq = seq ∧ h.cont = cont ∧ h.win = win ∧ h.ackv = (s.port p).rxAny ∧
      h.ack = ((s.port p).rxNext + 65535) % 65536 ∧
      (s.sendFlit p kind seq cont win payload).out = .flit p (h.encode payload) :: s.out :=
  ⟨{ ack := ((s.port p).rxNext + 65535) % 65536, seq := seq, a := (takeOwed (s.port p).owed).1,
     b := (takeOwed (s.port p).owed).2.1, kind := kind, cont := cont, ackv := (s.port p).rxAny, win := win },
    rfl, rfl, rfl, rfl, rfl, rfl, rfl⟩

theorem sendIdle_sends (s : State) (p : Nat) : s.sendIdle p = s.sends (s.sendIdle p) := by
  unfold State.sendIdle
  split <;> rfl

theorem creditSlots_sends (s : State) (p pool n : Nat) : s.creditSlots p pool n = s.sends (s.creditSlots p pool n) := rfl

/-- A drop is counted and raises its source. -/
theorem dropMsg_raised (s : State) (p : Nat) : s.dropMsg p = s.raised (s.dropMsg p) :=
  raised_trans (addFld_raised s _ 1 p 0) (raise_raised ..)

end Sys2Proof.Machine
end

