-- ==== Sys2Proof/Laws/Records.lean ====
section
/-! SUPPORT. What records, charges and shots can do: a record and a charge change the RAS block and what an interrupt may
change (R426, R429, R441); a shot that fires changes registers and its injector, and none fires where none is due (R466). -/

namespace Sys2Proof.Machine

/-! ## Records and charges -/

/-- `s` with what a record or a charge may change taken from `t`. -/
def State.noted (s t : State) : State := { s.raised t with ras := t.ras }

theorem noted_trans {s t u : State} (h1 : t = s.noted t) (h2 : u = t.noted u) : u = s.noted u := by
  rw [h1] at h2
  exact h2

theorem noted_of_raised {s t : State} (h : t = s.raised t) : t = s.noted t := by
  rw [h]
  rfl

theorem onRas_noted (s : State) (f : RasSt → RasSt) : s.onRas f = s.noted (s.onRas f) := rfl

theorem record_noted (s : State) (r : RasRecord) : (s.record r).1 = s.noted (s.record r).1 := by
  unfold State.record
  dsimp only
  split
  · rfl
  · refine noted_trans ?_ (noted_of_raised (raise_raised ..))
    rfl

theorem rasEvent_noted (s : State) (f : Fld) : s.rasEvent f = s.noted (s.rasEvent f) := noted_of_raised (raise_raised ..)

theorem oweRetire_noted (s : State) (x : OwedRetire) : s.oweRetire x = s.noted (s.oweRetire x) := by
  unfold State.oweRetire
  repeat' split
  all_goals rfl

theorem hardSignature_noted (s : State) (ch det root : Nat) (m : Mark) :
    s.hardSignature ch det root m = s.noted (s.hardSignature ch det root m) := by
  unfold State.hardSignature
  split
  · rfl
  · exact oweRetire_noted ..

theorem addWeight_noted (s : State) (ch w : Nat) (base : RasRecord) :
    s.addWeight ch w base = s.noted (s.addWeight ch w base) := by
  generalize hx : s.addWeight ch w base = x
  unfold State.addWeight at hx
  extract_lets kind old new warn limit s1 r s2 at hx
  have h1 : s1 = s.noted s1 := rfl
  have h2 : s2 = s.noted s2 := by
    simp only [s2]
    split
    · exact noted_trans h1 (record_noted ..)
    · exact h1
  clear_value s2
  subst hx
  split
  · split
    · exact noted_trans h2 (oweRetire_noted ..)
    · exact noted_trans h2 (noted_trans (record_noted ..) (rasEvent_noted ..))
  · exact h2

/-- A detector event on a channel. -/
theorem charge_noted (s : State) (ch : Nat) (cls : EventClass) (base : RasRecord) (m : Mark) :
    (s.charge ch cls base m).1 = s.noted (s.charge ch cls base m).1 := by
  unfold State.charge
  split
  · rfl
  · dsimp only
    split
    · exact noted_trans (record_noted ..) (addWeight_noted ..)
    · exact addWeight_noted ..

/-- A retired channel takes no charge. -/
theorem charge_retired (s : State) (ch : Nat) (cls : EventClass) (base : RasRecord) (m : Mark)
    (h : s.retired ch = true) : s.charge ch cls base m = (s, 0) := by
  simp [State.charge, h]

theorem chargeSimple_noted (s : State) (ch : Nat) (cls : EventClass) (det : Nat) :
    s.chargeSimple ch cls det = s.noted (s.chargeSimple ch cls det) := charge_noted ..

/-! ## Shots -/

/-- `s` with what a shot that fires may change taken from `t`. -/
def State.shotFrame (s t : State) : State := { s with regs := t.regs, inj := t.inj }

theorem shotFrame_trans {s t u : State} (h1 : t = s.shotFrame t) (h2 : u = t.shotFrame u) : u = s.shotFrame u := by
  rw [h1] at h2
  exact h2

theorem setFld_shot (s : State) (f : Fld) (x w i : Nat) : s.setFld f x w i = s.shotFrame (s.setFld f x w i) := rfl

theorem setInjector_shot (s : State) (i : Nat) (x : Injector) : s.setInjector i x = s.shotFrame (s.setInjector i x) := rfl

theorem fireShot_frame (s : State) (i : Nat) : (s.fireShot i).1 = s.shotFrame (s.fireShot i).1 := by
  generalize hx : s.fireShot i = x
  unfold State.fireShot at hx
  extract_lets y s1 p s2 periodic limit last s3 at hx
  have h1 : s1 = s.shotFrame s1 := rfl
  have h2 : s2 = s.shotFrame s2 := by
    simp only [s2]
    split
    · exact shotFrame_trans h1 rfl
    · exact h1
  have h3 : s3 = s.shotFrame s3 := by
    simp only [s3]
    clear_value s2
    split
    · exact shotFrame_trans h2 (shotFrame_trans (setFld_shot ..) (shotFrame_trans (setFld_shot ..) (setInjector_shot ..)))
    · exact h2
  rw [← hx]
  exact h3

theorem dueShot_none (s : State) (det target : Nat) (f : Nat → Bool) (h : s.noShots = true) :
    s.dueShot det target f = none := by
  rw [State.dueShot, List.find?_eq_none]
  intro i hi
  have := List.all_eq_true.mp h i hi
  simp at this
  simp [this]

/-- Where no shot is due none fires. -/
theorem shoot_none (s : State) (det target : Nat) (f : Nat → Bool) (h : s.noShots = true) :
    s.shoot det target f = none := by
  simp [State.shoot, dueShot_none s det target f h]

theorem shoot_frame (s : State) (det target : Nat) (f : Nat → Bool) {t : State} {b : Bool} {p : Nat} {m : Mark}
    (h : s.shoot det target f = some (t, b, p, m)) : t = s.shotFrame t := by
  unfold State.shoot at h
  split at h
  · simp only [Option.some.injEq, Prod.mk.injEq] at h
    rw [← h.1]
    exact fireShot_frame ..
  · cases h

end Sys2Proof.Machine
end

