-- ==== Sys2Proof/WellFormed.lean ====
section
/-! DEFINITION. Which commands are well formed: what the bus, the link, the ring or the package that carries a command can
hold. A command that is not is no event that the device can meet; its meaning is defined all the same. -/

namespace Sys2Proof
open Sys2Proof.Machine

/-- Every element is a byte. -/
def allBytes (l : List Nat) : Bool := l.all (· < 256)

/-- A flit is 256 bytes (R367). -/
def rawFlit (l : List Nat) : Bool := l.length == 256 && allBytes l

/-- A scan set's header is 128 bytes (R458). -/
def Machine.ScanSet.wellFormed (x : ScanSet) : Bool := x.header.length == 128 && allBytes x.header

/-- A component as a package carries it: headers of 128 bytes (R458) and profiles of 512 (R338). -/
def Machine.Payload.wellFormed : Payload → Bool
  | .pmc x | .hall x => x.stepping < 256 && allBytes x.data
  | .scan sets _ => sets.all ScanSet.wellFormed
  | .pack x => x.wellFormed
  | .profiles l _ => l.all fun b => b.length == 512 && allBytes b
  | .compat _ _ => true

/-- An access touches bytes of one sector (R213). -/
def Machine.HbmOp.wellFormed : HbmOp → Bool
  | .read => true
  | .write off bytes _ => !bytes.isEmpty && off + bytes.length ≤ 32 && allBytes bytes

/-- The operands of a command are in the ranges that what carries it admits. -/
def Instr.wellFormed : Instr → Bool
  | .registerWrite _ addr size value _ => 0 < size && value < 2 ^ (8 * size) && addr < 2 ^ 32
  | .registerClearingRead _ addr size _ => 0 < size && addr < 2 ^ 32
  | .doorbellWrite _ offset size value record =>
    offset < 4096 && [1, 2, 4, 8].contains size && value < 2 ^ (8 * size) && record < 2 ^ 32
  | .notifyPoll _ record => record < 2 ^ 32
  | .adminCommandFetch _ entry => entry.length == 64 && allBytes entry
  | .adminRingFullPoll _ head => head < 2 ^ 32
  | .completionRingHeadRead _ head => head < 2 ^ 32
  | .syncConfig _ record => record.length ≤ 64 && allBytes record
  | .initFlitReceive _ flit => rawFlit flit
  | .dataFlitReceive _ flit _ => rawFlit flit
  | .controlFlitReceive _ flit _ => rawFlit flit
  | .nakReceive _ flit _ => rawFlit flit
  | .scanRoundEnd _ mask => mask < 256
  | .scanRetestEnd _ mask pattern diff => mask < 256 && pattern < 2 ^ 32 && diff < 2 ^ 32
  | .shadowSelftestComplete _ _ step => step < 2 ^ 32
  | .bar4Read _ _ len => 0 < len
  | .bar4Write _ _ bytes _ => !bytes.isEmpty && allBytes bytes
  | .atsInvalidate _ pasid page pages => pasid.all (· < 2 ^ 20) && page + pages ≤ 2 ^ 52 && 0 < pages
  | .msixUnmask _ entry => entry.all (· < 2048)
  | .setEndpointId eid => eid < 256
  | .mctpControlMessage typ pldm => typ < 128 && pldm < 64
  | .mgtRegisterRead addr => addr < 2 ^ 32
  | .mgtRegisterWrite addr value => addr < 2 ^ 32 && value < 2 ^ 32
  | .getSensorReading id => id < 65536
  | .hbmAccess _ op _ => op.wellFormed
  | .firmwareComponentVerify c => c.wellFormed
  | .registerBridgeUpdate value => value < 2 ^ 65
  | .railRegulationTimeout rail => rail < 16
  | .railFaultInService rail => rail < 16
  | .powerLimitEvaluate watts mv good => watts.length ≤ 16 && mv.length ≤ 16 && good < 65536
  | .vfEnableSet num => num < 65536
  | .pcieLinkUp rate width _ => 1 ≤ rate && rate ≤ 6 && [1, 2, 4, 8, 16].contains width
  | .hbmBringupStep _ _ lanes => lanes < 128
  | .timeCtrlWrite _ value | .alcHalt _ _ value | .alcResume _ _ value | .alcStep _ _ value | .hcHalt _ _ value
  | .hcResume _ _ value | .hcRestart _ _ value | .sdcSelftestWrite _ _ value | .mezInvalAll _ _ value
  | .tgenStart _ _ value | .tgenAbort _ _ value | .vstAdminCtrlWrite _ _ value | .partitionReset _ _ value
  | .icTgtEoiWrite _ _ value | .icSwiWrite _ value | .icSrcCfgWrite _ _ value | .icTgtCtrlWrite _ _ value
  | .icViNoticeWrite _ _ value | .icViEoiWrite _ _ value | .portEnable _ _ value | .portRetrain _ _ value
  | .portRetireWrite _ _ value | .laneOffChange _ _ value | .windowArm _ _ _ value | .rasRetireWrite _ value
  | .rasRecCmdWrite _ value | .injArmWrite _ _ value | .injDisarmWrite _ _ value | .bootCtrlCold _ value
  | .bootCtrlWarm _ value | .bootCtrlPartAll _ value | .bootOverrideWrite _ value | .lcArm _ value
  | .lcCommit _ value | .lcStoreId _ value =>
    value < 2 ^ 32
  | .timeNowLoRead .. | .rootAnnouncementSend | .announceReceive .. | .upstreamPathLost | .upstreamPortSwitch
  | .rootElectionComplete | .domainCountStart | .ppsInEdge | .ppsWaitTimeout | .ppsOutPulse | .timeRefInPresent
  | .timeRefInLost | .timeBeatSend | .timeBeatReceive .. | .beatLossHoldover .. | .bridgePathDelayMeasure ..
  | .delayExchangeStart .. | .delayReqReceive .. | .delayRespReceive .. | .delayFollowReceive ..
  | .delayExchangeDiscard .. | .timedLaunch .. | .bundleIssue .. | .groupAbort .. | .resultWriteback ..
  | .alcoveWaitRelease .. | .alcoveReportCompletion .. | .savePoint .. | .hcAutoRestart .. | .heldIstoreWriteApply ..
  | .weightShiftStart .. | .weightShiftComplete .. | .wswapExchange .. | .gangChange .. | .passStart ..
  | .passComplete .. | .accumulatorParityError .. | .streamComplete .. | .sdrainComplete .. | .doneCountUpdate ..
  | .shadowSelftestTimer .. | .copyStart .. | .packetWrite .. | .csetApply .. | .packetAcknowledge ..
  | .copyComplete .. | .galleryBurstRequest .. | .galleryBurstRelease .. | .rangeInvalidationDone ..
  | .hbmCorrectedWriteback .. | .patrolScrub .. | .hbmReread .. | .hbmRefresh .. | .hbmRefreshManagement ..
  | .hbmTemperatureRead .. | .hbmWipeDone .. | .tgenRunComplete .. | .gatherComplete .. | .tokenSignal ..
  | .tokenWait .. | .tokenWaiterRelease .. | .tokenTry .. | .landingArrival .. | .landingWait ..
  | .timedLandingRelease .. | .landingStallDetect .. | .ascentReceive .. | .descentReceive .. | .syncRead ..
  | .syncWrite .. | .syncInit .. | .syncDisable .. | .annealEpochLoad .. | .annealClampPass ..
  | .annealEvaluationPass .. | .annealSweep .. | .annealExchangeRound .. | .annealSweepPoint ..
  | .annealSweepPointRelease .. | .annealInitialSweepPoint .. | .annealEnd .. | .adminReservedOpcode ..
  | .createQueue .. | .destroyQueue .. | .stopQueue .. | .restartQueue .. | .mapMemory .. | .unmapMemory ..
  | .bindPartition .. | .setProfile .. | .liftQuarantine .. | .query .. | .retirePage .. | .poolCreate ..
  | .poolDestroy .. | .poolGrant .. | .versionOverride .. | .workTailRead .. | .commandBufferBegin ..
  | .operationReady .. | .kernelDispatch .. | .kernelLaunch .. | .copyDispatch .. | .gatherDispatch ..
  | .annealDispatch .. | .poolAlloc .. | .poolFree .. | .nopOperation .. | .pauseClaim .. | .rankSaved ..
  | .operationResume .. | .waitClockExpire .. | .runClockExpire .. | .operationComplete .. | .viReset ..
  | .interruptTake .. | .laneSignalDetect .. | .linkTrainingDone .. | .fecLockDone .. | .bringupStepTimeout ..
  | .laneLockLoss .. | .nakRepeatTimer .. | .ackProgressTimeout .. | .replayGiveUp .. | .messageTransmit ..
  | .readReqServe .. | .readCplReceive .. | .routeWaitTimeout .. | .windowOpen .. | .windowClose .. | .bucketLeak ..
  | .channelRetire .. | .remoteResend .. | .remoteGiveUp .. | .receiptEntryRelease .. | .bridgeFlitCrcError ..
  | .bridgeLaneLockLoss .. | .rasRecordStore | .scanRoundStart | .scanChunkDeliver | .packInstall | .scanAreaUpdate
  | .focusPackEvaluate | .injArmingPoint .. | .vfFlr .. | .pfFlr | .vfEnableClear | .hostAccessFail ..
  | .pcieLinkDown | .fruDataRead | .requestUpdate | .firmwareComponentApply | .activateFirmware | .flashOperation ..
  | .idcode | .samplePreload .. | .extest | .clamp | .highz | .ijtagSel | .bypass | .coldReset | .perstNAssert
  | .perstNDeassert | .resetWipeComplete | .bootPmcImageVerified | .bootHallImageVerified | .bootHallStart
  | .bootReady | .bootWatchdogExpire | .pmcServiceTimerExpire | .pmcFault | .lcArmLapse | .pwrOkInFall
  | .clockGlideStep .. | .throttleNFall | .throttleNRise | .thermalSample .. | .thermalTrip | .alcoveIslandSilent ..
  | .ppsPresentExpire | .quarantineVerifyDone =>
    true

end Sys2Proof
end

