-- ==== Sys2Proof/Laws/Memory.lean ====
section
/-! SUPPORT. Byte memories: a byte read after a write is the byte written, or the byte before where the write does not reach,
and every operation over memory keeps the canonical form (addresses rise strictly, no entry reads as an unlisted one). -/

namespace Sys2Proof.Machine

/-! ## Bytes -/

/-- A byte outside what is stored reads as before. -/
theorem tget_storeBytes_other (bytes : List Nat) (cells : List Host.Cell) (a b : Nat) (h : b < a ∨ a + bytes.length ≤ b) :
    tget 0 (storeBytes cells a bytes) b = tget 0 cells b := by
  induction bytes generalizing cells a with
  | nil => rfl
  | cons x r ih =>
    rw [List.length_cons] at h
    rw [storeBytes, ih _ _ (by omega), tget_tset_other _ _ _ (by omega)]

/-- Byte `i` of what is stored reads back. -/
theorem tget_storeBytes_at (bytes : List Nat) (cells : List Host.Cell) (a i : Nat) (h : i < bytes.length) :
    tget 0 (storeBytes cells a bytes) (a + i) = BitVec.ofNat 8 bytes[i] := by
  induction bytes generalizing cells a i with
  | nil => cases h
  | cons x r ih =>
    cases i with
    | zero =>
      rw [storeBytes, tget_storeBytes_other _ _ _ _ (by omega)]
      exact tget_tset_same ..
    | succ i =>
      have := ih (tset 0 cells a (BitVec.ofNat 8 x)) (a + 1) i (by simpa using h)
      rw [storeBytes, show a + (i + 1) = a + 1 + i by omega]
      simpa using this

/-- Reading what was written gives the bytes written. -/
theorem loadBytes_storeBytes (cells : List Host.Cell) (a : Nat) (bytes : List Nat) (h : allBytes bytes = true) :
    loadBytes (storeBytes cells a bytes) a bytes.length = bytes := by
  apply List.ext_getElem
  · simp [loadBytes]
  · intro i h1 h2
    have hb : bytes[i] < 256 := by
      have := List.all_eq_true.mp h _ (List.getElem_mem h2)
      simpa using this
    simp only [loadBytes, List.getElem_map, List.getElem_range, tget_storeBytes_at bytes cells a i h2,
      BitVec.toNat_ofNat]
    omega

/-- A read that what was written does not reach gives what it gave. -/
theorem loadBytes_storeBytes_apart (cells : List Host.Cell) (a b len : Nat) (bytes : List Nat)
    (h : b + len ≤ a ∨ a + bytes.length ≤ b) : loadBytes (storeBytes cells a bytes) b len = loadBytes cells b len := by
  unfold loadBytes
  apply List.map_congr_left
  intro i hi
  have := List.mem_range.mp hi
  rw [tget_storeBytes_other _ _ _ _ (by omega)]

/-! ## The canonical form -/

theorem wf_storeBytes (bytes : List Nat) (cells : List Host.Cell) (a : Nat) (h : Memory.wf cells = true) :
    Memory.wf (storeBytes cells a bytes) = true := by
  induction bytes generalizing cells a with
  | nil => exact h
  | cons x r ih => exact ih _ _ (tcanonical_tset 0 cells a _ h)

theorem wf_filter (cells : List Host.Cell) (f : Host.Cell → Bool) (h : Memory.wf cells = true) :
    Memory.wf (cells.filter f) = true := tcanonical_filter 0 cells f h

theorem wf_nil : Memory.wf [] = true := rfl

theorem memoryWf_iff (s : State) : s.memoryWf = true ↔
    Memory.wf s.hbm.cells = true ∧ Memory.wf s.mem.g = true ∧ (∀ p ∈ s.alcoves, Memory.wf p.2.store = true) ∧
      ∀ p ∈ s.hcs, Memory.wf p.2.dstore = true := by
  simp only [State.memoryWf, Bool.and_eq_true, List.all_eq_true]
  exact ⟨fun ⟨⟨⟨a, b⟩, c⟩, d⟩ => ⟨a, b, c, d⟩, fun ⟨a, b, c, d⟩ => ⟨⟨⟨a, b⟩, c⟩, d⟩⟩

/-- What the canonical form looks at. -/
theorem memoryWf_congr {s t : State} (h1 : t.hbm.cells = s.hbm.cells) (h2 : t.mem.g = s.mem.g) (h3 : t.alcoves = s.alcoves)
    (h4 : t.hcs = s.hcs) : t.memoryWf = s.memoryWf := by
  simp [State.memoryWf, h1, h2, h3, h4]

theorem memoryWf_of_raised {s t : State} (h : t = s.raised t) (hw : s.memoryWf = true) : t.memoryWf = true := by
  rw [h]
  exact hw

theorem memoryWf_of_noted {s t : State} (h : t = s.noted t) (hw : s.memoryWf = true) : t.memoryWf = true := by
  rw [h]
  exact hw

theorem memoryWf_of_shot {s t : State} (h : t = s.shotFrame t) (hw : s.memoryWf = true) : t.memoryWf = true := by
  rw [h]
  exact hw

theorem memoryWf_forEach {α : Type} (l : List α) (f : State → α → State)
    (h : ∀ t x, t.memoryWf = true → (f t x).memoryWf = true) (s : State) (hs : s.memoryWf = true) :
    (forEach l s f).memoryWf = true := by
  unfold forEach
  induction l generalizing s with
  | nil => exact hs
  | cons x l ih => exact ih _ (h s x hs)

theorem mem_tset {α : Type} [DecidableEq α] (d : α) (t : Tbl α) (k : Nat) (v : α) (p : Nat × α) (h : p ∈ tset d t k v) :
    p = (k, v) ∨ p ∈ t := by
  unfold tset at h
  split at h
  · exact .inr (List.mem_filter.mp h).1
  · exact mem_tins t k v p h

/-- The store of an alcove of a state in canonical form. -/
theorem wf_alcove {s : State} (h : s.memoryWf = true) (n : Nat) : Memory.wf (s.alcove n).store = true := by
  have h3 := ((memoryWf_iff s).mp h).2.2.1
  unfold State.alcove tget
  cases hf : tfind s.alcoves n with
  | none => rfl
  | some x =>
    have : ∀ t : Tbl Alcove, tfind t n = some x → (n, x) ∈ t := by
      intro t
      induction t with
      | nil => intro h; cases h
      | cons p r ih =>
        obtain ⟨j, w⟩ := p
        simp only [tfind]
        split
        · rename_i hj
          intro h
          injection h with h
          subst hj h
          exact List.mem_cons_self
        · intro h
          exact List.mem_cons_of_mem _ (ih h)
    exact h3 _ (this _ hf)

theorem memoryWf_setAlcove {s : State} (n : Nat) (x : Alcove) (hs : s.memoryWf = true) (hx : Memory.wf x.store = true) :
    (s.setAlcove n x).memoryWf = true := by
  rw [memoryWf_iff] at hs ⊢
  refine ⟨hs.1, hs.2.1, fun p hp => ?_, hs.2.2.2⟩
  rcases mem_tset _ _ _ _ _ hp with hp | hp
  · rw [hp]
    exact hx
  · exact hs.2.2.1 p hp

/-- Storing in an alcove. -/
theorem memoryWf_writeS {s : State} (n a : Nat) (bytes : List Nat) (marks : List Bool) (hs : s.memoryWf = true) :
    (s.writeS n a bytes marks).memoryWf = true :=
  memoryWf_setAlcove n _ hs (wf_storeBytes bytes _ a (wf_alcove hs n))

/-- Storing in the galleries. -/
theorem memoryWf_writeG {s : State} (a : Nat) (bytes : List Nat) (marks : List Bool) (hs : s.memoryWf = true) :
    (s.writeG a bytes marks).memoryWf = true := by
  rw [memoryWf_iff] at hs ⊢
  exact ⟨hs.1, wf_storeBytes bytes _ a hs.2.1, hs.2.2⟩

/-- Storing a sector of stacked memory. -/
theorem memoryWf_putSector {s : State} (k : Nat) (bytes : List Nat) (poison : Bool) (hs : s.memoryWf = true) :
    (s.putSector k bytes poison).memoryWf = true := by
  rw [memoryWf_iff] at hs ⊢
  exact ⟨wf_storeBytes _ _ _ hs.1, hs.2⟩

/-- A wipe of stacked memory. -/
theorem memoryWf_wipeD {s : State} (base len : Nat) (hs : s.memoryWf = true) : (s.wipeD base len).memoryWf = true := by
  rw [memoryWf_iff] at hs ⊢
  exact ⟨wf_filter _ _ hs.1, hs.2⟩

theorem memoryWf_wipeG {s : State} (base len : Nat) (hs : s.memoryWf = true) : (s.wipeG base len).memoryWf = true := by
  rw [memoryWf_iff] at hs ⊢
  exact ⟨hs.1, wf_filter _ _ hs.2.1, hs.2.2⟩

theorem memoryWf_wipeChannels {s : State} (l : List Nat) (hs : s.memoryWf = true) : (s.wipeChannels l).memoryWf = true := by
  unfold State.wipeChannels
  split
  · exact hs
  · rw [memoryWf_iff] at hs ⊢
    exact ⟨wf_filter _ _ hs.1, hs.2⟩

/-! ## Reads and writes of stacked memory -/

theorem memoryWf_quarantine {s : State} (num off : Nat) (m : Mark) (hs : s.memoryWf = true) :
    (s.quarantine num off m).memoryWf = true := by
  unfold State.quarantine
  split
  · exact hs
  · split
    · exact hs
    · dsimp only
      refine memoryWf_forEach _ _ (fun t v ht => memoryWf_of_raised (viEvent_raised ..) ht) _ ?_
      exact (memoryWf_congr (s := (s.record _).1) rfl rfl rfl rfl).trans (memoryWf_of_noted (record_noted s _) hs)

theorem memoryWf_poisonRead {s : State} (k : Nat) (m : Mark) (hs : s.memoryWf = true) :
    (s.poisonRead k m).1.memoryWf = true := by
  unfold State.poisonRead
  split
  · split
    · exact memoryWf_quarantine _ _ _ hs
    · exact hs
  · exact hs

theorem memoryWf_hbmError {s : State} (ev : HbmEvent) (k : Nat) (errs : List (Nat × Nat)) (m : Mark)
    (hs : s.memoryWf = true) : (s.hbmError ev k errs m).1.memoryWf = true := by
  generalize hx : s.hbmError ev k errs m = x
  unfold State.hbmError at hx
  extract_lets c one f s1 at hx
  have h1 : s1.memoryWf = true :=
    memoryWf_of_raised (raised_trans (addFld_raised s f 1 c 0) (raiseLog_raised ..)) hs
  clear_value s1
  dsimp only at hx
  subst hx
  split <;> exact memoryWf_of_noted (charge_noted ..) h1

theorem memoryWf_bypass {s : State} (k : Nat) (hs : s.memoryWf = true) : (s.bypass k).1.memoryWf = true := by
  unfold State.bypass
  split
  · exact hs
  · split
    · exact memoryWf_of_raised (addFld_raised ..) hs
    · exact hs

theorem memoryWf_readShot {s : State} (k : Nat) (hs : s.memoryWf = true) : (s.readShot k).1.memoryWf = true := by
  unfold State.readShot
  dsimp only
  split
  · rename_i h
    exact memoryWf_of_shot (shoot_frame _ _ _ _ h) hs
  · split
    · rename_i h
      exact memoryWf_of_shot (shoot_frame _ _ _ _ h) hs
    · exact hs

theorem memoryWf_poisonSector {s : State} (k : Nat) (data : List Nat) (tag : Bool) (errs : List (Nat × Nat)) (m : Mark)
    (hs : s.memoryWf = true) : (s.poisonSector k data tag errs m).st.memoryWf = true :=
  memoryWf_poisonRead _ _ (memoryWf_hbmError _ _ _ _ (memoryWf_putSector _ _ _ hs))

theorem memoryWf_goodSector {s : State} (k : Nat) (net : List (Nat × Nat)) (fixed : Option (Nat × Nat)) (m : Mark)
    (hs : s.memoryWf = true) : (s.goodSector k net fixed m).st.memoryWf = true := by
  generalize hx : s.goodSector k net fixed m = x
  unfold State.goodSector at hx
  extract_lets data s1 at hx
  have h1 : s1.memoryWf = true := by
    simp only [s1]
    cases fixed with
    | some e =>
      have h := memoryWf_hbmError .ce k [e] m hs
      dsimp only
      generalize (s.hbmError .ce k [e] m).1 = t at h ⊢
      exact h
    | none => exact hs
  clear_value s1
  subst hx
  split
  · exact memoryWf_poisonRead _ _ (memoryWf_of_raised (addFld_raised ..) h1)
  · exact h1

/-- A read of a sector, whatever it meets. -/
theorem memoryWf_readSector {s : State} (k : Nat) (hs : s.memoryWf = true) : (s.readSector k).st.memoryWf = true := by
  have h0 := memoryWf_bypass k hs
  unfold State.readSector
  dsimp only
  split
  · exact memoryWf_poisonRead _ _ h0
  · have h1 := memoryWf_readShot k h0
    split
    · exact memoryWf_goodSector _ _ _ _ h1
    · exact memoryWf_goodSector _ _ _ _ h1
    · split
      · exact memoryWf_poisonSector _ _ _ _ _ h1
      · exact memoryWf_goodSector _ _ _ _ (memoryWf_hbmError _ _ _ _ h1)
      · exact memoryWf_goodSector _ _ _ _ (memoryWf_hbmError _ _ _ _ h1)

theorem memoryWf_readSectors {s : State} (n sec : Nat) (hs : s.memoryWf = true) : (s.readSectors n sec).st.memoryWf = true := by
  induction n generalizing s sec with
  | zero => exact hs
  | succ n ih =>
    unfold State.readSectors
    dsimp only
    refine ih _ ?_
    split
    · exact memoryWf_readSector _ hs
    · exact hs

/-- A read of a range of stacked memory. -/
theorem memoryWf_readD {s : State} (off len : Nat) (hs : s.memoryWf = true) : (s.readD off len).st.memoryWf = true :=
  memoryWf_readSectors _ _ hs

theorem memoryWf_applySector {s : State} (k off : Nat) (bytes : List Nat) (poison : Bool) (hs : s.memoryWf = true) :
    (s.applySector k off bytes poison).memoryWf = true := by
  have h0 := memoryWf_bypass k hs
  unfold State.applySector
  dsimp only
  split
  · exact h0
  · split
    · exact memoryWf_putSector _ _ _ h0
    · exact memoryWf_putSector _ _ _ (memoryWf_readSector _ h0)

theorem memoryWf_writeSector {s : State} (k off : Nat) (bytes : List Nat) (poison : Bool) (hs : s.memoryWf = true) :
    (s.writeSector k off bytes poison).memoryWf = true := by
  unfold State.writeSector
  split
  · exact hs
  · exact memoryWf_applySector _ _ _ _ hs

theorem memoryWf_writeSectors {s : State} (n off : Nat) (data : List (Nat × Bool)) (hs : s.memoryWf = true) :
    (s.writeSectors n off data).memoryWf = true := by
  induction n generalizing s off data with
  | zero => exact hs
  | succ n ih =>
    unfold State.writeSectors
    split
    · exact hs
    · dsimp only
      refine ih _ _ ?_
      split
      · exact memoryWf_writeSector _ _ _ _ hs
      · exact hs

/-- A write of a range of stacked memory. -/
theorem memoryWf_writeD {s : State} (off : Nat) (bytes : List Nat) (poison : Nat) (hs : s.memoryWf = true) :
    (s.writeD off bytes poison).memoryWf = true := memoryWf_writeSectors _ _ _ hs

theorem memoryWf_writeDAll {s : State} (off : Nat) (bytes : List Nat) (poison : Nat) (hs : s.memoryWf = true) :
    (s.writeDAll off bytes poison).memoryWf = true := by
  refine memoryWf_forEach _ _ (fun t h ht => ?_) _ (memoryWf_writeD off bytes poison hs)
  unfold State.dropRange State.dropLines
  dsimp only
  split
  · exact ht
  · split
    · exact ht
    · exact ht

end Sys2Proof.Machine
end

