-- ==== Sys2Proof/Tests/Slice0.lean ====
section
/-! SUPPORT. The model's own tests: commands that are not well formed, the manual's worked examples, and for each statement of
Certificates/Slice0/Obligations.lean, clause by clause, a state and operands that meet all its hypotheses. -/

set_option Elab.async false

namespace Sys2Proof.Tests
open Sys2Proof.Machine

/-! ## States that the tests share -/

/-- A state in service: boot is done, the link to the host is up and nothing is due. -/
def up : State := State.reset.onBoot (fun b => { b with step := 9 }) |>.onHost fun h => { h with linkUp := true }

/-- A state at a tick. -/
def upAt (t : Nat) : State := up.onTime fun x => { x with tick := t }

/-- An operation with nothing asked. -/
def op0 : Operation := {
  idx := 0, typ := 0, timed := false, report := true, pausable := false, preds := [], syncs := [], ranges := []
  launchTread := 0, body := [], extra := [], state := .running, waits := [], invals := [], received := false, held := false
  wasHeld := false, ranks := [], armed := false, launched := true, engineDone := false, pauseWanted := false, status := 0
  detail := 0, flags := 0, deficit := 0, launch := 0, stop := 0, fstat := 0, chk := 0, ras := 0, fault := 0, lost := []
  retiredCount := 0, pauses := 0, cause := 0, sharedPoison := none, sweepPoints := 0, copyFault := none, waitClock := 0
  runClock := 0 }

/-- A rank on an alcove. -/
def rank0 (n : Nat) : Rank :=
  { alcove := n, loaded := true, reported := false, retired := false, saved := none, ended := false }

/-- A work queue of VI 3, ring 2, that runs the given operations. -/
def wq0 (ops : List Operation) : WorkQ := {
  vi := 3, ring := 2, prio := 5, cqHost := true, hall := 0, log2 := 4, timeoutUs := 1000, ringBase := 0, tailRecord := 0
  cqBase := 0x10000, cqLog2 := 4, msix := 0, pauseLeadUs := 0, notifyTq := 0, saveBase := 0, saveBytes := 0, fence := 0
  state := .active, consumed := 1, tail := 1
  buffer := some { base := 0, bytes := 512, tag := 7, reportAll := true, ops := ops, stopStatus := 0, stopDetail := 0 }
  cqWritten := 0, cqHead := 0, waiting := [], slots := [], notified := false, mute := false }

/-- Partition 2 holds half-halls 14 and 15; VI 0 and VI 41 are bound to it, and VI 41 has its first GiB. -/
def served : State := ((up.onPart fun p => { p with
    vfEnable := true, numVfs := 255, bound := [(0, some 2), (41, some 2)]
    profile := { p.profile with layout := List.replicate 14 none ++ [some 2, some 2] }
    allocs := [{ vi := 41, space := .d, base := 14 * gib24, size := 2 ^ 30, hall := 0, kind := 0, half := 255, attr := 0
                 region := none, mapping := false, unmapping := false }] }).onHbm fun h =>
    { h with maps := [(2, { localN := 4, chans := upTo 224 32, halfHalls := [14, 15], baseHH := 14 })] }).setFld
  F.VST_ADMIN_CTRL_ENABLE 1 41

/-- A 64-byte entry of an admin queue, with its identifier 77. -/
def entry (op : Nat) (body : List Nat) : List Nat := padBytes 64 ([op, 0, 77, 0, 0, 0, 0, 0] ++ body)

/-- An admin queue with a command in hand. -/
def inHand (v : Nat) (e : List Nat) (s : State) : State := s.onAdmin v fun a => { a with
  current := some e, written := 2 ^ 32 - 1, head := 2 ^ 32 - 9 }

/-- A device offset of the partition as a global address. -/
def dGa (o : Nat) : Nat := gaMake 0 0 (14 * gib24 + o)

/-- What every entry of a table has, whatever the table holds has. -/
theorem tget_all {α : Type} {P : α → Prop} {t : Tbl (Option α)} (h : ∀ p ∈ t, ∀ x ∈ p.2, P x) (k : Nat) (x : α)
    (e : tget none t k = some x) : P x := by
  induction t with
  | nil => simp [tget, tfind] at e
  | cons p r ih =>
    obtain ⟨j, v⟩ := p
    unfold tget tfind at e
    split at e
    · exact h _ (List.mem_cons_self ..) x (by simpa using e)
    · exact ih (fun p hp => h p (List.mem_cons_of_mem _ hp)) e

/-! ## Witnesses of the statements of chapter 22 -/

namespace O22

/-- Restricted to the registers of a function, with virtual functions enabled. -/
def vfs : State := (up.onPart fun p => { p with vfEnable := true, numVfs := 255 }).onBoot fun b =>
  { b with record := { b.record with state := 2 } }

theorem test_witness_RegisterWriteStores :
    (∃ (a : Agent) (r : Reg) (w i : Nat) (s : State),
      w < r.row.windows ∧ i < r.row.count ∧ s.reaches a r w i ∧ s.quiet ∧ r.plain ∧ s.locked r w = false) := by
  refine ⟨.mgt, .HBM_CLASS_WEIGHT, 7, 0, up, ?_⟩
  all_goals repeat' apply And.intro
  all_goals decide +kernel

theorem test_witness_SameCycleUpdate :
    (∃ (r : Reg) (f : Fld) (w i : Nat) (s : State),
      w < r.row.windows ∧ i < r.row.count ∧ s.reaches .mgt r w i ∧ s.quiet ∧ r.plain ∧ s.locked r w = false ∧
      f ∈ r.fields ∧ setSource r f w = none ∧ r ≠ .VI_EVENT ∧ r ≠ .IC_VI_SYNC) := by
  refine ⟨.HBM_ECC_CE, F.HBM_ECC_CE_CE_PC0, 255, 0, up, ?_⟩
  all_goals repeat' apply And.intro
  all_goals decide +kernel

theorem test_witness_RegisterRead :
    (∃ (a : Agent) (r : Reg) (w i : Nat) (s : State),
      (∀ v, a ≠ .host v) ∧ w < r.row.windows ∧ i < r.row.count ∧ (r ≠ .RAS_BUCKET ∨ isChannel i = true) ∧
      r ≠ .TIME_NOW_LO ∧ r ≠ .TIME_NOW_HI ∧ s.dark r w = false) ∧
    (∃ (addr : Nat) (s : State),
      regAt addr = none ∧ s.fld F.GLB_DENY_LOG_VALID = 0 ∧ addr / 4 < 2 ^ 24) := by
  refine ⟨⟨.mgt, .XU_CHK_CTRL, 255, 0, up, ?_⟩,
    ⟨0x3FFFFFC, up, ?_⟩⟩
  all_goals repeat' apply And.intro
  all_goals decide +kernel

theorem test_witness_DeniedWrite :
    (∃ (r : Reg) (w i : Nat) (s : State),
      w < r.row.windows ∧ i < r.row.count ∧ chiefOnly r = true ∧ r ≠ .RAS_BUCKET ∧ s.dark r w = false ∧ s.quiet ∧
      s.fld F.GLB_DENY_LOG_VALID = 0) ∧
    (∃ (r : Reg) (w i : Nat) (s : State),
      w < r.row.windows ∧ i < r.row.count ∧ chiefOnly r = true ∧ r ≠ .RAS_BUCKET ∧ s.dark r w = false ∧ s.quiet ∧
      s.fld F.GLB_DENY_LOG_VALID = 1) ∧
    (∃ (n : Fin 256) (off : Nat) (s : State),
      n.val ≠ 0 ∧ s.barOpen n = true ∧ off % 4 = 0 ∧ viewAddr n off = none ∧ ¬(0xF0000 ≤ off ∧ off < 0xF8100) ∧
      s.quiet ∧ s.fld F.PCI_BAR_ERR_VALID = 0) := by
  refine ⟨⟨.LC_CMD, 0, 0, up, ?_⟩,
    ⟨.LC_CMD, 0, 0, (up.setReg .GLB_DENY_LOG 0 0 0x89002C00), ?_⟩,
    ⟨41, 0x2010, vfs, ?_⟩⟩
  all_goals repeat' apply And.intro
  all_goals decide +kernel

theorem test_witness_ManagementAndBridgeAccess :
    (∃ (r : Reg) (w i : Nat) (s : State),
      w < r.row.windows ∧ i < r.row.count ∧ s.reaches .mgt r w i ∧ s.quiet ∧ r.plain ∧ s.locked r w = false ∧
      s.mgtUp = true) ∧
    (∃ (r : Reg) (w i : Nat) (s : State),
      w < r.row.windows ∧ i < r.row.count ∧ (r ≠ .RAS_BUCKET ∨ isChannel i = true) ∧ r ≠ .TIME_NOW_LO ∧
      r ≠ .TIME_NOW_HI ∧ s.dark r w = false ∧ s.mgtUp = true) ∧
    (∃ (addr : Nat) (s : State),
      addr % 4 ≠ 0 ∧ s.mgtUp = true ∧ s.quiet) ∧
    (∃ (r : Reg) (w i : Nat) (s : State),
      w < r.row.windows ∧ i < r.row.count ∧ s.reaches .bridge r w i ∧ s.quiet ∧ r.plain ∧ s.locked r w = false ∧
      s.host.jtag = .ijtag) := by
  refine ⟨⟨.HBM_CLASS_WEIGHT, 7, 0, up, ?_⟩,
    ⟨.XU_CHK_CTRL, 255, 0, up, ?_⟩,
    ⟨2, up, ?_⟩,
    ⟨.HBM_CLASS_WEIGHT, 7, 0, (up.onHost fun h => { h with jtag := .ijtag }), ?_⟩⟩
  all_goals repeat' apply And.intro
  all_goals decide +kernel

theorem test_witness_StepRunsFrontCommand :
    (∃ (c : Instr) (rest : List Instr) (s : State),
      s.pending = c :: rest) ∧
    (∃ (s : State),
      s.pending = []) := by
  refine ⟨⟨.timeBeatSend, [], { up with pending := [.timeBeatSend] }, ?_⟩,
    ⟨up, ?_⟩⟩
  all_goals repeat' apply And.intro
  all_goals decide +kernel

end O22

/-! ## Witnesses of the statements of chapter 02 -/

namespace O02

/-- A root that follows itself. -/
def rootAt (t : Nat) : State := (upAt t).onTime fun x => { x with root := some { id := 0, configured := false, priority := 0 } }

def rep (st : TimeState) : Replica := { Replica.free with state := st }

def info (dev : Nat) : InitInfo :=
  { version := 1, caps := 15, device := dev, port := 1, role := 1, lanes := 4, fresh := true, rxNext := 0
    credits := [1, 1, 1, 1, 1, 1, 1, 1, 1] }

/-- Port 63 works and its peer is device 9. -/
def linkedAt (t : Nat) : State := (upAt t).setPort 63 { Port.reset with state := .active, peer := some (info 9) }

def heard (p : Nat) : Option PortAnnounce :=
  some { root := { id := 5, configured := true, priority := 3 }, hops := 31, heard := p }

/-- A follower of device 5 over port 63, with a path on port 8 too. -/
def follower : State := ((linkedAt 20000).setPort 8 { Port.reset with state := .active, peer := some (info 7) }).onTime
  fun x => { x with upstream := some 63, announces := [(8, heard 19000), (63, heard 5)]
                    root := some { id := 5, configured := true, priority := 3 }, hops := 31 }

def arrival (m : LinkMsg) : TimeArrival := { port := 63, msg := m, stamp := 2 ^ 56 + 4096 }

def arrived (m : LinkMsg) : State := (linkedAt 20000).onClz fun c => { c with inbox := [arrival m] }

def exch : DelayExch := { DelayExch.empty with num := 255, awaiting := true, t1 := some 1000, began := 100 }

def exchD : DelayExch := { DelayExch.empty with num := 255, awaiting := true, t2 := some 5200, t3 := some 5280, began := 100 }

theorem test_witness_ReferenceLostAndPresent :
    (∃ (s : State),
      s.time.refPresent = true) ∧
    (∃ (s : State),
      s.time.refPresent = false) := by
  refine ⟨⟨((rootAt 5).onTime fun x => { x with refPresent := true, replicas := [(0, rep .locked)] }), ?_⟩,
    ⟨((rootAt 5).onTime fun x => { x with rootHoldover := true, replicas := [(0, { rep .holdover with left := true })] }), ?_⟩⟩
  all_goals repeat' apply And.intro
  all_goals decide +kernel

theorem test_witness_AnnouncementsSentAndHeard :
    (∃ (p : Fin 64) (s s1 : State) (x : TimeArrival) (role prio hops id dev : Nat),
      s.takeTime p (fun m => match m with | .announce .. => true | _ => false) = some (x, s1) ∧
      x.msg = .announce true role prio hops id dev) := by
  refine ⟨63, (arrived (.announce true 2 7 31 4 9)), (linkedAt 20000), (arrival (.announce true 2 7 31 4 9)), 2, 7, 31, 4, 9, ?_⟩
  all_goals repeat' apply And.intro
  all_goals decide +kernel

theorem test_witness_BestRootWins :
    (∃ (s : State) (r : RootInfo),
      s.bestRoot = some r) := by
  refine ⟨follower, { id := 5, configured := true, priority := 3 }, ?_⟩
  all_goals repeat' apply And.intro
  all_goals decide +kernel

theorem test_witness_UpstreamLostAndReplaced :
    (∃ (s : State),
      s.upstreamSilent = true) ∧
    (∃ (s : State) (n p hops : Nat) (r : RootInfo),
      s.time.lostAt = some n ∧ s.time.root = some r ∧ s.bestPort r = some (p, hops)) ∧
    (∃ (s : State) (n : Nat) (r : RootInfo),
      s.time.lostAt = some n ∧ s.time.root = some r ∧ s.bestPort r = none) := by
  refine ⟨⟨follower, ?_⟩,
    ⟨(follower.onTime fun x => { x with lostAt := some 19999 }), 19999, 8, 31, { id := 5, configured := true, priority := 3 }, ?_⟩,
    ⟨(follower.onTime fun x => { x with lostAt := some 19999, announces := [] }), 19999, { id := 5, configured := true, priority := 3 }, ?_⟩⟩
  all_goals repeat' apply And.intro
  all_goals decide +kernel

theorem test_witness_DomainCountStarts :
    (∃ (s : State),
      s.isRoot = true ∧ s.time.upstream = none ∧ (s.replica 0).state ≠ .locked ∧ s.time.counting = false ∧
      s.fld F.TIME_CTRL_PPS_IN_EN = 0 ∧ s.count 0 < 2 ^ 88) ∧
    (∃ (s : State) (since : Nat),
      s.isRoot = true ∧ s.time.pps = .waiting since ∧ s.time.counting = false ∧ s.count 0 < 2 ^ 88 ∧
      s.startingValue + 999999999 < 2 ^ 64) ∧
    (∃ (s : State),
      s.time.counting = true) ∧
    (∃ (s : State) (since : Nat),
      s.isRoot = true ∧ s.time.pps = .waiting since ∧ 2000000000 ≤ s.time.tick - since ∧ s.time.counting = false ∧
      s.count 0 < 2 ^ 88) := by
  refine ⟨⟨((rootAt 77).onTime fun x => { x with replicas := [(0, rep .acquire)] }), ?_⟩,
    ⟨(((rootAt 77).onTime fun x => { x with pps := .waiting 4, replicas := [(0, rep .locked)] }).setReg .TIME_EPOCH_HI 0 0 5), 4, ?_⟩,
    ⟨((rootAt 77).onTime fun x => { x with counting := true }), ?_⟩,
    ⟨((rootAt 2000000004).onTime fun x => { x with pps := .waiting 4, replicas := [(0, rep .locked)] }), 4, ?_⟩⟩
  all_goals repeat' apply And.intro
  all_goals decide +kernel

theorem test_witness_PpsPulseAndPresence :
    (∃ (s : State) (t : Nat),
      s.time.ppsSeen = some t ∧ 1100000000 ≤ s.time.tick - t) := by
  refine ⟨((upAt 1100000007).onTime (fun x => { x with ppsSeen := some 7 })), 7, ?_⟩
  all_goals repeat' apply And.intro
  all_goals decide +kernel

theorem test_witness_BeatsDiscipline :
    (∃ (i : Island) (b : Beat) (s : State),
      s.time.beats.find? (fun b => b.dest == i.key) = some b) ∧
    (∃ (i : Island) (s : State),
      (s.replica i.key).state = .locked ∧ 2048 ≤ s.time.tick - (s.replica i.key).beatAt ∧
      ¬(s.isRoot = true ∧ i.key = 0)) := by
  refine ⟨⟨(.port 63), { dest := 127, sent := 2 ^ 40 }, ((upAt 300).onTime fun x => { x with beats := [{ dest := 127, sent := 2 ^ 40 }] }), ?_⟩,
    ⟨(.alcove 255), ((upAt 2050).onTime fun x => { x with replicas := [(511, { rep .locked with freq := 100, beatAt := 2, inc := 2 ^ 24 + 500 })] }), ?_⟩⟩
  all_goals repeat' apply And.intro
  all_goals decide +kernel

theorem test_witness_DisciplineNeverGoesBack :
    (∃ (now later : Nat),
      now ≤ later) ∧
    (∃ (r : Replica) (sent here : Int),
      r.state = .locked ∧ (sent - here).natAbs ≤ 65536) ∧
    (∃ (r : Replica) (now : Nat) (sent here : Int),
      r.since ≤ now ∧ ((r.beat now sent here).at now ≠ r.at now ∨ now < (r.beat now sent here).since)) := by
  refine ⟨⟨100, 101, ?_⟩,
    ⟨(rep .locked), 1584, 1600, ?_⟩,
    ⟨(rep .locked), 100, 100000, 1600, ?_⟩⟩
  all_goals repeat' apply And.intro
  all_goals decide +kernel

theorem test_witness_DelayExchangeRuns :
    (∃ (p : Fin 64) (s : State),
      s.timePort p = true ∧ s.upstreamSide p = true) ∧
    (∃ (p : Fin 64) (s s1 : State) (x : TimeArrival) (n : Nat),
      s.takeTime p (fun m => match m with | .delayReq _ => true | _ => false) = some (x, s1) ∧ x.msg = .delayReq n) ∧
    (∃ (p : Fin 64) (s s1 : State) (x : TimeArrival) (n t1 t2 t3 : Nat),
      s.takeTime p (fun m => match m with | .delayResp .. => true | _ => false) = some (x, s1) ∧
      x.msg = .delayResp n t2 t3 ∧ (s.exchange p).awaiting = true ∧ (s.exchange p).num = n ∧
      (s.exchange p).t1 = some t1) ∧
    (∃ (p : Fin 64) (s s1 : State) (x : TimeArrival) (n t1 t2 t3 t4 : Nat),
      s.takeTime p (fun m => match m with | .delayFollow .. => true | _ => false) = some (x, s1) ∧
      x.msg = .delayFollow n t1 t4 ∧ (s.exchange p).awaiting = true ∧ (s.exchange p).num = n ∧
      (s.exchange p).t2 = some t2 ∧ (s.exchange p).t3 = some t3) ∧
    (∃ (p : Fin 64) (s : State),
      (s.exchange p).awaiting = true ∧ 65536 ≤ s.time.tick - (s.exchange p).began) := by
  refine ⟨⟨63, (linkedAt 20000), ?_⟩,
    ⟨63, (arrived (.delayReq 255)), (linkedAt 20000), (arrival (.delayReq 255)), 255, ?_⟩,
    ⟨63, ((arrived (.delayResp 255 1200 1280)).setExchange 63 exch), ((linkedAt 20000).setExchange 63 exch), (arrival (.delayResp 255 1200 1280)), 255, 1000, 1200, 1280, ?_⟩,
    ⟨63, ((arrived (.delayFollow 255 1200 9280)).setExchange 63 exchD), ((linkedAt 20000).setExchange 63 exchD), (arrival (.delayFollow 255 1200 9280)), 255, 1200, 5200, 5280, 9280, ?_⟩,
    ⟨63, ((upAt 65636).setExchange 63 exch), ?_⟩⟩
  all_goals repeat' apply And.intro
  all_goals decide +kernel

theorem test_witness_TimeControlAndRead :
    (∃ (a : Agent) (s : State),
      s.reaches a .TIME_CTRL ∧ s.quiet) ∧
    (∃ (a : Agent) (s : State),
      s.fld F.BOOT_STATUS_STATE ≠ 5 ∧ (∀ v, a = .host v → s.barOpen v = true)) := by
  refine ⟨⟨.mgt, up, ?_⟩,
    ⟨(.host 0), (upAt 500), ?_⟩⟩
  all_goals repeat' apply And.intro
  all_goals decide +kernel

end O02

/-! ## Witnesses of the statements of chapter 03 -/

namespace O03

/-- Alcove 97 with the core in a state. -/
def coreIn (st : CoreState) : State := up.setAlcove 97 { Alcove.reset with core := { Core.reset with state := st, pc := 40 } }

def hcIn (st : CoreState) : State := up.setHc 7 { HallCtl.reset with core := { Core.reset with state := st, pc := 40 } }

/-- A stream of 64 rows of FP8 from offset 0x100 whose first bytes are 1 and 2. -/
def stream0 : Stream := {
  kind := .swgt, tag := 5, dst := 3, fmt := 0, rows := 64
  window := { addr := 0x100, stride := 64, low := 0x100, high := 0x2000 }
  snap := [⟨0x100, 1⟩, ⟨0x101, 2⟩, ⟨0x1180, 9⟩], snapPoison := []
  cursors := [], claimed := 64, closed := false, tile := AccTile.zero
  rnd := .nearest, sat := false, hist := none, seed := 0, pos := 0, pc := 9 }

def held0 : HeldWrite := { bundle := 4095, bits := 77, poison := true, engine := 0, copy := 0, packet := 0, last := false }

/-- Alcove 255 with units 0 to 3 as given. -/
def unitsOf (f : Nat → XUnit) : State :=
  up.setAlcove 255 { Alcove.reset with streams := [stream0], units := [(0, f 0), (1, f 1), (2, f 2), (3, f 3)] }

def plane1 : Plane := { state := .valid, fmt := 0, bs := false, rows := [5, 6], poison := false }

/-- A pass over two rows with one valid plane. -/
def pass0 : XOp := .mpass 12 5 0 2 64 0 0 false false false 0 0 0 3 .quad

def tile1 : AccTile := { AccTile.zero with elems := [(0, 9)] }

/-- Alcove 97 runs rank 0 of operation 0 of queue 300. -/
def granted (x : Alcove) (o : Operation) : State :=
  (up.setQueue 300 (wq0 [{ o with ranks := [rank0 97] }])).setAlcove 97
    { x with grant := some { queue := 300, op := 0, rank := 0, size := 1 } }

theorem test_witness_CoreHaltsAndResumes :
    (∃ (a : Agent) (n : Fin 256) (s : State),
      s.reaches a .ALC_CTRL n ∧ s.quiet ∧
      ((s.alcove n).core.state = .running ∨ (s.alcove n).core.state = .waiting)) ∧
    (∃ (a : Agent) (n : Fin 256) (s : State),
      s.reaches a .ALC_CTRL n ∧ s.quiet ∧ (s.alcove n).core.state = .halted) ∧
    (∃ (a : Agent) (n : Fin 256) (v : Nat) (s : State),
      s.reaches a .ALC_CTRL n ∧ s.quiet ∧ (s.alcove n).core.state = .halted ∧
      F.ALC_CTRL_RESUME.of (v % 2 ^ 32) = 0) ∧
    (∃ (a : Agent) (h : Fin 8) (v : Nat) (s : State),
      s.reaches a .ALC_HC_CTRL h ∧ s.quiet ∧ ((s.hc h).core.state = .running ∨ (s.hc h).core.state = .waiting) ∧
      F.ALC_HC_CTRL_RESTART.of (v % 2 ^ 32) = 0) ∧
    (∃ (a : Agent) (h : Fin 8) (v : Nat) (s : State),
      s.reaches a .ALC_HC_CTRL h ∧ s.quiet ∧ (s.hc h).core.state = .halted ∧
      F.ALC_HC_CTRL_RESTART.of (v % 2 ^ 32) = 0) := by
  refine ⟨⟨.mgt, 97, (coreIn .running), ?_⟩,
    ⟨.mgt, 97, (coreIn .halted), ?_⟩,
    ⟨.mgt, 97, 4, (coreIn .halted), ?_⟩,
    ⟨.mgt, 7, 1, (hcIn .waiting), ?_⟩,
    ⟨.mgt, 7, 2, (hcIn .halted), ?_⟩⟩
  all_goals repeat' apply And.intro
  all_goals decide +kernel

theorem test_witness_ControllerRestarts :
    (∃ (a : Agent) (h : Fin 8) (s : State),
      s.reaches a .ALC_HC_CTRL h ∧ s.quiet ∧ (a = .pmc ∨ a.isManagement = true)) ∧
    (∃ (h : Fin 8) (s : State),
      (s.hc h).core.state = .faulted ∧ s.boot.step ≠ 8 ∧
      ((s.hc h).faults.filter fun t => s.time.tick - t < 3600000000000).length < 2) ∧
    (∃ (h : Fin 8) (s : State),
      (s.hc h).core.state = .faulted ∧ s.boot.step ≠ 8 ∧
      2 ≤ ((s.hc h).faults.filter fun t => s.time.tick - t < 3600000000000).length) := by
  refine ⟨⟨.mgt, 7, ((hcIn .faulted).setIcSource 1000 { state := .activePending, target := some 7, lastChoice := 9 }), ?_⟩,
    ⟨7, (hcIn .faulted), ?_⟩,
    ⟨7, ((upAt 5000).setHc 7 { HallCtl.reset with core := { Core.reset with state := .faulted, pc := 40 }, faults := [30, 20] }), ?_⟩⟩
  all_goals repeat' apply And.intro
  all_goals decide +kernel

theorem test_witness_GroupAborts :
    (∃ (n : Fin 256) (m : Nat) (s : State),
      (s.alcove n).abortBy = some m ∧ m < 256 ∧ s.quiet ∧
      ((s.alcove n).core.state = .running ∨ (s.alcove n).core.state = .waiting ∨ (s.alcove n).core.state = .halted) ∧
      (s.alcove n).core.pc < 4096) := by
  refine ⟨97, 255, ((up.setFld F.ALC_FAULT_VALID 1 97).setAlcove 97 { Alcove.reset with abortBy := some 255, core := { Core.reset with state := .running, pc := 4095 } }), ?_⟩
  all_goals repeat' apply And.intro
  all_goals decide +kernel

theorem test_witness_ResultsWaitsAndReports :
    (∃ (n : Fin 256) (k : Nat) (w : WriteBack) (s : State),
      (s.alcove n).core.wb[k]? = some w) ∧
    (∃ (n : Fin 256) (s : State),
      (s.alcove n).core.state = .waiting ∧ s.waitHolds n (s.alcove n).core = true) ∧
    (∃ (n : Fin 265) (s : State),
      s.waitHolds n (s.coreAt n) = false) ∧
    (∃ (n : Fin 256) (g : Grant) (o : Operation) (r : Rank) (s : State),
      (s.alcove n).grant = some g ∧ (s.alcove n).core.state = .draining ∧ (s.alcove n).quiet = true ∧
      s.op? g.queue g.op = some o ∧ o.ranks[g.rank]? = some r ∧ r.reported = false ∧ o.pauseWanted = false) := by
  refine ⟨⟨255, 0, { reg := { file := .g, idx := 5 }, val := .g { val := 7, poison := false }, latency := 3, flags := 1, flagged := true }, (up.setAlcove 255 { Alcove.reset with core := { Core.reset with wb := [{ reg := { file := .g, idx := 5 }, val := .g { val := 7, poison := false }, latency := 3, flags := 1, flagged := true }] } }), ?_⟩,
    ⟨255, (up.setAlcove 255 { Alcove.reset with core := { Core.reset with state := .waiting, wait := some .sync, granted := true } }), ?_⟩,
    ⟨264, (up.setHc 8 { HallCtl.reset with core := { Core.reset with state := .waiting, wait := some .interrupt } }), ?_⟩,
    ⟨97, { queue := 300, op := 0, rank := 0, size := 1 }, { op0 with ranks := [rank0 97] }, (rank0 97), (granted { Alcove.reset with ended := true, core := { Core.reset with state := .draining } } op0), ?_⟩⟩
  all_goals repeat' apply And.intro
  all_goals decide +kernel

theorem test_witness_SavePointReached :
    (∃ (n : Fin 256) (g : Grant) (s : State),
      (s.alcove n).atSavePoint = true ∧ (s.alcove n).quiet = true ∧ (s.alcove n).core.busy = [] ∧
      (s.alcove n).grant = some g ∧ (∀ o, s.op? g.queue g.op = some o → o.status ≠ stPartial)) := by
  refine ⟨97, { queue := 300, op := 0, rank := 0, size := 1 }, (granted { Alcove.reset with pausePending := true, istore := [(40, BitVec.ofNat 1024 (0x210 * 2 ^ 256))], walker := { Walker.empty with next := 4, done := 2 }, core := { Core.reset with state := .running, pc := 40 } } op0), ?_⟩
  all_goals repeat' apply And.intro
  all_goals decide +kernel

theorem test_witness_HeldBundleWritten :
    (∃ (n : Fin 256) (w : HeldWrite) (rest : List HeldWrite) (s : State),
      (s.alcove n).held = w :: rest ∧ (s.alcove n).shifting = false ∧ w.last = false) ∧
    (∃ (n : Fin 256) (s : State),
      (s.alcove n).shifting = true) := by
  refine ⟨⟨97, held0, [], (up.setAlcove 97 { Alcove.reset with held := [held0] }), ?_⟩,
    ⟨255, (unitsOf fun u => { XUnit.reset with shift := if u = 3 then some (.wshift 5 0 0 false) else none }), ?_⟩⟩
  all_goals repeat' apply And.intro
  all_goals decide +kernel

theorem test_witness_PlanesShiftAndSwap :
    (∃ (n : Fin 256) (u : Fin 4) (tag first fmt : Nat) (bs : Bool) (rest : List XOp) (k : Nat) (t : Stream) (s : State),
      ((s.alcove n).unit u).queue = .wshift tag first fmt bs :: rest ∧ (s.alcove n).streamAt tag = some (k, t) ∧
      ((s.alcove n).unit u).shift = none ∧ (s.alcove n).held = [] ∧ (s.alcove n).fenced k = false) ∧
    (∃ (n : Fin 256) (u : Fin 4) (rest : List XOp) (s : State),
      ((s.alcove n).unit u).queue = .wswap false :: rest ∧ ((s.alcove n).unit u).idle = true) ∧
    (∃ (n : Fin 256) (s : State),
      (∀ v, v < 4 → ((s.alcove n).unit v).queue.head? = some (.wswap true) ∧ ((s.alcove n).unit v).idle = true)) ∧
    (∃ (n : Fin 256) (m : Gang) (s : State),
      (∀ v, v < 4 → ((s.alcove n).unit v).queue.head? = some (.gang m) ∧ ((s.alcove n).unit v).idle = true)) := by
  refine ⟨⟨255, 3, 5, 0, 0, false, [], 0, stream0, (unitsOf fun _ => { XUnit.reset with queue := [.wshift 5 0 0 false] }), ?_⟩,
    ⟨255, 3, [], (unitsOf fun _ => { XUnit.reset with queue := [.wswap false], shadow := plane1 }), ?_⟩,
    ⟨255, (unitsOf fun u => { XUnit.reset with queue := [.wswap true], active := { plane1 with fmt := u } }), ?_⟩,
    ⟨255, .wide, (unitsOf fun _ => { XUnit.reset with queue := [.gang .wide] }), ?_⟩⟩
  all_goals repeat' apply And.intro
  all_goals decide +kernel

theorem test_witness_ShiftFillsShadowPlane :
    (∃ (n : Fin 256) (u : Fin 4) (tag first fmt : Nat) (bs : Bool) (k : Nat) (t : Stream) (s : State),
      ((s.alcove n).unit u).shift = some (.wshift tag first fmt bs) ∧ (s.alcove n).streamAt tag = some (k, t) ∧
      s.noShots ∧ (s.alcove n).upsets = []) := by
  refine ⟨255, 3, 5, 0, 0, false, 0, stream0, (unitsOf fun _ => { XUnit.reset with shift := some (.wshift 5 0 0 false), active := plane1 }), ?_⟩
  all_goals repeat' apply And.intro
  all_goals decide +kernel

theorem test_witness_PassesComplete :
    (∃ (n : Fin 256) (u : Fin 4) (acc cols : Nat) (rest : List XOp) (s : State),
      ((s.alcove n).unit u).queue = .accz acc cols :: rest) ∧
    (∃ (n : Fin 256) (u : Fin 4) (v : Nat) (x : VecReg) (rest : List PassJob) (j : PassJob) (s : State),
      ((s.alcove n).unit u).pipe = j :: rest ∧ j.op = .accrd v x ∧ j.tiles = [] ∧ j.flags = 0) ∧
    (∃ (n : Fin 256) (u : Fin 4) (acc tag first rows depth fmtA fmtW cols round sat pc k : Nat) (add chk bs : Bool) (m : Gang) (rest : List XOp) (t : Stream) (s : State),
      ((s.alcove n).unit u).queue = .mpass acc tag first rows depth fmtA fmtW add chk bs cols round sat pc m :: rest ∧
      (s.alcove n).streamAt tag = some (k, t) ∧ (s.alcove n).fenced k = false ∧ s.noShots ∧
      (s.alcove n).upsets = []) ∧
    (∃ (n : Fin 256) (u : Fin 4) (rest : List PassJob) (j : PassJob) (s : State),
      ((s.alcove n).unit u).pipe = j :: rest ∧ j.checks = [] ∧ (j.tiles.map (·.1)).Nodup ∧ s.noShots) := by
  refine ⟨⟨255, 3, 15, (2 ^ 63), [], (unitsOf fun _ => { XUnit.reset with queue := [.accz 15 (2 ^ 63)] }), ?_⟩,
    ⟨255, 3, 31, { bits := 99, poison := true }, [], ((XOp.accrd 31 { bits := 99, poison := true }).plainJob []), (unitsOf fun _ => { XUnit.reset with pipe := [(XOp.accrd 31 { bits := 99, poison := true }).plainJob []] }), ?_⟩,
    ⟨255, 3, 12, 5, 0, 2, 64, 0, 0, 0, 0, 0, 3, 0, false, false, false, .quad, [], stream0, (unitsOf fun _ => { XUnit.reset with queue := [.mpass 12 5 0 2 64 0 0 false false false 0 0 0 3 .quad], active := { plane1 with rows := List.replicate 64 (2 ^ 511) } }), ?_⟩,
    ⟨255, 3, [], { op := pass0, tiles := [(12, tile1)], flags := 4, checks := [], skipped := 3, fed := 9, int := false }, (unitsOf fun _ => { XUnit.reset with pipe := [{ op := pass0, tiles := [(12, tile1)], flags := 4, checks := [], skipped := 3, fed := 9, int := false }] }), ?_⟩⟩
  all_goals repeat' apply And.intro
  all_goals decide +kernel

theorem test_witness_TileParityPoisons :
    (∃ (n : Fin 256) (t : Fin 16) (s : State),
      s.retired (unitChannel n (t / 4)) = false) := by
  refine ⟨255, 15, (up.setAlcove 255 { Alcove.reset with tiles := [(15, tile1)] }), ?_⟩
  all_goals repeat' apply And.intro
  all_goals decide +kernel

theorem test_witness_StreamsAndDrainsComplete :
    (∃ (n : Fin 256) (k : Nat) (t : Stream) (s : State),
      (s.alcove n).streams[k]? = some t ∧ (t.kind = .sbcast ∨ t.kind = .swgt) ∧ (s.alcove n).fenced k = false ∧
      (s.alcove n).undelivered t.tag = false ∧ (t.closed = true ∨ t.claimedAll = true)) ∧
    (∃ (n : Fin 256) (t : Stream) (rest : List Stream) (s : State),
      (s.alcove n).streams = t :: rest ∧ t.kind = .sdrain) := by
  refine ⟨⟨97, 0, stream0, (up.setAlcove 97 { Alcove.reset with streams := [stream0] }), ?_⟩,
    ⟨97, { stream0 with kind := .sdrain, rows := 2 }, [], (up.setAlcove 97 { Alcove.reset with streams := [{ stream0 with kind := .sdrain, rows := 2 }] }), ?_⟩⟩
  all_goals repeat' apply And.intro
  all_goals decide +kernel

end O03

/-! ## Witnesses of the statements of chapter 04 -/

namespace O04

/-- A slot word of an opcode, with MOD, the four specifiers and IMM. -/
def word (op mod dst s1 s2 s3 imm : Nat) : BitVec 128 :=
  BitVec.ofNat 128 (op + mod * 2 ^ 20 + dst * 2 ^ 32 + s1 * 2 ^ 40 + s2 * 2 ^ 48 + s3 * 2 ^ 56 + imm * 2 ^ 64)

/-- The bundle of one word in slot `k`. -/
def only (k : Nat) (w : BitVec 128) : BitVec 1024 := BitVec.ofNat 1024 (w.toNat * 2 ^ (128 * k))

/-- What a core fetches at bundle 40. -/
def fetched (b : BitVec 1024) : Fetched := { idx := 40, bits := b, poison := false }

/-- Alcove 255 runs at bundle 40, which is `b`; g5 holds 7, g6 a poisoned 2^64 − 1, a2 offset 0x40. -/
def runs (b : BitVec 1024) (f : Core → Core) : State := up.setAlcove 255 { Alcove.reset with
  istore := [(40, b)], store := [⟨0x41, 9⟩]
  core := f { Core.reset with
    state := .running, pc := 40
    g := [(5, { val := 7, poison := false }), (6, { val := 2 ^ 64 - 1, poison := true })]
    a := [(2, { addr := 0x40, stride := 0xFFFFFC, low := 0, high := 0x100 })] } }

/-- Token queue 300 of hall 7, and its allocation to VI 0. -/
def tqGa : Nat := up.handle 7 0 300

def tAlloc : Alloc := { vi := 0, space := .t, base := 300, size := 1, hall := 7, kind := 0, half := 0, attr := 0
                        region := none, mapping := false, unmapping := false }

def frame1 : LoopFrame := { lc := 3, start := 38, stop := 40 }

theorem test_witness_BundleIssues :
    (∃ (n : Fin 256) (s : State),
      s.noShots ∧ (s.alcove n).core.prefetch = [] ∧ (s.alcove n).core.pc + 3 < 4096) ∧
    (∃ (n : Fin 265) (f : Fetched) (s : State),
      s.issues n f) ∧
    (∃ (n : Fin 256) (f : Fetched) (s : State),
      s.issues n f ∧ (∀ k, k < 8 → slotOp (bundleSlot f.bits k) = 0) ∧
      ((s.fetch n).alcove n).core.stepOne = false ∧ ((s.fetch n).alcove n).core.loops = []) := by
  refine ⟨⟨255, (runs 0 id), ?_⟩,
    ⟨255, (fetched 0), (runs 0 id), ?_⟩,
    ⟨255, (fetched 0), (runs 0 id), ?_⟩⟩
  all_goals repeat' apply And.intro
  all_goals decide +kernel

theorem test_witness_LoopsRepeat :
    (∃ (n : Fin 256) (f : Fetched) (r : LoopFrame) (rest : List LoopFrame) (s : State),
      s.issues n f ∧ (∀ k, k < 8 → slotOp (bundleSlot f.bits k) = 0) ∧
      ((s.fetch n).alcove n).core.stepOne = false ∧ ((s.fetch n).alcove n).core.loops = r :: rest ∧
      r.stop = ((s.fetch n).alcove n).core.pc ∧ 1 < ((s.fetch n).alcove n).core.lcReg r.lc) ∧
    (∃ (n : Fin 256) (f : Fetched) (r : LoopFrame) (s : State),
      s.issues n f ∧ (∀ k, k < 8 → slotOp (bundleSlot f.bits k) = 0) ∧
      ((s.fetch n).alcove n).core.stepOne = false ∧ ((s.fetch n).alcove n).core.loops = [r] ∧
      r.stop = ((s.fetch n).alcove n).core.pc ∧ ((s.fetch n).alcove n).core.lcReg r.lc = 1) := by
  refine ⟨⟨255, (fetched 0), frame1, [], (runs 0 fun c => { c with loops := [frame1], lc := [(3, 2)] }), ?_⟩,
    ⟨255, (fetched 0), frame1, (runs 0 fun c => { c with loops := [frame1], lc := [(3, 1)] }), ?_⟩⟩
  all_goals repeat' apply And.intro
  all_goals decide +kernel

theorem test_witness_ScalarResults :
    (∃ (n : Fin 256) (f : Fetched) (w : SlotWord) (s : State),
      s.issues n f ∧ alone f.bits 0 w ∧ slotOp w = 0x100 ∧ ((s.fetch n).alcove n).core.predBits w % 2 = 1 ∧
      ((s.fetch n).alcove n).core.stepOne = false ∧ ((s.fetch n).alcove n).core.loops = []) ∧
    (∃ (n : Fin 256) (f : Fetched) (w : SlotWord) (s : State),
      s.issues n f ∧ alone f.bits 0 w ∧ slotOp w = 0x118 ∧ modField w 0 1 = 0 ∧
      ((s.fetch n).alcove n).core.predBits w % 2 = 1 ∧ ((s.fetch n).alcove n).core.stepOne = false ∧
      ((s.fetch n).alcove n).core.loops = []) := by
  refine ⟨⟨255, (fetched (only 0 (word 0x100 0 6 5 6 0 0))), (word 0x100 0 6 5 6 0 0), (runs (only 0 (word 0x100 0 6 5 6 0 0)) id), ?_⟩,
    ⟨255, (fetched (only 0 (word 0x118 0 6 5 6 0 0))), (word 0x118 0 6 5 6 0 0), (runs (only 0 (word 0x118 0 6 5 6 0 0)) id), ?_⟩⟩
  all_goals repeat' apply And.intro
  all_goals decide +kernel

theorem test_witness_LoadsAndStores :
    (∃ (n : Fin 256) (f : Fetched) (w : SlotWord) (s : State),
      s.issues n f ∧ alone f.bits 2 w ∧ slotOp w = 0x201 ∧ ((s.fetch n).alcove n).core.predBits w % 2 = 1 ∧
      ((s.fetch n).alcove n).core.stepOne = false ∧ ((s.fetch n).alcove n).core.loops = []) ∧
    (∃ (n : Fin 256) (f : Fetched) (w : SlotWord) (s : State),
      s.issues n f ∧ alone f.bits 2 w ∧ slotOp w = 0x200 ∧ ((s.fetch n).alcove n).core.predBits w % 2 = 1 ∧
      ((s.fetch n).alcove n).core.stepOne = false ∧ ((s.fetch n).alcove n).core.loops = [] ∧ modField w 3 2 ≠ 1 ∧
      s.noShots ∧ (s.alcove n).upsets = []) := by
  refine ⟨⟨255, (fetched (only 2 (word 0x201 0x0A 0 2 0 6 0))), (word 0x201 0x0A 0 2 0 6 0), (runs (only 2 (word 0x201 0x0A 0 2 0 6 0)) id), ?_⟩,
    ⟨255, (fetched (only 2 (word 0x200 0x02 31 2 0 0 0))), (word 0x200 0x02 31 2 0 0 0), (runs (only 2 (word 0x200 0x02 31 2 0 0 0)) id), ?_⟩⟩
  all_goals repeat' apply And.intro
  all_goals decide +kernel

theorem test_witness_BranchSlot :
    (∃ (n : Fin 256) (f : Fetched) (w : SlotWord) (s : State),
      s.issues n f ∧ alone f.bits 7 w ∧ (slotOp w = 0x600 ∨ slotOp w = 0x603) ∧
      ((s.fetch n).alcove n).core.predBits w % 2 = 1 ∧ ((s.fetch n).alcove n).core.stepOne = false ∧
      ((s.fetch n).alcove n).core.loops = []) ∧
    (∃ (n : Fin 256) (f : Fetched) (w : SlotWord) (s : State),
      s.issues n f ∧ alone f.bits 7 w ∧ slotOp w = 0x606 ∧ ((s.fetch n).alcove n).core.predBits w % 2 = 1 ∧
      ((s.fetch n).alcove n).core.stepOne = false ∧ modField w 0 1 = 1 ∧ 0 < immField w 0 16) ∧
    (∃ (n : Fin 256) (f : Fetched) (w : SlotWord) (s : State),
      s.issues n f ∧ alone f.bits 7 w ∧ (slotOp w = 0x610 ∨ slotOp w = 0x611) ∧
      ((s.fetch n).alcove n).core.predBits w % 2 = 1 ∧ ((s.fetch n).alcove n).core.stepOne = false ∧
      ((s.fetch n).alcove n).core.loops = [] ∧ modField w 0 1 = 1) ∧
    (∃ (n : Fin 256) (f : Fetched) (w : SlotWord) (s : State),
      s.issues n f ∧ alone f.bits 7 w ∧ slotOp w = 0x607 ∧ ((s.fetch n).alcove n).core.predBits w % 2 = 1 ∧
      ((s.fetch n).alcove n).core.stepOne = false) := by
  refine ⟨⟨255, (fetched (only 7 (word 0x600 0 0 0 0 0 4095))), (word 0x600 0 0 0 0 0 4095), (runs (only 7 (word 0x600 0 0 0 0 0 4095)) id), ?_⟩,
    ⟨255, (fetched (only 7 (word 0x606 1 3 0 0 0 (65535 + 2 ^ 32 * 50)))), (word 0x606 1 3 0 0 0 (65535 + 2 ^ 32 * 50)), (runs (only 7 (word 0x606 1 3 0 0 0 (65535 + 2 ^ 32 * 50))) id), ?_⟩,
    ⟨255, (fetched (only 7 (word 0x610 1 0 7 0 0 5))), (word 0x610 1 0 7 0 0 5), (runs (only 7 (word 0x610 1 0 7 0 0 5)) (fun c => { c with g := [(7, { val := BitVec.ofNat 64 tqGa, poison := false })] }) |>.onPart fun p => { p with allocs := [tAlloc] }), ?_⟩,
    ⟨255, (fetched (only 7 (word 0x607 0 0 0 0 0 0))), (word 0x607 0 0 0 0 0 0), (runs (only 7 (word 0x607 0 0 0 0 0 0)) id), ?_⟩⟩
  all_goals repeat' apply And.intro
  all_goals decide +kernel

theorem test_witness_FaultsArePrecise :
    (∃ (n : Fin 256) (f : Fetched) (code k d : Nat) (s : State),
      s.readyFor n f ∧ (s.fetch n).bundleFault n f.bits = some (code, k, d) ∧ code < 256 ∧ k < 8 ∧ d < 2 ^ 32 ∧
      ((s.fetch n).alcove n).core.pc < 4096 ∧ ((s.fetch n).alcove n).grant = none) ∧
    (∃ (n : Fin 256) (f : Fetched) (s : State),
      s.standsBefore n f ∧ f.poison = true ∧ f.idx < 4096 ∧ ((s.fetch n).alcove n).core.pc < 4096 ∧
      ((s.fetch n).alcove n).grant = none) := by
  refine ⟨⟨255, (fetched (only 7 (word 0x605 0 0 0 0 0 0))), 0x09, 7, 0, (runs (only 7 (word 0x605 0 0 0 0 0 0)) id), ?_⟩,
    ⟨255, { fetched 0 with poison := true }, (up.setAlcove 255 { Alcove.reset with istorePoison := [(40, true)], core := { Core.reset with state := .running, pc := 40 } }), ?_⟩⟩
  all_goals repeat' apply And.intro
  all_goals decide +kernel

end O04

/-! ## Witnesses of the statements of chapter 08 -/

namespace O08

def job (e : Nat) : CopyJob := {
  id := 12, origin := .alcove 40 3, started := false, vi := 0, part := none, launch := none, error := e, poison := false
  cause := 0, sharedPoison := none, before := []
  req := { w0 := 0x0807060504030201, w1 := gaMake 0 2 (40 * 2 ^ 21 + 0x1003), w2 := 2 ^ 60 + 0x8ABC * 2 ^ 32 + 253, w3 := 2 ^ 48 }
  packets := [] }

def packet (k : Nat) (acked : Bool) : Packet :=
  { idx := k, src := 0, dst := 0, len := 64, data := some [1], poison := 0, sent := true, acked := acked, pseq := none }

/-- A copy between the galleries of halls 1 and 7. -/
def burstJob : CopyJob := { job 0 with
  started := true, req := { w0 := gaMake 0 1 (2 ^ 26), w1 := gaMake 0 1 (7 * 2 ^ 26 + 4096), w2 := 256, w3 := 2 ^ 48 }
  packets := [{ packet 0 false with src := gaMake 0 1 (2 ^ 26), dst := gaMake 0 1 (7 * 2 ^ 26 + 4096), len := 256, sent := false
                                    data := none }] }

def runsJob (j : CopyJob) : State := up.onMem fun m => { m with engines := [(63, { CopyEngine.reset with running := some j })] }

def flight (n c : Nat) : Flight := {
  origin := .engine 63 12 0, kind := .write, dst := gaMake 0 2 (n * 2 ^ 21 + 0x1003), data := [1, 2, 255], poison := 0
  counter := c, vi := 0, job := 0, hdr := none, waiting := false }

def flies (f : Flight) : State := (up.onMem fun m => { m with inflight := [f], counters := [(7 * 4096 + 5, { count := 9, packets := true })] })
  |>.setAlcove 255 { Alcove.reset with store := [⟨0x1002, 4⟩, ⟨0x1004, 5⟩] }

def holds (a b : Option Nat) : State := (runsJob burstJob).onMem fun m => { m with galleryPort := [(1, a), (7, b)] }

def line (p l : Nat) : MezLine := { line := l, bytes := [], poison := 0, part := p }

def inval0 : Invalidation := { num := 5, halls := [7], part := none, all := true, ranges := [] }

def lines : State := up.onMem fun m => { m with mezz := [(6, [line 1 4]), (7, [line 1 4, line 2 4, line 1 5])] }

theorem test_witness_CopyStarts :
    (∃ (e : Fin 64) (j : CopyJob) (rest : List CopyJob) (n tag : Nat) (s : State),
      (s.engine e).running = none ∧ (s.engine e).retired = false ∧ (s.engine e).queue = j :: rest ∧
      j.launch = none ∧ j.started = false ∧ j.error = 0 ∧ j.origin = .alcove n tag ∧ j.req.kind = kindFill ∧
      gaDevice j.req.w1 = s.deviceId ∧ j.req.rows = 1 ∧ 0 < j.req.rowBytes ∧
      j.req.w1 % 256 + j.req.rowBytes ≤ 256 ∧ (∀ p ∈ s.mem.engines, p.2.holds j.id = false) ∧ s.noShots) ∧
    (∃ (e : Fin 64) (s : State),
      (s.engine e).running.isSome) := by
  refine ⟨⟨63, (job 0), [], 40, 3, (up.onMem fun m => { m with engines := [(63, { CopyEngine.reset with queue := [job 0] })] }), ?_⟩,
    ⟨63, (runsJob (job 0)), ?_⟩⟩
  all_goals repeat' apply And.intro
  all_goals decide +kernel

theorem test_witness_PacketsLand :
    (∃ (i n a e id k : Nat) (f : Flight) (s : State),
      s.mem.inflight[i]? = some f ∧ f.kind = .write ∧ f.hdr = none ∧ f.origin = .engine e id k ∧
      gaSpace f.dst = spaceS ∧ siAlcove (gaOffset f.dst) = n ∧ siByte (gaOffset f.dst) = a ∧
      s.retired (channelId 4 n) = false) ∧
    (∃ (i n e id k : Nat) (f : Flight) (s : State),
      s.mem.inflight[i]? = some f ∧ f.kind = .write ∧ f.hdr = none ∧ f.origin = .engine e id k ∧
      gaSpace f.dst = spaceS ∧ siAlcove (gaOffset f.dst) = n ∧ s.retired (channelId 4 n) = true) ∧
    (∃ (i value mode e id k : Nat) (f : Flight) (s : State),
      s.mem.inflight[i]? = some f ∧ f.kind = .cset value mode ∧ f.origin = .engine e id k) := by
  refine ⟨⟨0, 255, 0x1003, 63, 12, 0, (flight 255 0xF005), (flies (flight 255 0xF005)), ?_⟩,
    ⟨0, 255, 63, 12, 0, (flight 255 0xF005), ((flies (flight 255 0xF005)).setFld F.RAS_BUCKET_RETIRED 1 0 (channelId 4 255)), ?_⟩,
    ⟨0, (2 ^ 64 - 1), 1, 63, 12, 0, { flight 0 0 with kind := .cset (2 ^ 64 - 1) 1, dst := gaMake 0 4 (7 * 2 ^ 26 + 2 ^ 25 + 5 * 64) }, (flies { flight 0 0 with kind := .cset (2 ^ 64 - 1) 1, dst := gaMake 0 4 (7 * 2 ^ 26 + 2 ^ 25 + 5 * 64) }), ?_⟩⟩
  all_goals repeat' apply And.intro
  all_goals decide +kernel

theorem test_witness_CopiesEnd :
    (∃ (i e id k : Nat) (j : CopyJob) (s : State),
      s.mem.acks[i]? = some { origin := .engine e id k, status := 0 } ∧ e < 64 ∧
      s.mem.engines.find? (fun p => p.2.holds id) = some (e, s.engine e) ∧ (s.engine e).running = some j ∧
      j.id = id ∧ (s.engine e).queue = [] ∧ (∀ p ∈ j.packets, p.sent = true)) ∧
    (∃ (e : Fin 64) (n tag : Nat) (j : CopyJob) (s : State),
      (s.engine e).running = some j ∧ j.error = 0 ∧ (∀ p ∈ j.packets, p.acked = true) ∧ j.origin = .alcove n tag ∧
      (s.alcove n).grant = none) ∧
    (∃ (e : Fin 64) (n tag : Nat) (j : CopyJob) (s : State),
      (s.engine e).running = some j ∧ 0 < j.error ∧ j.error < 64 ∧ (∀ p ∈ j.packets, p.acked = true) ∧
      j.origin = .alcove n tag ∧ (s.alcove n).grant = none ∧ s.fld F.CE_ERROR_VALID e = 0) ∧
    (∃ (e : Fin 64) (j : CopyJob) (s : State),
      (s.engine e).running = some j ∧ (∃ p ∈ j.packets, p.acked = false)) := by
  refine ⟨⟨0, 63, 12, 1, { job 0 with packets := [packet 0 false, packet 1 false] }, ((runsJob { job 0 with packets := [packet 0 false, packet 1 false] }).onMem fun m => { m with acks := [{ origin := .engine 63 12 1, status := 0 }] }), ?_⟩,
    ⟨63, 40, 3, { job 0 with packets := [packet 0 true] }, ((runsJob { job 0 with packets := [packet 0 true] }).setAlcove 40 { Alcove.reset with copies := [{ tag := 3, dst := 4, copy := 12 }, { tag := 4, dst := 4, copy := 13 }] }), ?_⟩,
    ⟨63, 40, 3, { job 5 with packets := [packet 0 true] }, (runsJob { job 5 with packets := [packet 0 true] }), ?_⟩,
    ⟨63, { job 0 with packets := [packet 0 true, packet 1 false] }, (runsJob { job 0 with packets := [packet 0 true, packet 1 false] }), ?_⟩⟩
  all_goals repeat' apply And.intro
  all_goals decide +kernel

theorem test_witness_GalleryBursts :
    (∃ (e : Fin 64) (a b : Nat) (j : CopyJob) (s : State),
      (s.engine e).running = some j ∧ s.burstHalls j.req = some (a, b) ∧ (s.engine e).burst = none ∧
      burstPackets 4096 j.packets ≠ [] ∧ s.galleryHolder a = none ∧ s.galleryHolder b = none ∧
      (∀ x, x < 64 → (s.engine x).refused = none) ∧ s.noShots ∧ tsorted s.mem.engines = true) ∧
    (∃ (e : Fin 64) (a b x : Nat) (j : CopyJob) (s : State),
      (s.engine e).running = some j ∧ s.burstHalls j.req = some (a, b) ∧ (s.engine e).burst = none ∧
      burstPackets 4096 j.packets ≠ [] ∧ s.galleryHolder b = some x) ∧
    (∃ (e : Fin 64) (a b : Nat) (s : State),
      (s.engine e).burst = some (a, b) ∧ (∀ x, x < 64 → (s.engine x).refused = none)) := by
  refine ⟨⟨63, 1, 7, burstJob, (runsJob burstJob), ?_⟩,
    ⟨63, 1, 7, 5, burstJob, (holds none (some 5)), ?_⟩,
    ⟨63, 1, 7, (up.onMem fun m => { m with engines := [(63, { CopyEngine.reset with burst := some (1, 7) })], galleryPort := [(1, some 63), (7, some 63)] }), ?_⟩⟩
  all_goals repeat' apply And.intro
  all_goals decide +kernel

theorem test_witness_MezzanineInvalidations :
    (∃ (a : Agent) (h : Fin 8) (s : State),
      s.reaches a .MEZ_CTRL h ∧ s.quiet) ∧
    (∃ (i h : Nat) (x : Invalidation) (s : State),
      s.mem.invals[i]? = some x ∧ x.halls = [h] ∧ x.part = none ∧ x.all = true ∧ h < 8) ∧
    (∃ (i p h base len : Nat) (x : Invalidation) (s : State),
      s.mem.invals[i]? = some x ∧ x.halls = [h] ∧ x.part = some p ∧ x.all = false ∧
      x.ranges = [{ base := base, bytes := len }] ∧ 0 < len ∧ h < 8) := by
  refine ⟨⟨.mgt, 7, lines, ?_⟩,
    ⟨0, 7, inval0, (lines.onMem fun m => { m with invals := [inval0] }), ?_⟩,
    ⟨0, 1, 7, 1024, 256, { inval0 with part := some 1, all := false, ranges := [{ base := 1024, bytes := 256 }] }, (lines.onMem fun m => { m with invals := [{ inval0 with part := some 1, all := false, ranges := [{ base := 1024, bytes := 256 }] }] }), ?_⟩⟩
  all_goals repeat' apply And.intro
  all_goals decide +kernel

end O08

/-! ## Witnesses of the statements of chapter 09 -/

namespace O09

/-- Partition 2 holds half-hall 15 alone, with all its channels. -/
def mapped : State := up.onHbm fun h => { h with
  maps := [(2, { localN := 4, chans := upTo 240 16, halfHalls := [15], baseHH := 15 })] }

/-- The 17th line of the partition: the last channel's first line. -/
def off0 : Nat := 15 * gib24 + 15 * 256 + 32 * 7

def place0 : Place := { chan := 255, line := 0, byte := 224 }

def key0 : Nat := sectorKey 255 0 7

def retry0 (held : List HbmOp) (n : Nat) : Retry :=
  { key := sectorKey 255 0 6, rereads := n, data := [], tag := false, mark := .natural, held := held, since := 0 }

def retrying (held : List HbmOp) (n : Nat) : State := mapped.onHbm fun h => { h with retries := [retry0 held n] }

def chan (st : ChanState) (w : Bool) : State := up.setChannel 255 { Channel.reset with state := st, wiping := w }

/-- A gather of queue 300 that has read all. -/
def gather0 : Gather :=
  { queue := 300, op := 0, vi := 3, desc := [], rangeError := some 9, poison := false, sharedPoison := none, outstanding := 0 }

theorem test_witness_SectorCodeCorrectsOne :
    (∃ (i v : Nat),
      i < 36 ∧ 0 < v ∧ v < 256) := by
  refine ⟨35, 255, ?_⟩
  all_goals repeat' apply And.intro
  all_goals decide +kernel

theorem test_witness_SectorCodeDetectsTwo :
    (∃ (i j v w : Nat),
      i < 36 ∧ j < 36 ∧ i ≠ j ∧ 0 < v ∧ v < 256 ∧ 0 < w ∧ w < 256) := by
  refine ⟨35, 0, 255, 1, ?_⟩
  all_goals repeat' apply And.intro
  all_goals decide +kernel

theorem test_witness_SectorAccess :
    (∃ (off : Nat) (bytes : List Nat) (p : Place) (s : State),
      s.placeOf (off / 32 * 32) = some p ∧ bytes.length = 32 ∧ s.refreshStep (p.chan / 32) ≠ 3 ∧
      s.soundSector p.key) ∧
    (∃ (off : Nat) (p : Place) (s : State),
      s.placeOf (off / 32 * 32) = some p ∧ s.refreshStep (p.chan / 32) ≠ 3 ∧ s.soundSector p.key ∧ s.noShots) ∧
    (∃ (off i v : Nat) (p : Place) (s : State),
      s.placeOf (off / 32 * 32) = some p ∧ s.refreshStep (p.chan / 32) ≠ 3 ∧ s.soundSector p.key ∧ s.noShots ∧
      i < 32 ∧ 0 < v ∧ v < 256 ∧ keyPc p.key = 0 ∧ p.chan < 256 ∧ p.line < 6291456 ∧ p.byte < 256) ∧
    (∃ (off i j v w : Nat) (p : Place) (s : State),
      s.placeOf (off / 32 * 32) = some p ∧ s.refreshStep (p.chan / 32) ≠ 3 ∧ s.soundSector p.key ∧ s.noShots ∧
      i < 32 ∧ j < 32 ∧ decodeErrs [(i, v), (j, w)] = .bad false) ∧
    (∃ (off : Nat) (bytes : List Nat) (p : Place) (s : State),
      s.placeOf (off / 32 * 32) = some p ∧ bytes.length = 32 ∧ s.refreshStep (p.chan / 32) ≠ 3 ∧
      (s.retryOf p.key).isNone ∧ s.sectorRetired p.key = true) := by
  refine ⟨⟨off0, (List.replicate 31 300 ++ [5]), place0, (mapped.onHbm fun h => { h with cells := [⟨32 * key0 - 1, 4⟩, ⟨32 * key0, 4⟩] }), ?_⟩,
    ⟨(off0 + 31), place0, (mapped.onHbm fun h => { h with cells := [⟨32 * key0 - 1, 4⟩, ⟨32 * key0, 4⟩] }), ?_⟩,
    ⟨(off0 - 32), 31, 255, { place0 with byte := 192 }, mapped, ?_⟩,
    ⟨off0, 0, 31, 1, 255, place0, mapped, ?_⟩,
    ⟨off0, (List.replicate 32 1), place0, (mapped.setChannel 255 { Channel.reset with state := .retired }), ?_⟩⟩
  all_goals repeat' apply And.intro
  all_goals decide +kernel

theorem test_witness_RetryAndScrub :
    (∃ (i : Nat) (r : Retry) (s : State),
      s.hbm.retries[i]? = some r ∧ s.upsetAt r.key = .none ∧ r.held = [.read] ∧ s.sectorPoison r.key = false ∧
      s.sectorRetired r.key = false ∧ s.inRetiredPage r.key = false ∧ s.noShots ∧ keyPc r.key = 0 ∧
      keyChan r.key < 256) ∧
    (∃ (i : Nat) (noise : List (Nat × Nat)) (r : Retry) (s : State),
      s.hbm.retries[i]? = some r ∧ r.rereads < 3 ∧ decodeErrs ((s.upsetAt r.key).errs ++ noise) = .bad false) ∧
    (∃ (i : Nat) (noise : List (Nat × Nat)) (r : Retry) (s : State),
      s.hbm.retries[i]? = some r ∧ r.rereads = 3 ∧ r.held = [] ∧
      decodeErrs ((s.upsetAt r.key).errs ++ noise) = .bad false ∧ keyPc r.key = 0 ∧ keyChan r.key < 256 ∧
      s.keyOffset r.key = none ∧ s.fld F.HBM_ERR_LOG_VALID (keyChan r.key) = 0) ∧
    (∃ (i k j v : Nat) (m : Mark) (s : State),
      s.hbm.writebacks[i]? = some k ∧ s.sectorRetired k = false ∧ j < 32 ∧ 0 < v ∧ v < 256 ∧
      s.upsetAt k = { errs := [(j, v)], mark := m } ∧ tsorted s.hbm.upsets = true) ∧
    (∃ (c : Fin 256) (line : Fin 6291456) (s : State),
      (s.channel c).state = .ready ∧ s.refreshStep (c / 32) ≠ 3 ∧
      (∀ i, i < 8 → s.soundSector (sectorKey c line i)) ∧ s.noShots) := by
  refine ⟨⟨0, (retry0 [.read] 0), (retrying [.read] 0), ?_⟩,
    ⟨0, [(3, 5), (4, 5)], (retry0 [] 2), (retrying [] 2), ?_⟩,
    ⟨0, [(3, 5), (4, 5)], (retry0 [] 3), ((retrying [] 3).onHbm fun h => { h with maps := [] }), ?_⟩,
    ⟨0, key0, 5, 9, .natural, (mapped.onHbm fun h => { h with writebacks := [key0], upsets := [(key0, { errs := [(5, 9)], mark := .natural })] }), ?_⟩,
    ⟨255, 6291455, (chan .ready false), ?_⟩⟩
  all_goals repeat' apply And.intro
  all_goals decide +kernel

theorem test_witness_ChannelsComeUp :
    (∃ (c : Fin 256) (s : State),
      (s.channel c).state = .off) ∧
    (∃ (c : Fin 256) (s : State),
      (s.channel c).state = .training) ∧
    (∃ (c : Fin 256) (s : State),
      (s.channel c).state = .test ∧ (s.channel c).wiping = false ∧ s.noShots) ∧
    (∃ (c : Fin 256) (s : State),
      (s.channel c).state = .training ∧ s.retired (channelId 3 c) = false) ∧
    (∃ (i : Nat) (w : Wipe) (s : State),
      s.hbm.wipes[i]? = some w ∧ w.dRanges = [] ∧ w.gRanges = [] ∧
      (∀ c, c ∈ w.channels → (s.channel c).wiping = true ∧ (s.channel c).state ≠ .retired)) := by
  refine ⟨⟨255, up, ?_⟩,
    ⟨255, (chan .training false), ?_⟩,
    ⟨255, (chan .test false), ?_⟩,
    ⟨255, (chan .training false), ?_⟩,
    ⟨0, { num := 4, channels := [255], dRanges := [], gRanges := [], since := 0 }, ((chan .test true).onHbm fun h => { h with cells := [⟨256 * channelBytes - 1, 8⟩], wipes := [{ num := 4, channels := [255], dRanges := [], gRanges := [], since := 0 }] }), ?_⟩⟩
  all_goals repeat' apply And.intro
  all_goals decide +kernel

theorem test_witness_GeneratorsAndGathers :
    (∃ (a : Agent) (c : Fin 256) (v : Nat) (s : State),
      s.reaches a .TGEN_CTRL c ∧ s.quiet ∧ F.TGEN_CTRL_ABORT.of (v % 2 ^ 32) = 0 ∧
      F.TGEN_CTRL_OP.of (v % 2 ^ 32) ≠ 3 ∧ (s.channel c).state = .test ∧ (s.channel c).wiping = false) ∧
    (∃ (a : Agent) (c : Fin 256) (v : Nat) (s : State),
      s.reaches a .TGEN_CTRL c ∧ s.quiet ∧ F.TGEN_CTRL_ABORT.of (v % 2 ^ 32) = 0 ∧ (s.channel c).state ≠ .test) ∧
    (∃ (a : Agent) (c : Fin 256) (v : Nat) (s : State),
      s.reaches a .TGEN_CTRL c ∧ s.quiet ∧ F.TGEN_CTRL_START.of (v % 2 ^ 32) = 0 ∧ s.fld F.TGEN_STATUS_STATE c = 1) ∧
    (∃ (c : Fin 256) (s : State),
      s.fld F.TGEN_STATUS_STATE c = 1 ∧ (s.channel c).state = .test ∧ s.fld F.TGEN_CTRL_OP c = 0 ∧
      s.fld F.TGEN_CTRL_RAW c = 0 ∧ s.fld F.TGEN_COUNT_COUNT c = 1 ∧
      s.fld F.TGEN_START_LINE_START_LINE c < 6291456) ∧
    (∃ (h : Fin 8) (g : Gather) (o : Operation) (s : State),
      s.gather? h = some g ∧ s.op? g.queue g.op = some o ∧ o.launched = true ∧ g.outstanding = 0) := by
  refine ⟨⟨.mgt, 255, 1, ((chan .test false).setReg .TGEN_STATUS 255 0 0xFFFFFFFF), ?_⟩,
    ⟨.mgt, 255, 1, (chan .ready false), ?_⟩,
    ⟨.mgt, 255, 2, ((chan .test false).setFld F.TGEN_STATUS_STATE 1 255), ?_⟩,
    ⟨255, (((((chan .test false).setFld F.TGEN_STATUS_STATE 1 255).setFld F.TGEN_COUNT_COUNT 1 255).setFld F.TGEN_START_LINE_START_LINE 6291455 255).setFld F.TGEN_CTRL_PC_MASK 2 255), ?_⟩,
    ⟨7, gather0, op0, ((up.setQueue 300 (wq0 [op0])).onHbm fun h => { h with gathers := [(7, some gather0)] }), ?_⟩⟩
  all_goals repeat' apply And.intro
  all_goals decide +kernel

end O09

/-! ## Witnesses of the statements of chapter 10 -/

namespace O10

def tq (v l : Nat) (ws : List Waiter) : TokenQ := { TokenQ.reset with valid := true, limit := l, value := v, waiters := ws }

/-- Token queue 4095 of hall 7, and operations on their way. -/
def tqs (q : TokenQ) (net : List SyncOp) : State := up.onSync fun x => { x with queues := [(7 * 4096 + 4095, q)], net := net }

def w255 (c : Nat) : Waiter := { agent := 255, party := .alcove 255, count := c }

def land0 : Landing := { Landing.reset with valid := true, count := 2, generation := 2 ^ 64 - 1, phase := 1 }

def lw : LandWaiter := { agent := 97, party := .alcove 97, phase := 1 }

def arr (a p : Nat) (k : ArrivalKind) : Arrival := { agent := a, phase := p, kind := k }

/-- Landing 1023 of hall 7, and operations on their way. -/
def lands (t : Nat) (x : Landing) (net : List SyncOp) : State :=
  (upAt t).onSync fun y => { y with landings := [(7 * 4096 + 1023, x)], net := net }

/-- A landing of tree 9 with SLN 4095. -/
def sys (x : Landing) : Landing := { x with system := true, tree := 9, sln := 4095 }

def stairs (x : Landing) (t : Tree) (net : List SyncOp) : State := (lands 500 (sys x) net).onSync fun y =>
  { y with trees := [(9, t)], slns := [(4095, { valid := true, hall := 7, landing := 1023 })] }

def sln0 : SlnEntry := { valid := true, hall := 7, landing := 1023 }

def tree0 (p : Bool) (m : Nat) : Tree := { valid := true, parentValid := p, parentPort := 63, childMask := m }

theorem test_witness_TokensMove :
    (∃ (h k a c : Nat) (rest : List SyncOp) (s : State),
      s.sync.net = .signal h k a c :: rest ∧ (s.tokenQ h k).valid = true ∧ 0 < c ∧
      (s.tokenQ h k).value + c ≤ (s.tokenQ h k).limit ∧ s.notifiedBy h k = []) ∧
    (∃ (h : Fin 8) (k a c : Nat) (rest : List SyncOp) (s : State),
      s.sync.net = .signal h k a c :: rest ∧ (s.tokenQ h k).valid = true ∧
      (s.tokenQ h k).limit < (s.tokenQ h k).value + c ∧ (s.tokenQ h k).value ≤ (s.tokenQ h k).limit ∧
      s.notifiedBy h k = []) ∧
    (∃ (h k a c : Nat) (p : Party) (rest : List SyncOp) (s : State),
      s.sync.net = .wait h k a c p :: rest ∧ (s.tokenQ h k).valid = true ∧ 0 < c ∧ c ≤ (s.tokenQ h k).limit) ∧
    (∃ (h : Fin 8) (k : Fin 4096) (n : Nat) (w : Waiter) (rest : List Waiter) (s : State),
      (s.tokenQ h k).waiters = w :: rest ∧ w.count ≤ (s.tokenQ h k).value ∧ w.party = .alcove n) ∧
    (∃ (h : Fin 8) (k : Fin 4096) (w : Waiter) (rest : List Waiter) (s : State),
      (s.tokenQ h k).waiters = w :: rest ∧ (s.tokenQ h k).value < w.count) ∧
    (∃ (h k a c n d : Nat) (rest : List SyncOp) (s : State),
      s.sync.net = .try h k a c (.alcove n) d :: rest ∧ (s.tokenQ h k).valid = true ∧ 0 < d ∧
      (s.alcove n).core.bank = 0) := by
  refine ⟨⟨7, 4095, 9, 5, [.signal 1 1 1 1], (tqs (tq 2 7 []) [.signal 7 4095 9 5, .signal 1 1 1 1]), ?_⟩,
    ⟨7, 4095, 9, 6, [], (tqs (tq 2 7 []) [.signal 7 4095 9 6]), ?_⟩,
    ⟨7, 4095, 255, 7, (.alcove 255), [], (tqs (tq 2 7 [w255 4]) [.wait 7 4095 255 7 (.alcove 255)]), ?_⟩,
    ⟨7, 4095, 255, (w255 2), [w255 4], (tqs (tq 2 7 [w255 2, w255 4]) []), ?_⟩,
    ⟨7, 4095, (w255 3), [], (tqs (tq 2 7 [w255 3]) []), ?_⟩,
    ⟨7, 4095, 255, 2, 255, 15, [], (tqs (tq 2 7 []) [.try 7 4095 255 2 (.alcove 255) 15]), ?_⟩⟩
  all_goals repeat' apply And.intro
  all_goals decide +kernel

theorem test_witness_LandingsRelease :
    (∃ (h : Fin 8) (l a : Nat) (rest : List SyncOp) (s : State),
      s.sync.net = .arrive h l a (s.landing h l).phase :: rest ∧ (s.landing h l).valid = true ∧
      (s.landing h l).system = false ∧ (s.landing h l).localDone = false ∧ (s.landing h l).arrivals = [] ∧
      1 < (s.landing h l).count) ∧
    (∃ (h : Fin 8) (l a n : Nat) (rest : List SyncOp) (s : State),
      s.sync.net = .arrive h l a (s.landing h l).phase :: rest ∧ (s.landing h l).valid = true ∧
      (s.landing h l).system = false ∧ (s.landing h l).timed = false ∧ (s.landing h l).localDone = false ∧
      (s.landing h l).arrivals = [] ∧ (s.landing h l).count = 1 ∧
      (s.landing h l).waiters = [{ agent := n, party := .alcove n, phase := (s.landing h l).phase }] ∧
      (∀ p ∈ s.sync.queues, p.2.anchored = false) ∧ a < 4368) ∧
    (∃ (h : Fin 8) (l a ph : Nat) (rest : List SyncOp) (s : State),
      s.sync.net = .arrive h l a ph :: rest ∧ (s.landing h l).valid = true ∧ ph ≠ (s.landing h l).phase ∧
      (∀ x ∈ (s.landing h l).arrivals, x.agent = a → x.phase ≠ ph) ∧
      (s.landing h l).arrivals.length < s.reserved (s.landing h l)) ∧
    (∃ (h : Fin 8) (l a ph : Nat) (x : Arrival) (rest : List SyncOp) (s : State),
      s.sync.net = .arrive h l a ph :: rest ∧ (s.landing h l).valid = true ∧ x ∈ (s.landing h l).arrivals ∧
      x.agent = a ∧ x.phase = ph) ∧
    (∃ (h : Fin 8) (l a ph n : Nat) (rest : List SyncOp) (s : State),
      s.sync.net = .landWait h l a ph (.alcove n) :: rest ∧ (s.landing h l).valid = true) ∧
    (∃ (h : Fin 8) (l : Fin 1024) (t : Nat) (s : State),
      (s.landing h l).completed = some t ∧ (s.landing h l).timed = true ∧ (s.landing h l).spent = false ∧
      (s.landing h l).releaseNext ≤ s.now h ∧ (s.landing h l).waiters = [] ∧
      (s.landing h l).arrivals.all (fun a => a.kind == .counted) = true ∧ 0 < (s.landing h l).count ∧
      (∀ p ∈ s.sync.queues, p.2.anchored = false)) ∧
    (∃ (h : Fin 8) (l : Fin 1024) (s : State),
      s.now h < (s.landing h l).releaseNext ∧ (s.landing h l).timed = true ∧ (s.landing h l).spent = false) ∧
    (∃ (h : Fin 8) (l : Fin 1024) (t : Nat) (s : State),
      (s.landing h l).firstTread = some t ∧ (s.landing h l).valid = true ∧ 0 < (s.landing h l).stall ∧
      (s.landing h l).stalled = false ∧ (s.landing h l).completed = none ∧ t + (s.landing h l).stall ≤ s.now h) := by
  refine ⟨⟨7, 1023, 9, [], (lands 500 land0 [.arrive 7 1023 9 1]), ?_⟩,
    ⟨7, 1023, 9, 97, [], (lands 500 { land0 with count := 1, waiters := [lw] } [.arrive 7 1023 9 1]), ?_⟩,
    ⟨7, 1023, 9, 0, [], (lands 500 { land0 with arrivals := [arr 9 1 .counted] } [.arrive 7 1023 9 0]), ?_⟩,
    ⟨7, 1023, 9, 1, (arr 9 1 .counted), [], (lands 500 { land0 with arrivals := [arr 9 1 .counted] } [.arrive 7 1023 9 1]), ?_⟩,
    ⟨7, 1023, 97, 1, 97, [], (lands 500 { land0 with arrivals := [arr 97 1 .counted] } [.landWait 7 1023 97 1 (.alcove 97)]), ?_⟩,
    ⟨7, 1023, 400, (lands 500 { land0 with timed := true, releaseNext := 500, period := 2 ^ 63, completed := some 400, localDone := true, arrivals := [arr 9 1 .counted, arr 8 1 .counted] } []), ?_⟩,
    ⟨7, 1023, (lands 499 { land0 with timed := true, releaseNext := 500, period := 2 ^ 63, completed := some 400, localDone := true, arrivals := [arr 9 1 .counted, arr 8 1 .counted] } []), ?_⟩,
    ⟨7, 1023, 400, (lands 500 { land0 with firstTread := some 400, stall := 100 } []), ?_⟩⟩
  all_goals repeat' apply And.intro
  all_goals decide +kernel

theorem test_witness_StairwellMessages :
    (∃ (port tree sln : Nat) (e : SlnEntry) (rest : List SyncOp) (s : State),
      let x := s.landing e.hall e.landing
      s.sync.net = .ascent port x.phase false tree sln :: rest ∧ s.sln sln = e ∧ e.valid = true ∧ e.hall < 8 ∧
      x.valid = true ∧ x.system = true ∧ x.tree = tree ∧ x.sln = sln ∧ bit (s.tree tree).childMask port = 1 ∧
      x.localDone = false ∧ x.arrivals = [] ∧ 0 < x.count) ∧
    (∃ (port phase tree sln : Nat) (resend : Bool) (rest : List SyncOp) (s : State),
      s.sync.net = .ascent port phase resend tree sln :: rest ∧ (s.sln sln).valid = false) ∧
    (∃ (port phase tree sln : Nat) (resend : Bool) (e : SlnEntry) (rest : List SyncOp) (s : State),
      s.sync.net = .descent port phase resend tree sln :: rest ∧ s.sln sln = e ∧ e.valid = true ∧ e.hall < 8 ∧
      (s.landing e.hall e.landing).valid = true ∧ (s.landing e.hall e.landing).system = true ∧
      (s.landing e.hall e.landing).tree = tree ∧ (s.landing e.hall e.landing).sln = sln ∧
      phase ≠ (s.landing e.hall e.landing).phase) ∧
    (∃ (port tree sln : Nat) (resend : Bool) (e : SlnEntry) (rest : List SyncOp) (s : State),
      let x := s.landing e.hall e.landing
      s.sync.net = .descent port x.phase resend tree sln :: rest ∧ s.sln sln = e ∧ e.valid = true ∧
      x.valid = true ∧ x.system = true ∧ x.tree = tree ∧ x.sln = sln ∧ (s.tree tree).parentValid = true ∧
      (s.tree tree).parentPort = port ∧ (s.tree tree).childMask = 0 ∧ x.timed = false ∧ x.waiters = [] ∧
      x.arrivals.all (fun a => a.kind == .counted) = true ∧ 0 < x.count ∧
      (∀ p ∈ s.sync.queues, p.2.anchored = false)) := by
  refine ⟨⟨62, 9, 4095, sln0, [], (stairs land0 (tree0 true (2 ^ 62)) [.ascent 62 1 false 9 4095]), ?_⟩,
    ⟨62, 1, 9, 4094, false, [], (stairs land0 (tree0 true (2 ^ 62)) [.ascent 62 1 false 9 4094]), ?_⟩,
    ⟨63, 0, 9, 4095, true, sln0, [], (stairs land0 (tree0 true 0) [.descent 63 0 true 9 4095]), ?_⟩,
    ⟨63, 9, 4095, false, sln0, [], (stairs { land0 with arrivals := [arr 9 1 .counted, arr 8 1 .counted], localDone := true } (tree0 true 0) [.descent 63 1 false 9 4095]), ?_⟩⟩
  all_goals repeat' apply And.intro
  all_goals decide +kernel

theorem test_witness_SyncCommands :
    (∃ (a : Agent) (h : Fin 8) (i : Fin 4096) (s : State),
      s.reaches a .SYNC_CMD h ∧ s.quiet ∧ tokenRecordFails (s.syncData h 16) = none ∧ (s.tokenQ h i).waiters = []) ∧
    (∃ (a : Agent) (h : Fin 8) (i : Fin 4096) (s : State),
      s.reaches a .SYNC_CMD h ∧ s.quiet ∧ (s.tokenQ h i).waiters = []) ∧
    (∃ (a : Agent) (h : Fin 8) (i : Fin 4096) (s : State),
      s.reaches a .SYNC_CMD h ∧ s.quiet ∧ (s.tokenQ h i).waiters ≠ []) ∧
    (∃ (a : Agent) (h : Fin 8) (i : Fin 4096) (s : State),
      s.reaches a .SYNC_CMD h ∧ s.quiet ∧ (s.tokenQ h i).waiters = []) ∧
    (∃ (a : Agent) (h : Fin 8) (s : State),
      s.reaches a .SYNC_CMD h ∧ s.quiet) := by
  refine ⟨⟨.mgt, 7, 4095, ((tqs (tq 2 7 []) []).setReg .SYNC_DATA 7 0 0x00000001), ?_⟩,
    ⟨(.hc 3), 7, 4095, (tqs (tq 2 7 []) []), ?_⟩,
    ⟨(.hc 3), 7, 4095, (tqs (tq 2 7 [w255 3]) []), ?_⟩,
    ⟨(.hc 3), 7, 4095, (tqs (tq 2 7 []) []), ?_⟩,
    ⟨(.hc 3), 7, (tqs (tq 2 7 []) []), ?_⟩⟩
  all_goals repeat' apply And.intro
  all_goals decide +kernel

end O10

/-! ## Witnesses of the statements of chapter 11 -/

namespace O11

/-- A problem descriptor of one epoch and two sweeps: SCALE at gallery byte 0x100, BIAS at 0x200, STATE at 0x300, CLAMP at
0x400, TRACE at 0x500; slots 0 and 1 at inverse temperatures 1 and 2. -/
def desc0 (landing counter n blockSpins ctrl replicas exch epochs : Nat) : List Nat :=
  [0, 0, 0x100, 0x200, 0x300, 0x400, 0x500, 0, 99, 0, 0, 0, 0, 0].flatMap (fun o => toBytes 8 (if o = 99 then 7 else
    gaMake 0 1 o)) |>.take 80 |> (· ++ toBytes 8 landing ++ toBytes 8 counter ++ toBytes 8 1 ++ zeros 8 ++
    toBytes 4 n ++ toBytes 2 blockSpins ++ [ctrl, replicas] ++ toBytes 4 2 ++ toBytes 2 exch ++ zeros 2 ++ toBytes 4 epochs ++
    zeros 6 ++ toBytes 2 1 ++ zeros 52 ++ toBytes 4 0x3F800000 ++ toBytes 4 0x40000000 ++ zeros 120)

def run0 (stage : AnnStage) (desc spins energy : List Nat) : AnnRun :=
  { AnnRun.fresh 300 0 3 desc with stage := stage, spins := spins, energy := energy }

def gAlloc : Alloc := { vi := 3, space := .g, base := 0, size := 2 ^ 29, hall := 0, kind := 0, half := 0, attr := 1
                        region := none, mapping := false, unmapping := false }

/-- The annealer of hall 7 with SCALE 1 and BIAS 2 and the given run. -/
def anneals (x : AnnRun) : State := ((up.setAnn 7 (some x)).onPart fun p => { p with allocs := [gAlloc] }).onMem fun m =>
  { m with g := [⟨0x101, 0x3C⟩, ⟨0x203, 0x40⟩, ⟨0x301, 5⟩, ⟨0x410, 9⟩, ⟨0x480, 9⟩] }

def row0 : AnnRow := { scale := (readOperand .fp16 0x3C00).1, bias := (readOperand .fp32 0x40000000).1, inside := [], cross := [], ok := true }

def landGa : Nat := gaMake 0 4 (7 * 2 ^ 26 + 2 ^ 24 + 2047 * 64)
def cntGa : Nat := gaMake 0 4 (7 * 2 ^ 26 + 2 ^ 25 + 5 * 64)

theorem test_witness_AnnealerSweeps :
    (∃ (h : Fin 8) (w e : Nat) (x : AnnRun) (row : AnnRow) (s : State),
      s.annRun h = some x ∧ x.stage = .sweep ∧ x.spins = [w] ∧ x.energy = [e] ∧ x.d.replicas = 1 ∧
      x.d.blocks ≤ 1 ∧ x.d.exchEvery = 0 ∧ x.d.traceEvery = 0 ∧ x.d.targetEn = false ∧ x.target = false ∧
      x.d.bestEn = false ∧ x.poison = false ∧ s.noShots ∧ s.annRowOf h x x.first = (s, row)) ∧
    (∃ (h : Fin 8) (w : Nat) (x : AnnRun) (row : AnnRow) (s : State),
      s.annRun h = some x ∧ x.stage = .eval ∧ x.spins = [w] ∧ x.d.replicas = 1 ∧ x.d.blocks ≤ 1 ∧
      s.annRowOf h x x.first = (s, row) ∧ row.ok = true) ∧
    (∃ (h : Fin 8) (w : Nat) (x : AnnRun) (row : AnnRow) (s : State),
      s.annRun h = some x ∧ x.stage = .eval ∧ x.spins = [w] ∧ s.annRowOf h x x.first = (s, row) ∧ row.ok = false ∧
      s.fld F.ANN_ERROR_VALID h = 0) ∧
    (∃ (h : Fin 8) (e0 e1 : Nat) (x : AnnRun) (s : State),
      s.annRun h = some x ∧ x.stage = .exchange ∧ x.d.replicas = 2 ∧ x.energy = [e0, e1] ∧
      (x.done / x.d.exchEvery - 1) % 2 = 0) ∧
    (∃ (y u u' : _),
      u ≤ u' ∧ acceptDraw y u' = true) ∧
    (∃ (w r : _),
      r < 32 ∧ w < 2 ^ 32) := by
  refine ⟨⟨7, 0, 0, (run0 .sweep (desc0 0 0 1 1 1 1 0 1) [0] [0]), row0, (anneals (run0 .sweep (desc0 0 0 1 1 1 1 0 1) [0] [0])), ?_⟩,
    ⟨7, 1, (run0 .eval (desc0 0 0 1 1 1 1 0 1) [1] []), row0, (anneals (run0 .eval (desc0 0 0 1 1 1 1 0 1) [1] [])), ?_⟩,
    ⟨7, 1, (run0 .eval (desc0 0 0 1 1 1 1 0 1) [1] []), { row0 with bias := (readOperand .fp32 0x7F800000).1, ok := false }, ((anneals (run0 .eval (desc0 0 0 1 1 1 1 0 1) [1] [])).onMem fun m => { m with g := [⟨0x101, 0x3C⟩, ⟨0x202, 0x80⟩, ⟨0x203, 0x7F⟩] }), ?_⟩,
    ⟨7, 0x3FF0000000000000, 0, { run0 .exchange (desc0 0 0 1 1 1 2 1 1) [1] [0x3FF0000000000000, 0] with done := 1 }, (anneals { run0 .exchange (desc0 0 0 1 1 1 2 1 1) [1] [0x3FF0000000000000, 0] with done := 1 }), ?_⟩,
    ⟨(rn32 (readOperand .fp32 0x40000000).1), 5, 6, ?_⟩,
    ⟨2, 1, ?_⟩⟩
  all_goals repeat' apply And.intro
  all_goals decide +kernel

theorem test_witness_AnnealerEpochs :
    (∃ (h : Fin 8) (w : Nat) (x : AnnRun) (s : State),
      s.annRun h = some x ∧ x.stage = .load ∧ x.d.blockLen x.block = 1 ∧ w < 2 ^ 32 ∧
      s.annRead h x.first (x.d.state + 4 * x.first) 4 = (s, toBytes 4 w)) ∧
    (∃ (h : Fin 8) (w : Nat) (x : AnnRun) (row : AnnRow) (s : State),
      s.annRun h = some x ∧ x.stage = .clamp ∧ x.spins = [w] ∧ s.annRowOf h x x.first = (s, row) ∧
      row.cross = [] ∧ gaSpace x.d.clampAt = spaceG) ∧
    (∃ (h : Fin 8) (x : AnnRun) (s : State),
      s.annRun h = some x ∧ x.stage = .point ∧ x.d.peerCount = 0 ∧ x.d.landing ≠ 0) ∧
    (∃ (h : Fin 8) (x : AnnRun) (s : State),
      s.annRun h = some x ∧ x.stage = .initial ∧ x.d.peerCount = 0 ∧ x.d.landing ≠ 0 ∧ x.sends = []) ∧
    (∃ (h : Fin 8) (x : AnnRun) (s : State),
      s.annRun h = some x ∧ x.stage = .released ∧
      (x.d.counter = 0 ∨ x.awaited ≤ (s.counter (tHall (gaOffset x.d.counter)) (tIndex (gaOffset x.d.counter))).count.toNat) ∧
      x.sendError = 0 ∧ x.poison = false) ∧
    (∃ (h : Fin 8) (x : AnnRun) (s : State),
      s.annRun h = some x ∧ x.stage = .released ∧ x.d.counter ≠ 0 ∧
      (s.counter (tHall (gaOffset x.d.counter)) (tIndex (gaOffset x.d.counter))).count.toNat < x.awaited) ∧
    (∃ (h : Fin 8) (x : AnnRun) (o : Operation) (s : State),
      s.annRun h = some x ∧ x.stage = .ended ∧ x.problem = none ∧ x.poison = false ∧ x.sharedPoison = none ∧
      x.sendError = 0 ∧ s.op? x.queue x.op = some o) := by
  refine ⟨⟨7, 1280, (run0 .load (desc0 0 0 1 1 1 1 0 1) [] []), (anneals (run0 .load (desc0 0 0 1 1 1 1 0 1) [] [])), ?_⟩,
    ⟨7, 0, (run0 .clamp (desc0 0 0 2 1 0 1 0 1) [0] []), row0, (anneals (run0 .clamp (desc0 0 0 2 1 0 1 0 1) [0] [])), ?_⟩,
    ⟨7, (run0 .point (desc0 landGa 0 2 1 0 1 0 1) [1] []), (anneals (run0 .point (desc0 landGa 0 2 1 0 1 0 1) [1] [])), ?_⟩,
    ⟨7, (run0 .initial (desc0 landGa 0 2 1 0 1 0 1) [] []), (anneals (run0 .initial (desc0 landGa 0 2 1 0 1 0 1) [] [])), ?_⟩,
    ⟨7, (run0 .released (desc0 landGa 0 2 1 0 1 0 2) [1] []), (anneals (run0 .released (desc0 landGa 0 2 1 0 1 0 2) [1] [])), ?_⟩,
    ⟨7, (run0 .released (desc0 landGa cntGa 2 1 0 1 0 1) [1] []), (anneals (run0 .released (desc0 landGa cntGa 2 1 0 1 0 1) [1] [])), ?_⟩,
    ⟨7, (run0 .ended (desc0 0 0 1 1 1 1 0 1) [1] [0]), op0, ((anneals (run0 .ended (desc0 0 0 1 1 1 1 0 1) [1] [0])).setQueue 300 (wq0 [op0])), ?_⟩⟩
  all_goals repeat' apply And.intro
  all_goals decide +kernel

end O11

/-! ## Witnesses of the statements of chapter 12a -/

namespace O12a

/-- A queue of VI 41, ring 2. -/
def wq41 (buf : Bool) : WorkQ :=
  { wq0 [] with vi := 41, buffer := if buf then (wq0 []).buffer else none }

def withQ (q : Nat) (w : WorkQ) : State := served.setQueue q w

/-- CREATE_QUEUE of ring 15, priority 7, on hall 7. -/
def create0 : List Nat := entry 1 ([15, 15, 7, 16] ++ toBytes 4 60000000 ++ toBytes 8 (dGa 0) ++ toBytes 8 (dGa (2 ^ 20)) ++
  toBytes 8 0x10000 ++ [16, 0, 255, 255] ++ zeros 4 ++ toBytes 8 (dGa (2 ^ 21)) ++ toBytes 8 (2 ^ 20))

/-- What a read gives where nothing is met but the data. -/
theorem dread_eq (r : DRead) (s : State) (h1 : r.st = s) (h2 : r.poison = false) (h3 : r.cause = 0)
    (h4 : r.region = none) :
    r = { st := s, data := r.data, marks := r.marks, poison := false, cause := 0, region := none } := by
  cases r; cases h1; cases h2; cases h3; cases h4; rfl

/-- The first 256 bytes of a stored profile. -/
def profileHead : List Nat :=
  toBytes 2 1 ++ zeros 18 ++ (List.range 8).flatMap (fun _ => toBytes 2 2000) ++ toBytes 2 500 ++ toBytes 2 100 ++
    [0, 0, 0, 2] ++ zeros 4 ++ List.replicate 16 130 ++ zeros 4 ++ List.replicate 16 4 ++ List.replicate 16 0x55 ++
    zeros 28 ++ (List.range 8).flatMap (fun _ => [9] ++ zeros 15)

/-- The rest but its check. -/
def profileTail : List Nat := [9] ++ zeros 15 ++ zeros 112 ++ zeros 124

theorem foldl_cut {α β : Type} (f : α → β → α) (a : α) (l : List β) (n : Nat) :
    l.foldl f a = (l.drop n).foldl f ((l.take n).foldl f a) := by
  rw [← List.foldl_append, List.take_append_drop]

theorem crc32_of_pieces {l : List Nat} {a b c d : Nat} (ha : (l.take 128).foldl crcByte 0xFFFFFFFF = a)
    (hb : ((l.drop 128).take 128).foldl crcByte a = b) (hc : (((l.drop 128).drop 128).take 128).foldl crcByte b = c)
    (hd : (((l.drop 128).drop 128).drop 128).foldl crcByte c ^^^ 0xFFFFFFFF = d) : crc32 l = d := by
  unfold crc32
  rw [foldl_cut _ _ l 128, ha, foldl_cut _ _ (l.drop 128) 128, hb, foldl_cut _ _ ((l.drop 128).drop 128) 128, hc, hd]

theorem profile_crc : crc32 (profileHead ++ profileTail) = 2918805411 :=
  crc32_of_pieces (a := 497913809) (b := 3608719427) (c := 845273512) (by decide +kernel) (by decide +kernel)
    (by decide +kernel) (by decide +kernel)

/-- A valid stored profile. -/
def profile0 : List Nat := profileHead ++ profileTail ++ toBytes 4 2918805411

theorem profile_valid : profileValid profile0 = true := by
  have h : crc32 (profile0.take 0x1FC) = 2918805411 := by
    rw [show profile0.take 0x1FC = profileHead ++ profileTail by decide +kernel]; exact profile_crc
  unfold profileValid
  rw [h]
  decide +kernel

def region0 : Region := { num := 5, base := 14 * gib24, size := 32, partition := 2, quarantined := true, record := 9 }

def regioned : State := served.onPart fun p => { p with regions := [region0] }

def pool0 (free : Nat) : Pool := { Pool.reset with valid := true, blockLog2 := 12, count := 4, free := free, granted := [0, 41] }

def pooled (free : Nat) : State := served.onVst fun x => { x with pools := [(63, pool0 free)] }

def alloc0 : Alloc := { vi := 41, space := .d, base := 14 * gib24, size := 4096, hall := 0, kind := 0, half := 255, attr := 0
                        region := some 5, mapping := true, unmapping := false }

theorem test_witness_AdminQueueRuns :
    (∃ (v : Fin 256) (x : Nat) (s : State),
      s.adminRuns v ∧ s.hostClear v ∧ (x % 2 ^ 32 + 2 ^ 32 - (s.adminQ v).consumed) % 2 ^ 32 ≤ 2 ^ s.sqLog v) ∧
    (∃ (v : Fin 256) (n q : Nat) (w : WorkQ) (s : State),
      n < 16 ∧ s.ringQueue v n = some q ∧ s.queue q = some w) ∧
    (∃ (off size n : Nat),
      (off ≠ 0 ∨ size ≠ 4 ∨ (16 ≤ n ∧ n ≠ 0x100))) ∧
    (∃ (v : Fin 256) (x q : Nat) (w : WorkQ) (s : State),
      s.fld F.VST_ADMIN_CTRL_POLLED v = 1 ∧ s.adminRuns v ∧ s.hostClear v ∧
      (x % 2 ^ 32 + 2 ^ 32 - (s.adminQ v).consumed) % 2 ^ 32 ≤ 2 ^ s.sqLog v ∧ s.queue q = some w ∧ w.vi = v.val) ∧
    (∃ (v : Fin 256) (e : List Nat) (s : State),
      s.adminRuns v ∧ s.hostClear v ∧ (s.adminQ v).current = none ∧ (s.adminQ v).wait = none ∧
      (s.adminQ v).stalled = none ∧ (s.adminQ v).consumed ≠ (s.adminQ v).tail ∧ e.length = 64) ∧
    (∃ (v : Fin 256) (s : State),
      (s.adminQ v).consumed = (s.adminQ v).tail) ∧
    (∃ (v : Fin 256) (head c st d r : Nat) (s : State),
      (s.adminQ v).stalled = some (c, st, d, r) ∧ s.adminRuns v ∧ s.hostClear v ∧
      ((s.adminQ v).written + 2 ^ 32 - head % 2 ^ 32) % 2 ^ 32 < 2 ^ s.cqLog v) ∧
    (∃ (v : Fin 256) (op : Nat) (e : List Nat) (s : State),
      s.adminHas v op e ∧ (∀ x ∈ adminOpcodes, x.1 ≠ op)) ∧
    (∃ (a : Agent) (v : Fin 256) (s : State),
      s.reaches a .VST_ADMIN_CTRL v ∧ s.quiet) := by
  refine ⟨⟨41, (2 ^ 32 + 16), served, ?_⟩,
    ⟨41, 2, 4095, (wq41 true), (withQ 4095 (wq41 true)), ?_⟩,
    ⟨4, 4, 2, ?_⟩,
    ⟨41, 9, 4095, (wq41 true), ((withQ 4095 (wq41 true)).setFld F.VST_ADMIN_CTRL_POLLED 1 41), ?_⟩,
    ⟨41, (entry 300 []), (served.onAdmin 41 fun a => { a with consumed := 2 ^ 32 - 1, tail := 0 }), ?_⟩,
    ⟨41, served, ?_⟩,
    ⟨41, (2 ^ 32 - 1), 77, 1, 8, 5, (served.onAdmin 41 fun a => { a with stalled := some (77, 1, 8, 5), written := 0 }), ?_⟩,
    ⟨41, 0x99, (entry 0x99 []), (inHand 41 (entry 0x99 []) served), ?_⟩,
    ⟨.mgt, 41, served, ?_⟩⟩
  all_goals repeat' apply And.intro
  all_goals decide +kernel

theorem test_witness_QueueCommands :
    (∃ (v : Fin 256) (q : Nat) (e : List Nat) (s : State),
      s.adminHas v 0x01 e ∧ (s.queuesOf v).length < 16 ∧ s.createFails v ((s.viPart v).getD 0) e = none ∧
      s.freeQueue = some q ∧
      (s.vst.queues.filter fun p => match p.2 with | some w => w.hall == byteAt e 0x0A | none => false).length < 1024) ∧
    (∃ (v : Fin 256) (e : List Nat) (s : State),
      s.adminHas v 0x01 e ∧ 16 ≤ (s.queuesOf v).length) ∧
    (∃ (v : Fin 256) (e : List Nat) (s : State),
      s.adminHas v 0x03 e ∧ s.ringQueue v (byteAt e 8) = none) ∧
    (∃ (v : Fin 256) (q : Nat) (w : WorkQ) (e : List Nat) (s : State),
      s.adminHas v 0x03 e ∧ s.ringQueue v (byteAt e 8) = some q ∧ s.queue q = some w ∧ w.ring = byteAt e 8 ∧
      w.vi = v.val ∧ w.buffer = none ∧ w.waiting = [] ∧ tsorted s.vst.queues = true) ∧
    (∃ (v : Fin 256) (q : Nat) (w : WorkQ) (e : List Nat) (s : State),
      s.adminHas v 0x04 e ∧ s.ringQueue v (byteAt e 8) = some q ∧ s.queue q = some w ∧ w.state ≠ .active) ∧
    (∃ (v : Fin 256) (q : Nat) (w : WorkQ) (e : List Nat) (s : State),
      s.adminHas v 0x02 e ∧ s.ringQueue v (byteAt e 8) = some q ∧ s.queue q = some w ∧ w.ring = byteAt e 8 ∧
      w.vi = v.val ∧ w.buffer = none ∧ w.waiting = [] ∧ (∀ k x, s.queue k = some x → x.buffer = none) ∧
      tsorted s.vst.queues = true) ∧
    (∃ (s : State),
      s.fld F.PCI_HOST_ERR_VALID = 0) := by
  refine ⟨?_, ?_, ?_, ?_, ?_, ?_, ?_⟩
  · refine ⟨41, 0, create0, (inHand 41 create0 served), ?_⟩
    repeat' apply And.intro
    all_goals decide +kernel
  · refine ⟨41, create0, (inHand 41 create0 (served.onVst fun x => { x with queues := (List.range 16).map fun i => (i, some { wq41 false with ring := i }) })), ?_⟩
    repeat' apply And.intro
    all_goals decide +kernel
  · refine ⟨41, (entry 3 [2]), (inHand 41 (entry 3 [2]) served), ?_⟩
    repeat' apply And.intro
    all_goals decide +kernel
  · refine ⟨41, 4095, (wq41 false), (entry 3 [2]), (inHand 41 (entry 3 [2]) (withQ 4095 (wq41 false))), ?_⟩
    repeat' apply And.intro
    all_goals decide +kernel
  · refine ⟨41, 4095, { wq41 false with state := .stoppedFault }, (entry 4 [2]), (inHand 41 (entry 4 [2]) (withQ 4095 { wq41 false with state := .stoppedFault })), ?_⟩
    repeat' apply And.intro
    all_goals decide +kernel
  · refine ⟨41, 4095, (wq41 false), (entry 2 [2]), (inHand 41 (entry 2 [2]) (withQ 4095 (wq41 false))), ?_⟩
    refine ⟨by unfold State.adminHas; decide +kernel, by decide +kernel, by decide +kernel, by decide +kernel, by decide +kernel, by decide +kernel, by decide +kernel, ?_, by decide +kernel⟩
    exact tget_all (P := fun x : WorkQ => x.buffer = none) (by decide +kernel)
  · refine ⟨served, ?_⟩
    repeat' apply And.intro
    all_goals decide +kernel

theorem test_witness_ChiefCommands :
    (∃ (p : Fin 16) (e : List Nat) (s : State),
      s.adminHas 0 0x12 e ∧ byteAt e 9 = p.val ∧ s.partExists p = true ∧ s.viEnabled (byteAt e 8) = true ∧
      s.part.resetting.contains (byteAt e 8) = false ∧ s.queuesOf (byteAt e 8) = [] ∧
      (∀ a ∈ s.part.allocs, a.vi = byteAt e 8 → a.mapping = true) ∧ s.ownsBlock (byteAt e 8) = false) ∧
    (∃ (v : Fin 256) (e : List Nat) (s : State),
      s.adminHas v 0x12 e ∧ v ≠ 0) ∧
    (∃ (e : List Nat) (s : State),
      s.adminHas 0 0x13 e ∧ byteAt e 8 ≤ 3 ∧ profileValid (s.profileBytes (byteAt e 8)) = true) ∧
    (∃ (r : Region) (e : List Nat) (s : State),
      s.adminHas 0 0x14 e ∧ bit (byteAt e 9) 0 = 0 ∧ s.part.regions.find? (·.num == byteAt e 8) = some r) ∧
    (∃ (r : Region) (e : List Nat) (s : State),
      s.adminHas 0 0x14 e ∧ bit (byteAt e 9) 0 = 1 ∧ s.part.regions.find? (·.num == byteAt e 8) = some r) ∧
    (∃ (n : Nat) (s : State),
      (s.adminQ 0).wait = some (.verify n) ∧ s.part.regions.find? (·.num == n) = none ∧
      ((s.adminQ 0).written + 2 ^ 32 - (s.adminQ 0).head) % 2 ^ 32 < 2 ^ s.cqLog 0 ∧ s.hostClear 0) ∧
    (∃ (n : Nat) (r : Region) (s : State),
      (s.adminQ 0).wait = some (.verify n) ∧ s.part.regions.find? (·.num == n) = some r ∧
      s.dBlocked r.base r.size true = false ∧
      (∀ k, k < r.size / 32 → ∃ l m, s.readD (r.base + 32 * k) 32 = { st := s, data := l, marks := m, poison := false, cause := 0, region := none }) ∧
      ((s.adminQ 0).written + 2 ^ 32 - (s.adminQ 0).head) % 2 ^ 32 < 2 ^ s.cqLog 0 ∧ s.hostClear 0) ∧
    (∃ (e : List Nat) (s : State),
      s.adminHas 0 0x40 e ∧ field e 8 4 = s.reg .BOOT_PMC_VER ∧ field e 0x0C 4 = s.reg .BOOT_HALL_VER) ∧
    (∃ (e : List Nat) (s : State),
      (s.adminQ 0).current = some e ∧ (s.adminQ 0).wait = none ∧ byteAt e 0 = 0x40 ∧ byteAt e 1 = 0 ∧
      field e 4 4 = 0 ∧ s.boot.restricted = true ∧ (s.viPart 0).isSome ∧ s.hostClear 0 ∧
      ((s.adminQ 0).written + 2 ^ 32 - (s.adminQ 0).head) % 2 ^ 32 < 2 ^ s.cqLog 0 ∧
      field e 8 4 = s.reg .BOOT_PMC_VER ∧ field e 0x0C 4 = s.reg .BOOT_HALL_VER) ∧
    (∃ (e : List Nat) (s : State),
      s.adminHas 0 0x31 e ∧ byteAt e 8 < 64 ∧ (s.pool (byteAt e 8)).valid = true ∧
      (s.pool (byteAt e 8)).count ≤ (s.pool (byteAt e 8)).free) ∧
    (∃ (e : List Nat) (s : State),
      s.adminHas 0 0x31 e ∧ byteAt e 8 < 64 ∧ (s.pool (byteAt e 8)).valid = true ∧
      (s.pool (byteAt e 8)).free < (s.pool (byteAt e 8)).count) ∧
    (∃ (e : List Nat) (s : State),
      s.adminHas 0 0x32 e ∧ byteAt e 8 < 64 ∧ (s.pool (byteAt e 8)).valid = true ∧ byteAt e 0xA < 2) ∧
    (∃ (e : List Nat) (s : State),
      s.adminHas 0 0x30 e ∧ s.poolFails e = none) := by
  refine ⟨?_, ?_, ?_, ?_, ?_, ?_, ?_, ?_, ?_, ?_, ?_, ?_, ?_⟩
  · refine ⟨2, (entry 0x12 [255, 2]), (inHand 0 (entry 0x12 [255, 2]) served), ?_⟩
    repeat' apply And.intro
    all_goals decide +kernel
  · refine ⟨41, (entry 0x12 [255, 2]), (inHand 41 (entry 0x12 [255, 2]) served), ?_⟩
    repeat' apply And.intro
    all_goals decide +kernel
  · refine ⟨(entry 0x13 [3]), ((inHand 0 (entry 0x13 [3]) served).onHost fun h => { h with profiles := [(3, profile0)] }), ?_⟩
    refine ⟨by unfold State.adminHas; decide +kernel, by decide +kernel, ?_⟩
    rw [show (State.onHost (inHand 0 (entry 0x13 [3]) served) fun h => { h with profiles := [(3, profile0)] }).profileBytes (byteAt (entry 0x13 [3]) 8) = profile0 by decide +kernel]
    exact profile_valid
  · refine ⟨region0, (entry 0x14 [5, 0]), (inHand 0 (entry 0x14 [5, 0]) regioned), ?_⟩
    repeat' apply And.intro
    all_goals decide +kernel
  · refine ⟨region0, (entry 0x14 [5, 1]), (inHand 0 (entry 0x14 [5, 1]) regioned), ?_⟩
    repeat' apply And.intro
    all_goals decide +kernel
  · refine ⟨7, (regioned.onAdmin 0 fun a => { a with current := some (entry 0x14 [7, 1]), wait := some (.verify 7) }), ?_⟩
    repeat' apply And.intro
    all_goals decide +kernel
  · refine ⟨5, region0, (regioned.onAdmin 0 fun a => { a with current := some (entry 0x14 [5, 1]), wait := some (.verify 5) }), ?_⟩
    refine ⟨by decide +kernel, by decide +kernel, by decide +kernel, ?_, by decide +kernel⟩
    intro k hk
    obtain rfl : k = 0 := Nat.lt_one_iff.mp hk
    exact ⟨_, _, dread_eq _ _ (by decide +kernel) (by decide +kernel) (by decide +kernel) (by decide +kernel)⟩
  · refine ⟨(entry 0x40 (zeros 8)), (inHand 0 (entry 0x40 (zeros 8)) served), ?_⟩
    repeat' apply And.intro
    all_goals decide +kernel
  · refine ⟨(entry 0x40 (toBytes 4 7 ++ zeros 4)), ((inHand 0 (entry 0x40 (toBytes 4 7 ++ zeros 4)) (served.setReg .BOOT_PMC_VER 0 0 7)).onBoot fun b => { b with restricted := true }), ?_⟩
    repeat' apply And.intro
    all_goals decide +kernel
  · refine ⟨(entry 0x31 [63]), (inHand 0 (entry 0x31 [63]) (pooled 4)), ?_⟩
    repeat' apply And.intro
    all_goals decide +kernel
  · refine ⟨(entry 0x31 [63]), (inHand 0 (entry 0x31 [63]) (pooled 3)), ?_⟩
    repeat' apply And.intro
    all_goals decide +kernel
  · refine ⟨(entry 0x32 [63, 9, 1]), (inHand 0 (entry 0x32 [63, 9, 1]) (pooled 3)), ?_⟩
    repeat' apply And.intro
    all_goals decide +kernel
  · refine ⟨(entry 0x30 ([63, 8, 0, 0] ++ toBytes 4 2 ++ toBytes 8 (dGa 0) ++ toBytes 8 (dGa 4096) ++ toBytes 8 (dGa 8192))), (inHand 0 (entry 0x30 ([63, 8, 0, 0] ++ toBytes 4 2 ++ toBytes 8 (dGa 0) ++ toBytes 8 (dGa 4096) ++ toBytes 8 (dGa 8192))) (served.onPart fun p => { p with allocs := p.allocs.map fun a => { a with vi := 0 } })), ?_⟩
    repeat' apply And.intro
    all_goals decide +kernel

theorem test_witness_MemoryCommands :
    (∃ (p lo hi a : Nat) (e : List Nat) (s : State),
      s.adminHas 0 0x10 e ∧ s.mapFails 0 (byteAt e 0xA) e = none ∧ byteAt e 8 = 0 ∧ byteAt e 9 = 0 ∧
      s.viPart (byteAt e 0xA) = some p ∧ s.allocRange p .d 0xFF (byteAt e 0xC) = some (lo, hi) ∧
      0 < field e 0x18 8 ∧ field e 0x18 8 % 4096 = 0 ∧ s.part.allocs.length < 4096 ∧
      s.quota (byteAt e 0xA) .d = 0 ∧
      firstFit lo (hi - lo) (field e 0x18 8) (s.allocUsed .d 0 (byteAt e 0xC)) = some a) ∧
    (∃ (v : Fin 256) (e : List Nat) (s : State),
      s.adminHas v 0x11 e ∧ byteAt e 8 = 0 ∧ (∀ a ∈ s.part.allocs, s.allocGa a ≠ field e 0x10 8)) ∧
    (∃ (e : List Nat) (x : Alloc) (s : State),
      s.adminHas 0 0x11 e ∧ byteAt e 8 = 0 ∧ s.underWay (byteAt e 0xA) = [] ∧ s.part.allocs = [x] ∧
      x.vi = byteAt e 0xA ∧ x.space = .d ∧ x.mapping = true ∧ x.unmapping = false ∧ s.allocGa x = field e 0x10 8) ∧
    (∃ (v : Fin 256) (e : List Nat) (s : State),
      s.adminHas v 0x20 e ∧ byteAt e 8 ≤ 5 ∧ s.mayQuery v (byteAt e 8) (byteAt e 9) = true ∧
      (byteAt e 8 = 1 → byteAt e 9 < 16 ∧ s.partExists (byteAt e 9) = true)) ∧
    (∃ (v : Fin 256) (e : List Nat) (s : State),
      s.adminHas v 0x20 e ∧ byteAt e 8 ≤ 5 ∧ s.mayQuery v (byteAt e 8) (byteAt e 9) = false) ∧
    (∃ (pl : Place) (e : List Nat) (s : State),
      s.adminHas 0 0x21 e ∧ s.retireFails e = none ∧ bit (byteAt e 0x18) 0 = 0 ∧
      s.placeOf (gaOffset (field e 8 8)) = some pl ∧ validPages s.host.pagesA = [] ∧ s.part.regions = [] ∧
      s.offsetOfLine (entryChan (pageEntry pl.chan (keyPc pl.key) pl.line 1)) (entryLine (pageEntry pl.chan (keyPc pl.key) pl.line 1)) = some (gaOffset (field e 8 8))) ∧
    (∃ (v : Fin 256) (e : List Nat) (s : State),
      s.adminHas v 0x22 e ∧ syncConfigFails e = none ∧ byteAt e 8 = 2 ∧ byteAt e 9 = 0 ∧
      (v = 0 ∨ s.viObject v (byteAt e 0xA) 0 (field e 0xC 2) = true) ∧
      (s.tokenQ (byteAt e 0xA) (field e 0xC 2)).waiters = []) ∧
    (∃ (v : Fin 256) (e : List Nat) (s : State),
      s.adminHas v 0x22 e ∧ syncConfigFails e = none ∧ byteAt e 8 = 2 ∧ byteAt e 9 = 0 ∧ v ≠ 0 ∧
      s.viObject v (byteAt e 0xA) 0 (field e 0xC 2) = false) := by
  refine ⟨⟨2, (14 * gib24), (14 * gib24 + (tget .empty served.hbm.maps 2).capacity), (14 * gib24 + 2 ^ 30), (entry 0x10 ([0, 0, 41, 255, 0, 0, 0, 0] ++ zeros 8 ++ toBytes 8 8192)), (inHand 0 (entry 0x10 ([0, 0, 41, 255, 0, 0, 0, 0] ++ zeros 8 ++ toBytes 8 8192)) served), ?_⟩,
    ⟨41, (entry 0x11 (zeros 8 ++ toBytes 8 (dGa 4096))), (inHand 41 (entry 0x11 (zeros 8 ++ toBytes 8 (dGa 4096))) served), ?_⟩,
    ⟨(entry 0x11 ([0, 0, 41] ++ zeros 5 ++ toBytes 8 (dGa 0))), alloc0, (inHand 0 (entry 0x11 ([0, 0, 41] ++ zeros 5 ++ toBytes 8 (dGa 0))) (served.onPart fun p => { p with allocs := [alloc0] })), ?_⟩,
    ⟨41, (entry 0x20 ([1, 2] ++ zeros 6 ++ toBytes 8 0x5000 ++ toBytes 4 48)), (inHand 41 (entry 0x20 ([1, 2] ++ zeros 6 ++ toBytes 8 0x5000 ++ toBytes 4 48)) served), ?_⟩,
    ⟨41, (entry 0x20 [2, 40]), (inHand 41 (entry 0x20 [2, 40]) served), ?_⟩,
    ⟨{ chan := 224, line := 0, byte := 0 }, (entry 0x21 (toBytes 8 (dGa 0))), (inHand 0 (entry 0x21 (toBytes 8 (dGa 0))) served), ?_⟩,
    ⟨0, (entry 0x22 [2, 0, 7, 0, 255, 15]), (inHand 0 (entry 0x22 [2, 0, 7, 0, 255, 15]) (served.onSync fun x => { x with queues := [(7 * 4096 + 4095, { TokenQ.reset with value := 5 })] })), ?_⟩,
    ⟨41, (entry 0x22 [2, 0, 7, 0, 255, 15]), (inHand 41 (entry 0x22 [2, 0, 7, 0, 255, 15]) served), ?_⟩⟩
  all_goals repeat' apply And.intro
  all_goals decide +kernel

end O12a

/-! ## Witnesses of the statements of chapter 12b -/

namespace O12b

/-- The work queue of VI 41 with the given operations in its buffer. -/
def wqv (ops : List Operation) : WorkQ := { wq0 ops with
  vi := 41, hall := 7, ringBase := dGa 0, tailRecord := dGa 0x10000, saveBase := dGa (2 ^ 20), saveBytes := 2 ^ 20 }

/-- The queue with no buffer, before ring entry 1. -/
def wqn : WorkQ := { wqv [] with buffer := none, tail := 2 }

def runsQ (w : WorkQ) : State := served.setQueue 4095 w

def ops (o : Operation) : State := runsQ (wqv [o])

/-- A buffer of one `NOP`. -/
def nopBuffer : List Nat := [1, 0, 1, 0, 1, 0, 0, 0] ++ toBytes 8 0xABCD ++ toBytes 4 192 ++ zeros 44 ++ zeros 128

def ringAt (e : List Nat) : State := (runsQ wqn).writeDAll (14 * gib24 + 16) e

def ready (typ : Nat) (body : List Nat) : Operation :=
  { op0 with typ := typ, state := .ready, launched := false, body := padBytes 96 body }

/-- A copy of 256 bytes by engine 63. -/
def copyOp : Operation := ready 2 (toBytes 8 (dGa 0) ++ toBytes 8 (dGa 4096) ++ toBytes 8 256 ++ toBytes 8 (2 ^ 48) ++ [63])

/-- A gather of two elements by the narrow path of hall 7. -/
def gatherOp : Operation := { ready 3 (toBytes 8 (dGa 0) ++ toBytes 8 (dGa 8192) ++ toBytes 8 (dGa 4096) ++ toBytes 4 2 ++ zeros 4 ++ [7])
  with timed := true, launchTread := 77 }

/-- The descriptor of a one-spin problem in stacked memory. -/
def desc1 : List Nat :=
  toBytes 8 0 ++ toBytes 8 (dGa 0x1000) ++ toBytes 8 (dGa 0x2000) ++ toBytes 8 (dGa 0x3000) ++ toBytes 8 (dGa 0x4000) ++
  toBytes 8 0 ++ toBytes 8 (dGa 0x5000) ++ zeros 56 ++ toBytes 4 1 ++ toBytes 2 1 ++ [1, 1] ++ toBytes 4 2 ++ zeros 4 ++
  toBytes 4 1 ++ zeros 6 ++ toBytes 2 1 ++ zeros 52 ++ toBytes 4 0x3F800000 ++ zeros 124

def annealOp : Operation := { ready 4 [0, 0, 0, 0, 7] with timed := true, launchTread := 77, extra := desc1 }

/-- A pool operation of `n` blocks of pool 63 with its list at 0x300000. -/
def poolOp (typ n : Nat) : Operation := ready typ ([63, 0, 0, 0] ++ toBytes 4 n ++ toBytes 8 (dGa 0x300000))

def pool0 (free : Nat) : Pool := { valid := true, blockLog2 := 12, count := 4, base := 14 * gib24 + 0x100000, tags := 14 * gib24 + 0x1000,
                                   stack := 14 * gib24 + 0x2000, free := free, granted := [41] }

def pooled (typ n free : Nat) : State := (ops (poolOp typ n)).onVst fun x => { x with pools := [(63, pool0 free)] }

/-- A kernel of `g` ranks at bundle 9. -/
def kernelOp (g : Nat) : Operation := ready 1 (zeros 22 ++ toBytes 2 9 ++ toBytes 2 g)

def idleAt (st : CoreState) : Alcove := { Alcove.reset with
  store := [⟨0, 7⟩], lastVi := some 3, tiles := [(0, { AccTile.zero with elems := [(0, 9)] })], core := { Core.reset with state := st } }

/-- Alcoves 240 and 255 are idle. -/
def idle (s : State) : State := (s.setAlcove 240 (idleAt .idle)).setAlcove 255 (idleAt .idle)

def ranked (o : Operation) : Operation := { o with ranks := [rank0 255] }

def busy255 (x : Alcove) : Alcove := { x with grant := some { queue := 4095, op := 0, rank := 0, size := 1 } }

/-- Queue 300 of priority 1 runs a pausable kernel on alcove 255; queue 4095 wants two alcoves, and 240 is idle. -/
def claims : State := ((ops (kernelOp 2)).setQueue 300 { wqv [victim] with prio := 1, ring := 3 }).setAlcove 240 (idleAt .idle) |>.setAlcove 255
  { idleAt .running with grant := some { queue := 300, op := 0, rank := 0, size := 1 } }
where
  victim : Operation := { ranked (kernelOp 1) with state := .running, pausable := true }

def slot0 : Nat × Nat × Nat × Nat := (0, 0, 14 * gib24 + 2 ^ 20, 4096)

def saving : State := (runsQ { wqv [{ ranked (kernelOp 1) with state := .running, pauseWanted := true }] with slots := [slot0] }).setAlcove 255
  { busy255 (idleAt .running) with saving := true }

def pausedOp : Operation := { kernelOp 1 with state := .paused, ranks := [{ rank0 255 with saved := some (14 * gib24 + 2 ^ 20) }] }

theorem test_witness_BuffersBegin :
    (∃ (q : Fin 4096) (w : WorkQ) (d : List Nat) (s : State),
      s.queue q = some w ∧ w.state = .active ∧ w.notified = true ∧
      s.dBlocked (gaOffset w.tailRecord) 8 true = false ∧ (s.readD (gaOffset w.tailRecord) 8).st = s ∧
      (s.readD (gaOffset w.tailRecord) 8).data = d ∧ (field d 0 4 + 2 ^ 32 - w.consumed) % 2 ^ 32 ≤ 2 ^ w.log2) ∧
    (∃ (q : Fin 4096) (w : WorkQ) (d : List Nat) (s : State),
      s.queue q = some w ∧ w.state = .active ∧ w.notified = true ∧ w.buffer = none ∧
      s.dBlocked (gaOffset w.tailRecord) 8 true = false ∧ (s.readD (gaOffset w.tailRecord) 8).st = s ∧
      (s.readD (gaOffset w.tailRecord) 8).data = d ∧ 2 ^ w.log2 < (field d 0 4 + 2 ^ 32 - w.consumed) % 2 ^ 32) ∧
    (∃ (q : Fin 4096) (w : WorkQ) (d : List Nat) (s : State),
      let at_ := gaOffset w.ringBase + 16 * (w.consumed % 2 ^ w.log2)
      let e := (s.readD at_ 16).data
      let n := field e 8 4
      s.queue q = some w ∧ w.state = .active ∧ w.buffer = none ∧ w.waiting = [] ∧ w.consumed ≠ w.tail ∧
      s.dBlocked at_ 16 true = false ∧ (s.readD at_ 16).st = s ∧ s.boot.restricted = false ∧
      s.ringEntryFails w.vi e = none ∧ s.dBlocked (gaOffset (field e 0 8)) n true = false ∧
      (s.readD (gaOffset (field e 0 8)) n).st = s ∧ (s.readD (gaOffset (field e 0 8)) n).data = d ∧
      headerFails d n = none ∧
      (s.setQueue q { w with consumed := (w.consumed + 1) % 2 ^ 32 }).opsFail w.vi d (field d 4 2) = none) ∧
    (∃ (q : Fin 4096) (w : WorkQ) (off : Nat) (s : State),
      let at_ := gaOffset w.ringBase + 16 * (w.consumed % 2 ^ w.log2)
      s.queue q = some w ∧ w.state = .active ∧ w.buffer = none ∧ w.waiting = [] ∧ w.consumed ≠ w.tail ∧
      s.dBlocked at_ 16 true = false ∧ (s.readD at_ 16).st = s ∧ s.boot.restricted = false ∧
      s.ringEntryFails w.vi (s.readD at_ 16).data = some off) ∧
    (∃ (q : Fin 4096) (i : Nat) (w : WorkQ) (o : Operation) (s : State),
      s.queue q = some w ∧ s.op? q i = some o ∧ o.state = .waitSync ∧ s.waitsMet w.vi o = true ∧
      s.quarantineHolds o = false ∧ o.received = false ∧ o.rangesOf 2 = []) ∧
    (∃ (q : Fin 4096) (i : Nat) (w : WorkQ) (o : Operation) (s : State),
      s.queue q = some w ∧ s.op? q i = some o ∧ o.state = .waitSync ∧ s.waitsMet w.vi o = true ∧
      s.quarantineHolds o = true) ∧
    (∃ (q : Fin 4096) (i : Nat) (w : WorkQ) (o : Operation) (s : State),
      s.queue q = some w ∧ s.op? q i = some o ∧ s.waitsMet w.vi o = false) := by
  refine ⟨⟨4095, { wqv [] with notified := true }, (toBytes 4 5 ++ zeros 4), ((runsQ { wqv [] with notified := true }).writeDAll (14 * gib24 + 0x10000) (toBytes 4 5)), ?_⟩,
    ⟨4095, { wqn with notified := true }, (toBytes 4 50 ++ zeros 4), ((runsQ { wqn with notified := true }).writeDAll (14 * gib24 + 0x10000) (toBytes 4 50)), ?_⟩,
    ⟨4095, wqn, nopBuffer, ((ringAt (toBytes 8 (dGa 4096) ++ toBytes 4 192)).writeDAll (14 * gib24 + 4096) nopBuffer), ?_⟩,
    ⟨4095, wqn, 8, (runsQ wqn), ?_⟩,
    ⟨4095, 0, (wqv [{ op0 with state := .waitSync }]), { op0 with state := .waitSync }, (ops { op0 with state := .waitSync }), ?_⟩,
    ⟨4095, 0, (wqv [{ op0 with state := .waitSync, ranges := [{ base := dGa 0, bytes := 8, kind := 1 }] }]), { op0 with state := .waitSync, ranges := [{ base := dGa 0, bytes := 8, kind := 1 }] }, ((ops { op0 with state := .waitSync, ranges := [{ base := dGa 0, bytes := 8, kind := 1 }] }).onPart fun p => { p with regions := [{ num := 5, base := 14 * gib24 + 7, size := 4096, partition := 2, quarantined := true, record := 0 }] }), ?_⟩,
    ⟨4095, 0, (wqv [{ op0 with state := .waitSync, syncs := [{ kind := 0, handle := 0, value := 1 }], waits := [.asked] }]), { op0 with state := .waitSync, syncs := [{ kind := 0, handle := 0, value := 1 }], waits := [.asked] }, (ops { op0 with state := .waitSync, syncs := [{ kind := 0, handle := 0, value := 1 }], waits := [.asked] }), ?_⟩⟩
  all_goals repeat' apply And.intro
  all_goals decide +kernel

theorem test_witness_OperationsDispatch :
    (∃ (q : Fin 4096) (i p : Nat) (w : WorkQ) (o : Operation) (s : State),
      s.dispatchable q i typNop = some (w, o, p) ∧ o.timed = false) ∧
    (∃ (q : Fin 4096) (i p : Nat) (w : WorkQ) (o : Operation) (s : State),
      s.dispatchable q i typCopy = some (w, o, p) ∧ o.timed = false ∧ (s.engine (o.word 0x40 1)).retired = false ∧
      s.halfPart (engineHalf (o.word 0x40 1)) = some p ∧ (s.engine (o.word 0x40 1)).depth < 32 ∧
      s.copyFails w.vi o.request = none ∧ s.noScan) ∧
    (∃ (q : Fin 4096) (i p : Nat) (w : WorkQ) (o : Operation) (s : State),
      s.dispatchable q i typGather = some (w, o, p) ∧ o.timed = true ∧
      o.launchTread ≤ s.now (8 + w.hall) + 2 ^ 36 ∧ s.inHall p (o.word 0x40 1) = true ∧
      s.gather? (o.word 0x40 1) = none ∧ s.gatherRefused w.vi (slice o.body 0 32) = false) ∧
    (∃ (q : Fin 4096) (i p : Nat) (w : WorkQ) (o : Operation) (s : State),
      s.dispatchable q i typAnneal = some (w, o, p) ∧ o.timed = true ∧
      o.launchTread ≤ s.now (8 + w.hall) + 2 ^ 36 ∧ s.inHall p (o.word 0x24 1) = true ∧
      s.retired (channelId 8 (o.word 0x24 1)) = false ∧ s.annealerPart (o.word 0x24 1) = some p ∧
      s.annRun (o.word 0x24 1) = none ∧ s.fld F.ANN_CTRL_HOLD (o.word 0x24 1) = 0 ∧
      s.annealFails (o.word 0x24 1) w.vi o.extra = none ∧ s.noScan) ∧
    (∃ (q : Fin 4096) (i p : Nat) (w : WorkQ) (o : Operation) (s : State),
      s.dispatchable q i typAnneal = some (w, o, p) ∧ s.inHall p (o.word 0x24 1) = true ∧
      s.retired (channelId 8 (o.word 0x24 1)) = false ∧ s.annealerPart (o.word 0x24 1) = some p ∧
      s.fld F.ANN_CTRL_HOLD (o.word 0x24 1) = 1) ∧
    (∃ (q : Fin 4096) (i p : Nat) (w : WorkQ) (o : Operation) (s : State),
      s.dispatchable q i typAlloc = some (w, o, p) ∧ s.poolRefused w.vi o true = none ∧
      s.poolBlocked (s.pool (o.word 0x20 1)) o = false ∧ (s.pool (o.word 0x20 1)).free < o.word 0x24 4) ∧
    (∃ (q : Fin 4096) (i p : Nat) (w : WorkQ) (o : Operation) (s : State),
      s.dispatchable q i typAlloc = some (w, o, p) ∧ s.poolRefused w.vi o true = none ∧
      s.poolBlocked (s.pool (o.word 0x20 1)) o = false ∧ o.word 0x24 4 ≤ (s.pool (o.word 0x20 1)).free) ∧
    (∃ (q : Fin 4096) (i p ga b : Nat) (w : WorkQ) (o : Operation) (d : List Nat) (s : State),
      s.dispatchable q i typFree = some (w, o, p) ∧ s.poolRefused w.vi o false = none ∧
      s.poolBlocked (s.pool (o.word 0x20 1)) o = false ∧ o.word 0x24 4 = 1 ∧
      (s.readList (o.word 0x28 8) 8).st = s ∧ field (s.readList (o.word 0x28 8) 8).data 0 8 = ga ∧
      gaSpace ga = spaceD ∧ gaDevice ga = s.deviceId ∧
      gaOffset ga = (s.pool (o.word 0x20 1)).base + b * 2 ^ (s.pool (o.word 0x20 1)).blockLog2 ∧
      b < (s.pool (o.word 0x20 1)).count ∧ (s.readD ((s.pool (o.word 0x20 1)).tags + 2 * b) 2).st = s ∧
      (s.readD ((s.pool (o.word 0x20 1)).tags + 2 * b) 2).data = d ∧ bit (field d 0 2) 15 = 1 ∧
      bits (field d 0 2) 11 4 = w.vi) := by
  refine ⟨⟨4095, 0, 2, (wqv [ready 0 []]), (ready 0 []), (ops (ready 0 [])), ?_⟩,
    ⟨4095, 0, 2, (wqv [copyOp]), copyOp, (ops copyOp), ?_⟩,
    ⟨4095, 0, 2, (wqv [gatherOp]), gatherOp, (ops gatherOp), ?_⟩,
    ⟨4095, 0, 2, (wqv [annealOp]), annealOp, (ops annealOp), ?_⟩,
    ⟨4095, 0, 2, (wqv [annealOp]), annealOp, ((ops annealOp).setFld F.ANN_CTRL_HOLD 1 7), ?_⟩,
    ⟨4095, 0, 2, (wqv [poolOp 5 3]), (poolOp 5 3), (pooled 5 3 2), ?_⟩,
    ⟨4095, 0, 2, (wqv [poolOp 5 2]), (poolOp 5 2), (pooled 5 2 2), ?_⟩,
    ⟨4095, 0, 2, (dGa 0x101000), 1, (wqv [poolOp 6 1]), (poolOp 6 1), (toBytes 2 (2 ^ 15 + 41 * 16 + 2)), (((pooled 6 1 2).writeDAll (14 * gib24 + 0x300000) (toBytes 8 (dGa 0x101000))).writeDAll (14 * gib24 + 0x1002) (toBytes 2 (2 ^ 15 + 41 * 16 + 2))), ?_⟩⟩
  all_goals repeat' apply And.intro
  all_goals decide +kernel

theorem test_witness_KernelsRun :
    (∃ (q : Fin 4096) (i p : Nat) (w : WorkQ) (o : Operation) (s : State),
      s.dispatchable q i typKernel = some (w, o, p) ∧ o.group ≤ (s.idleAlcoves p o).length ∧ o.timed = false ∧
      o.tileDesc = none ∧ o.imageBytes = 0 ∧ s.noScan ∧ s.vst.claims = []) ∧
    (∃ (q : Fin 4096) (i p : Nat) (w : WorkQ) (o : Operation) (s : State),
      s.dispatchable q i typKernel = some (w, o, p) ∧ o.group ≤ (s.kernelAlcoves p o).length ∧
      (s.idleAlcoves p o).length < o.group) ∧
    (∃ (q : Fin 4096) (i : Nat) (o : Operation) (s : State),
      s.op? q i = some o ∧ o.typ = typKernel ∧ o.state = .dispatched ∧ o.timed = false) ∧
    (∃ (q : Fin 4096) (i : Nat) (w : WorkQ) (o : Operation) (s : State),
      s.queue q = some w ∧ s.op? q i = some o ∧ o.typ = typNop ∧ o.timed = true ∧ o.state = .dispatched ∧
      o.launched = false ∧ w.paused = false ∧ o.launchTread ≤ s.now (8 + w.hall) ∧ bit o.flags 0 = 0 ∧
      bit o.flags 1 = 0) ∧
    (∃ (q : Fin 4096) (i : Nat) (w : WorkQ) (o : Operation) (s : State),
      s.queue q = some w ∧ s.op? q i = some o ∧ o.typ = typNop ∧ s.now (8 + w.hall) < o.launchTread) ∧
    (∃ (q : Fin 4096) (i p vq vi : Nat) (w : WorkQ) (o vo : Operation) (t s : State),
      s.queue q = some w ∧ s.op? q i = some o ∧ s.queuePart w = some p ∧ w.state = .active ∧ w.ringFull = false ∧
      o.typ = typKernel ∧ s.mayClaim w o = true ∧ s.outranked q i (o.need p) = false ∧
      o.group ≤ (s.kernelAlcoves p o).length ∧ (s.idleAlcoves p o).length < o.group ∧ s.vst.claims = [] ∧
      s.takeVictims (s.kernelAlcoves p o) (o.group - (s.idleAlcoves p o).length) ((s.claimable w.prio p).foldr insertVictim []) = some (t, [(vq, vi)]) ∧
      t.op? vq vi = some vo) ∧
    (∃ (n : Fin 256) (g : Grant) (w : WorkQ) (o : Operation) (r : Rank) (at_ len : Nat) (s : State),
      (s.alcove n).grant = some g ∧ s.queue g.queue = some w ∧ s.op? g.queue g.op = some o ∧
      w.slots.find? (fun y => y.1 == g.op && y.2.1 == g.rank) = some (g.op, g.rank, at_, len) ∧
      (s.alcove n).saving = true ∧ o.idx = g.op ∧ o.state = .running ∧ o.pauseWanted = true ∧ o.ranks = [r] ∧
      r.alcove = n.val ∧ g.rank = 0) ∧
    (∃ (q : Fin 4096) (i p n at_ : Nat) (w : WorkQ) (o : Operation) (r : Rank) (s : State),
      s.queue q = some w ∧ s.op? q i = some o ∧ s.queuePart w = some p ∧ w.state = .active ∧ w.ringFull = false ∧
      o.state = .paused ∧ s.partInvals p = false ∧ s.outranked q i (o.need p) = false ∧ o.group = 1 ∧
      o.ranks = [r] ∧ r.saved = some at_ ∧ o.imageBytes = 0 ∧ o.group ≤ (s.kernelAlcoves p o).length ∧
      (s.idleAlcoves p o).take 1 = [n] ∧ s.noScan ∧ s.vst.claims = []) := by
  refine ⟨⟨4095, 0, 2, (wqv [kernelOp 2]), (kernelOp 2), (idle (ops (kernelOp 2))), ?_⟩,
    ⟨4095, 0, 2, (wqv [kernelOp 3]), (kernelOp 3), (idle (ops (kernelOp 3))), ?_⟩,
    ⟨4095, 0, { ranked (kernelOp 1) with state := .dispatched }, ((ops { ranked (kernelOp 1) with state := .dispatched }).setAlcove 255 (busy255 (idleAt .idle))), ?_⟩,
    ⟨4095, 0, (wqv [{ ready 0 [] with state := .dispatched, timed := true, launchTread := 499 }]), { ready 0 [] with state := .dispatched, timed := true, launchTread := 499 }, ((ops { ready 0 [] with state := .dispatched, timed := true, launchTread := 499 }).onTime fun t => { t with tick := 500 }), ?_⟩,
    ⟨4095, 0, (wqv [{ ready 0 [] with state := .dispatched, timed := true, launchTread := 501 }]), { ready 0 [] with state := .dispatched, timed := true, launchTread := 501 }, ((ops { ready 0 [] with state := .dispatched, timed := true, launchTread := 501 }).onTime fun t => { t with tick := 500 }), ?_⟩,
    ⟨4095, 0, 2, 300, 0, (wqv [kernelOp 2]), (kernelOp 2), { ranked (kernelOp 1) with state := .running, pausable := true }, (claims.setQueue 300 { wqv [{ ranked (kernelOp 1) with state := .running, pausable := true }] with prio := 1, ring := 3, slots := [slot0] }), claims, ?_⟩,
    ⟨255, { queue := 4095, op := 0, rank := 0, size := 1 }, { wqv [{ ranked (kernelOp 1) with state := .running, pauseWanted := true }] with slots := [slot0] }, { ranked (kernelOp 1) with state := .running, pauseWanted := true }, (rank0 255), (14 * gib24 + 2 ^ 20), 4096, saving, ?_⟩,
    ⟨4095, 0, 2, 240, (14 * gib24 + 2 ^ 20), (wqv [pausedOp]), pausedOp, { rank0 255 with saved := some (14 * gib24 + 2 ^ 20) }, (idle (ops pausedOp)), ?_⟩⟩
  all_goals repeat' apply And.intro
  all_goals decide +kernel

theorem test_witness_OperationsEnd :
    (∃ (q : Fin 4096) (i : Nat) (w : WorkQ) (o : Operation) (s : State),
      s.queue q = some w ∧ s.op? q i = some o ∧ o.state = .waitSync ∧ o.held = false ∧ o.timed = false ∧
      w.timeoutUs * 1000 ≤ o.waitClock ∧ o.cause = 0) ∧
    (∃ (q : Fin 4096) (i : Nat) (w : WorkQ) (o : Operation) (s : State),
      s.queue q = some w ∧ s.op? q i = some o ∧ 0 < o.waitClock ∧ o.waitClock < w.timeoutUs * 1000) ∧
    (∃ (q : Fin 4096) (i : Nat) (w : WorkQ) (o : Operation) (s : State),
      s.queue q = some w ∧ s.op? q i = some o ∧ o.typ = typKernel ∧ o.state = .running ∧ o.launched = true ∧
      o.engineDone = false ∧ o.status = 0 ∧ o.retiredCount = 0 ∧ w.timeoutUs * 1000 ≤ o.runClock ∧ o.cause = 0) ∧
    (∃ (q : Fin 4096) (i : Nat) (w : WorkQ) (o : Operation) (s : State),
      s.queue q = some w ∧ s.op? q i = some o ∧ 0 < o.runClock ∧ o.runClock < w.timeoutUs * 1000) ∧
    (∃ (q : Fin 4096) (i : Nat) (w : WorkQ) (o : Operation) (b : Buffer) (s : State),
      s.queue q = some w ∧ s.op? q i = some o ∧ o.typ = typNop ∧ o.state = .running ∧ o.engineDone = true ∧
      s.shadowBusy q i = false ∧ o.status = 0 ∧ o.retiredCount = 0 ∧ o.copyFault = none ∧ o.sharedPoison = none ∧
      o.syncs = [] ∧ o.ranges = [] ∧ w.buffer = some b ∧ b.ops = [o]) ∧
    (∃ (q : Fin 4096) (i : Nat) (o : Operation) (s : State),
      s.op? q i = some o ∧ o.finished = false) ∧
    (∃ (q : Fin 4096) (w : WorkQ) (s : State),
      s.queue q = some w ∧ w.ringFull = true ∧ w.cqHost = true ∧ s.hostClear w.vi ∧ w.waiting = []) ∧
    (∃ (q : Fin 4096) (w : WorkQ) (s : State),
      s.queue q = some w ∧ w.ringFull = false) := by
  refine ⟨⟨4095, 0, (wqv [{ op0 with state := .waitSync, launched := false, waitClock := 1000000 }]), { op0 with state := .waitSync, launched := false, waitClock := 1000000 }, (ops { op0 with state := .waitSync, launched := false, waitClock := 1000000 }), ?_⟩,
    ⟨4095, 0, (wqv [{ op0 with state := .waitSync, launched := false, waitClock := 999999 }]), { op0 with state := .waitSync, launched := false, waitClock := 999999 }, (ops { op0 with state := .waitSync, launched := false, waitClock := 999999 }), ?_⟩,
    ⟨4095, 0, (wqv [{ ranked op0 with typ := 1, runClock := 1000000 }]), { ranked op0 with typ := 1, runClock := 1000000 }, ((ops { ranked op0 with typ := 1, runClock := 1000000 }).setAlcove 255 (busy255 (idleAt .running))), ?_⟩,
    ⟨4095, 0, (wqv [{ ranked op0 with typ := 1, runClock := 999999 }]), { ranked op0 with typ := 1, runClock := 999999 }, (ops { ranked op0 with typ := 1, runClock := 999999 }), ?_⟩,
    ⟨4095, 0, (wqv [{ op0 with engineDone := true }]), { op0 with engineDone := true }, { base := 0, bytes := 512, tag := 7, reportAll := true, ops := [{ op0 with engineDone := true }], stopStatus := 0, stopDetail := 0 }, (ops { op0 with engineDone := true }), ?_⟩,
    ⟨4095, 0, op0, (ops op0), ?_⟩,
    ⟨4095, { wqv [] with cqWritten := 7, cqHead := 2 ^ 32 - 9 }, (runsQ { wqv [] with cqWritten := 7, cqHead := 2 ^ 32 - 9 }), ?_⟩,
    ⟨4095, (wqv []), (runsQ (wqv [])), ?_⟩⟩
  all_goals repeat' apply And.intro
  all_goals decide +kernel

end O12b

/-! ## Witnesses of the statements of chapter 13 -/

namespace O13

/-- The power supplies are good. -/
def powered (s : State) : State := s.onPwr fun p => { p with pins := { p.pins with pwrOk := true, perstN := true }, tripped := false }

def booting (n : Nat) (f : BootSt → BootSt) : State := powered (up.onBoot fun b => f { b with step := n })

def img (c : Nat) : Image := { component := c, stepping := 0xB0, version := 7, svn := 3, bytes := 100, signed := true, compat := [], bundles := [], data := [1, 2] }

def readyChannels (s : State) : State := s.onHbm fun h => { h with
  channels := (List.range 256).map fun c => (c, { Channel.reset with state := .ready }) }

def resetting : ResetRun := { kind := .interface 41, since := 0, parts := [], vis := [41], unbind := [], waiting := false, wipe := some 9 }

def record1 : LcRecord := { LcRecord.blank with state := 1, sequence := 5, deviceId := 77, transitions := 1 }

def withRecord (s : State) : State := s.onBoot fun b => { b with lcA := some record1, lcB := some record1, record := record1 }

theorem test_witness_ResetsRun :
    (∃ (v : Fin 256) (s : State),
      s.boot.resets.any (·.covers (.interface v)) = true) ∧
    (∃ (v : Fin 256) (s : State),
      s.boot.step = 9 ∧ s.boot.resets = [] ∧ s.queuesOf v = [] ∧ s.ownAllocs [v.val] = [] ∧ s.vst.pools = [] ∧
      s.noArmed) ∧
    (∃ (a : Agent) (p : Fin 16) (s : State),
      s.reaches a .PART_CTRL p ∧ s.boot.step = 9 ∧ s.boot.resets = [] ∧ s.partExists p = true ∧
      s.boundTo [p.val] = [] ∧ s.noArmed ∧ s.noScan) ∧
    (∃ (a : Agent) (x : Nat) (s : State),
      s.reaches a .BOOT_CTRL ∧ F.BOOT_CTRL_COLD.of x = 0 ∧ F.BOOT_CTRL_WARM.of x = 0 ∧ s.boot.step = 9 ∧
      s.boot.resets = [] ∧ s.noArmed ∧ s.part.bound = [] ∧ s.noScan) ∧
    (∃ (a : Agent) (x : Nat) (s : State),
      s.reaches a .BOOT_CTRL ∧ F.BOOT_CTRL_COLD.of x = 0 ∧ s.boot.step = 9 ∧ s.boot.resets = []) ∧
    (∃ (a : Agent) (s : State),
      s.reaches a .BOOT_CTRL ∧ s.pwr.pins.pwrOk = true ∧ s.pwr.tripped = false) ∧
    (∃ (s : State),
      s.pwr.pins.pwrOk = false) ∧
    (∃ (s : State),
      s.pwr.pins.pwrOk = true ∧ s.boot.step ≠ 0) ∧
    (∃ (s : State),
      s.pwr.pins.perstN = true ∧ s.boot.step = 9 ∧ s.boot.resets = []) ∧
    (∃ (v n : Nat) (r : ResetRun) (s : State),
      s.boot.resets = [r] ∧ r.kind = .interface v ∧ r.vis = [v] ∧ r.parts = [] ∧ r.unbind = [] ∧ r.wipe = some n ∧
      s.wiping n = false ∧ s.ownAllocs [v] = [] ∧ v < 256) := by
  refine ⟨⟨41, (up.onBoot fun b => { b with resets := [resetting] }), ?_⟩,
    ⟨41, ((up.onPart fun p => { p with vfEnable := true, numVfs := 255 }).setFld F.VST_ADMIN_CTRL_ENABLE 1 41), ?_⟩,
    ⟨.mgt, 2, ((served.onPart fun p => { p with bound := [], allocs := [] }).setAlcove 255 { Alcove.reset with store := [⟨4, 4⟩] }), ?_⟩,
    ⟨.mgt, 1, (served.onPart fun p => { p with bound := [], allocs := [] }), ?_⟩,
    ⟨.mgt, 2, served, ?_⟩,
    ⟨.mgt, (powered served), ?_⟩,
    ⟨(up.onPwr fun p => { p with pins := { p.pins with pwrOk := false } }), ?_⟩,
    ⟨(powered up), ?_⟩,
    ⟨(powered up), ?_⟩,
    ⟨41, 9, resetting, (up.onBoot (fun b => { b with resets := [resetting] }) |>.onPart fun p => { p with resetting := [41, 3] }), ?_⟩⟩
  all_goals repeat' apply And.intro
  all_goals decide +kernel

theorem test_witness_BootRuns :
    (∃ (s : State),
      s.bootAt 3 = true ∧ s.boot.directory.pmcPending = none ∧
      (∀ b x, b < 2 → tget none s.boot.pmcBanks b = some x → s.imageValid 1 x = false) ∧
      s.boot.directory.pmcActive < 2) ∧
    (∃ (x : Image) (s : State),
      s.bootAt 3 = true ∧ s.boot.directory.pmcPending = none ∧
      tget none s.boot.pmcBanks s.boot.directory.pmcActive = some x ∧ s.imageValid 1 x = true) ∧
    (∃ (x pmc : Image) (s : State),
      s.bootAt 6 = true ∧ s.boot.directory.hallPending = none ∧
      tget none s.boot.hallBanks s.boot.directory.hallActive = some x ∧ s.imageValid 2 x = true ∧
      s.boot.pmcImage = some pmc) ∧
    (∃ (x : Image) (s : State),
      s.bootAt 7 = true ∧ s.boot.hallImage = some x) ∧
    (∃ (s : State),
      s.bootAt 8 = true ∧
      (∀ c, c < 256 → (s.channel c).state = .ready ∨ (s.channel c).state = .retired ∨ s.boot.unpowered.contains (c / 32) = true) ∧
      s.boot.triedPmc = none ∧ s.boot.triedHall = none) ∧
    (∃ (c : Nat) (s : State),
      c < 256 ∧ (s.channel c).state = .training ∧ s.boot.unpowered.contains (c / 32) = false) ∧
    (∃ (s : State),
      s.boot.watchdog = true ∧ 2000000000 ≤ s.time.tick - s.boot.began ∧ s.pwr.pins.pwrOk = true ∧
      s.pwr.tripped = false) ∧
    (∃ (t : Nat) (s : State),
      s.boot.service = some t ∧ 100000000 ≤ s.time.tick - t ∧ s.pwr.pins.pwrOk = true ∧ s.pwr.tripped = false ∧
      s.inj.timerStopped = false) ∧
    (∃ (t : Nat) (s : State),
      s.boot.service = some t ∧ s.time.tick - t < 100000000) ∧
    (∃ (code slot pc : Nat) (s : State),
      (s.hc 8).fault = some (code, slot, pc) ∧ s.boot.step = 9 ∧ s.pwr.pins.pwrOk = true ∧ s.pwr.tripped = false ∧
      code < 256 ∧ slot < 8 ∧ pc < 4096) ∧
    (∃ (a : Agent) (x : Nat) (s : State),
      s.reaches a .BOOT_OVERRIDE ∧ s.quiet ∧ x < 2 ^ 32) := by
  refine ⟨?_, ?_, ?_, ?_, ?_, ?_, ?_, ?_, ?_, ?_, ?_⟩
  · refine ⟨(booting 3 id), ?_⟩
    refine ⟨by decide +kernel, by decide +kernel, ?_, by decide +kernel⟩
    intro b x _
    exact tget_all (P := fun x => (booting 3 id).imageValid 1 x = false) (by decide +kernel) b x
  · refine ⟨(img 1), (booting 3 fun b => { b with pmcBanks := [(0, some (img 1))] }), ?_⟩
    repeat' apply And.intro
    all_goals decide +kernel
  · refine ⟨(img 2), (img 1), (booting 6 fun b => { b with pmcImage := some (img 1), hallBanks := [(0, some (img 2))] }), ?_⟩
    repeat' apply And.intro
    all_goals decide +kernel
  · refine ⟨(img 2), (booting 7 fun b => { b with hallImage := some (img 2) }), ?_⟩
    repeat' apply And.intro
    all_goals decide +kernel
  · refine ⟨(readyChannels (booting 8 id)), ?_⟩
    repeat' apply And.intro
    all_goals decide +kernel
  · refine ⟨255, ((booting 8 id).setChannel 255 { Channel.reset with state := .training }), ?_⟩
    repeat' apply And.intro
    all_goals decide +kernel
  · refine ⟨(powered ((upAt 2000000005).onBoot fun b => { b with watchdog := true, began := 5 })), ?_⟩
    repeat' apply And.intro
    all_goals decide +kernel
  · refine ⟨5, (powered ((upAt 100000005).onBoot fun b => { b with service := some 5 })), ?_⟩
    repeat' apply And.intro
    all_goals decide +kernel
  · refine ⟨5, (powered ((upAt 100000004).onBoot fun b => { b with service := some 5 })), ?_⟩
    repeat' apply And.intro
    all_goals decide +kernel
  · refine ⟨255, 7, 4095, ((powered up).setHc 8 { HallCtl.reset with fault := some (255, 7, 4095) }), ?_⟩
    repeat' apply And.intro
    all_goals decide +kernel
  · refine ⟨.mgt, 5, (((up.setReg .BOOT_PMC_VER 0 0 7).setReg .BOOT_HALL_VER 0 0 2).onBoot fun b => { b with restricted := true }), ?_⟩
    repeat' apply And.intro
    all_goals decide +kernel

theorem test_witness_LifeCycle :
    (∃ (a : Agent) (x : Nat) (s : State),
      s.reaches a .LC_CMD ∧ s.quiet ∧ x < 2 ^ 32) ∧
    (∃ (a : Agent) (x : Nat) (s : State),
      s.reaches a .LC_CMD ∧ s.quiet ∧ x < 2 ^ 32 ∧ s.boot.lcArm = none) ∧
    (∃ (a : Agent) (x : Nat) (arm : LcArm) (s : State),
      s.reaches a .LC_CMD ∧ x < 2 ^ 32 ∧ s.boot.lcArm = some arm ∧ s.time.tick - arm.since ≤ 1000000000 ∧
      arm.target = bits x 1 0 ∧ bits x 5 4 = 3 - bits x 1 0 ∧ s.boot.recordNow.1.state = 1 ∧ bits x 1 0 = 2 ∧
      s.flashBusy = false ∧ s.pwr.pins.pwrOk = true ∧ s.pwr.tripped = false) ∧
    (∃ (arm : LcArm) (s : State),
      s.boot.lcArm = some arm ∧ 1000000000 < s.time.tick - arm.since) ∧
    (∃ (arm : LcArm) (s : State),
      s.boot.lcArm = some arm ∧ s.time.tick - arm.since ≤ 1000000000) ∧
    (∃ (a : Agent) (x : Nat) (s : State),
      s.reaches a .LC_CMD ∧ s.quiet ∧ x < 2 ^ 32) := by
  refine ⟨⟨.mgt, 0x12, (upAt 5), ?_⟩,
    ⟨.mgt, 0x12, up, ?_⟩,
    ⟨.mgt, 0x112, { target := 2, since := 5 }, (withRecord (powered ((upAt 1000000005).onBoot fun b => { b with lcArm := some { target := 2, since := 5 }, retireA := [3] }))), ?_⟩,
    ⟨{ target := 2, since := 5 }, ((upAt 1000000006).onBoot fun b => { b with lcArm := some { target := 2, since := 5 } }), ?_⟩,
    ⟨{ target := 2, since := 5 }, ((upAt 1000000005).onBoot fun b => { b with lcArm := some { target := 2, since := 5 } }), ?_⟩,
    ⟨.mgt, 0x400, ((withRecord up).setFld F.LC_NEXT_ID_NEXT 99), ?_⟩⟩
  all_goals repeat' apply And.intro
  all_goals decide +kernel

end O13

/-! ## Witnesses of the statements of chapter 14 -/

namespace O14

def setSrc (src : Nat) (st : SrcState) (t : Option Nat) (s : State) : State :=
  s.setIcSource src { IcSource.reset with state := st, target := t }

/-- Controller 2 runs; source 263 pends for it at level 4, source 323 at level 18. -/
def pended : State :=
  (setSrc 263 .pending (some 2) (setSrc 323 .pending (some 2)
    (((up.setReg .IC_SRC_CFG 263 0 (0x80000000 + 4 * 2 ^ 25 + 2 ^ 17)).setReg .IC_SRC_CFG 323 0 (0xC0000000 + 2 * 2 ^ 25 + 2 ^ 17)).setReg
      .IC_TGT_CTRL 2 0 0x81230456))).setHc 2 (let h : HallCtl := up.hc 2; { h with core := { h.core with state := .running, pc := 77 } })
def pendedStack : State := { pended with ic := { pended.ic with frames := [(2, [{ pc := 5, bank := 0, level := 4 }])], taken := [(2, [263])] } }
def slow : State := setSrc 263 .pending (some 2) ((up.setReg .IC_SRC_CFG 263 0 (0x80000000 + 4 * 2 ^ 25 + 2 ^ 17)).setReg
      .IC_TGT_CTRL 2 0 0x81230456) |>.setHc 2 (let h : HallCtl := up.hc 2; { h with core := { h.core with state := .waiting, wait := some .interrupt, pc := 77 } })
def notice (s : State) : State := ((s.setReg .VI_MSIX 41 0 0).setFld F.VI_MSIX_BASE 100 41).setFld F.VI_MSIX_COUNT 8 41
def opened (s : State) : State := s.onHost fun h => { h with msix := [(103, { MsixEntry.reset with mask := false, addr := 0x1000, data := 9 })], funcs := [(41, some { FuncCtl.reset 41 with msixEnable := true })] }

theorem test_witness_InterruptIsTaken :
    (∃ (t : Fin 9) (s : State) (src : Nat),
      (s.hc t).core.atBoundary = true ∧ s.takable t = some src) := by
  refine ⟨2, pended, 323, ?_⟩
  all_goals repeat' apply And.intro
  all_goals decide +kernel

theorem test_witness_TakableIsForemost :
    (∃ (s : State) (t src : Nat),
      s.takable t = some src) ∧
    (∃ (s : State) (t : Fin 9),
      (s.takable t = none ∨ (s.hc t).core.atBoundary = false)) := by
  refine ⟨⟨pendedStack, 2, 323, ?_⟩,
    ⟨up, 2, ?_⟩⟩
  all_goals repeat' apply And.intro
  all_goals decide +kernel

theorem test_witness_CompletionOfSource :
    (∃ (a : Agent) (t : Fin 10) (v src : Nat) (s : State),
      s.reaches a .IC_TGT_EOI t ∧ s.quiet ∧ src = F.IC_TGT_EOI_SOURCE.of (v % 2 ^ 32) ∧
      (s.icSource src).state = .active ∧ (s.icSource src).target = some t.val) ∧
    (∃ (a : Agent) (t : Fin 10) (v src : Nat) (s : State),
      s.reaches a .IC_TGT_EOI t ∧ s.quiet ∧ src = F.IC_TGT_EOI_SOURCE.of (v % 2 ^ 32) ∧
      (s.icSource src).target ≠ some t.val) := by
  refine ⟨⟨.mgt, 9, 263, 263, (setSrc 263 .active (some 9) up), ?_⟩,
    ⟨.mgt, 9, 263, 263, (setSrc 263 .active (some 2) up), ?_⟩⟩
  all_goals repeat' apply And.intro
  all_goals decide +kernel

theorem test_witness_SoftwareSourceFires :
    (∃ (a : Agent) (v src : Nat) (s : State),
      s.reaches a .IC_SWI ∧ s.quiet ∧ src = F.IC_SWI_SOURCE.of (v % 2 ^ 32) ∧ 112 ≤ src % 128 ∧ src % 128 < 120) ∧
    (∃ (a : Agent) (v : Nat) (s : State),
      s.reaches a .IC_SWI ∧ s.quiet ∧
      ¬(112 ≤ F.IC_SWI_SOURCE.of (v % 2 ^ 32) % 128 ∧ F.IC_SWI_SOURCE.of (v % 2 ^ 32) % 128 < 120)) := by
  refine ⟨⟨.mgt, 112, 112, up, ?_⟩,
    ⟨.mgt, 120, up, ?_⟩⟩
  all_goals repeat' apply And.intro
  all_goals decide +kernel

theorem test_witness_SourceAndTargetConfigured :
    (∃ (a : Agent) (src : Fin 1024) (s : State),
      s.reaches a .IC_SRC_CFG src ∧ s.quiet) ∧
    (∃ (a : Agent) (t : Fin 10) (s : State),
      s.reaches a .IC_TGT_CTRL t ∧ s.quiet) := by
  refine ⟨⟨.mgt, 263, pended, ?_⟩,
    ⟨.mgt, 2, pended, ?_⟩⟩
  all_goals repeat' apply And.intro
  all_goals decide +kernel

theorem test_witness_NoticeEnabledAndCompleted :
    (∃ (a : Agent) (n : Fin 256) (v : Nat) (s : State),
      s.reaches a .IC_VI_NOTICE n ∧ s.quiet ∧ s.noticeState n = .pending ∧
      F.IC_VI_NOTICE_ENABLE.of (v % 2 ^ 32) = 1 ∧ F.IC_VI_NOTICE_VECTOR.of (v % 2 ^ 32) < s.fld F.VI_MSIX_COUNT n) ∧
    (∃ (a : Agent) (n : Fin 256) (v : Nat) (s : State),
      s.reaches a .IC_VI_EOI n ∧ s.quiet ∧ s.noticeState n = .active ∧ F.IC_VI_EOI_DONE.of (v % 2 ^ 32) = 1) := by
  refine ⟨⟨.mgt, 41, 0x80000003, (opened (notice (up.setNotice 41 .pending))), ?_⟩,
    ⟨.mgt, 41, 1, (up.setNotice 41 .active), ?_⟩⟩
  all_goals repeat' apply And.intro
  all_goals decide +kernel

end O14

/-! ## Witnesses of the statements of chapter 15a -/

namespace O15a

/-- Every port has the role link; port 63 is as given. -/
def link (t : Nat) (f : Port → Port) : State := ((upAt t).onPart fun p => { p with
  profile := { p.profile with portRole := List.replicate 64 1 } }).onPort 63 fun x => f { x with role := 1, credits := List.replicate 9 100 }

/-- An ACTIVE port on all lanes. -/
def live (t : Nat) (f : Port → Port) : State := (link t fun x => f { x with
  state := .active, working := 15, agreed := 15, fresh := false }).setReg .CLZ_PORT_CTRL 63 0 0x80000000

def hdr0 : FlitHdr := { ack := 0, seq := 0, a := (15, 0), b := (15, 0), kind := 2, cont := 0, ackv := false, win := false }

def peerInit (v lanes : Nat) : InitInfo := {
  version := v, caps := 7, device := 200, port := 3, role := 1, lanes := lanes, fresh := true, rxNext := 0
  credits := List.replicate 9 2048 }

def initFlit (v lanes : Nat) : List Nat := hdr0.encode (peerInit v lanes).encode

def at_ (f : Fld) (v : Nat) : Nat := v * 2 ^ f.lo

def ctrl : Nat := 0x80000000

theorem test_witness_PortsComeUp :
    (∃ (a : Agent) (p : Fin 64) (x : Nat) (s : State),
      s.reaches a .CLZ_PORT_CTRL p ∧ s.noWaiting ∧ (s.port p).state = .off ∧ (s.port p).queues = [] ∧
      (s.port p).flows = [] ∧ s.fld F.CLZ_PORT_CTRL_ENABLE p = 0 ∧ s.plainPortWrite p x) ∧
    (∃ (p : Fin 64) (s : State),
      (s.port p).state = .detect ∧ s.lanesUsable p ≠ 0 ∧ s.noWaiting) ∧
    (∃ (p : Fin 64) (s : State),
      s.lanesUsable p = 0) ∧
    (∃ (p : Fin 64) (s : State),
      (s.port p).state = .train ∧ s.noWaiting) ∧
    (∃ (p : Fin 64) (s : State),
      (s.port p).state = .lock ∧ s.lanesUsable p ≠ 0 ∧ s.noWaiting ∧ s.noShots) ∧
    (∃ (p : Fin 64) (s : State),
      (s.port p).state = .train ∧ 500000000 ≤ s.time.tick - (s.port p).since ∧ s.noWaiting ∧
      (s.port p).queues = [] ∧ (s.port p).flows = [] ∧ (s.port p).laneFails = []) ∧
    (∃ (p : Fin 64) (s : State),
      (s.port p).state = .train ∧ s.time.tick - (s.port p).since < 500000000) ∧
    (∃ (p : Fin 64) (f : List Nat) (h : FlitHdr) (s : State),
      (s.port p).state = .init ∧ s.noShots ∧ flitHdr? f = some h ∧ h.kind = 2 ∧
      (InitInfo.decode (flitPayload f)).version = 1 ∧ (s.port p).initCount < 3) ∧
    (∃ (p : Fin 64) (f : List Nat) (h : FlitHdr) (s : State),
      (s.port p).state = .init ∧ s.noShots ∧ flitHdr? f = some h ∧ h.kind = 2 ∧
      (InitInfo.decode (flitPayload f)).version = 1 ∧
      (s.port p).lastInit = some (InitInfo.decode (flitPayload f)) ∧ (s.port p).initCount = 3 ∧ s.noWaiting ∧
      (s.port p).agreed = 0 ∧ (s.port p).peer = none ∧ (s.port p).unacked = [] ∧ s.sync.landings = [] ∧
      (s.port p).fresh = true ∧ (List.range 16).all (fun w => !s.winArmed p w) ∧
      lanesUsed ((s.port p).working &&& (InitInfo.decode (flitPayload f)).lanes) ≠ 0) ∧
    (∃ (p : Fin 64) (f : List Nat) (h : FlitHdr) (s : State),
      (s.port p).state = .init ∧ s.noShots ∧ flitHdr? f = some h ∧ h.kind = 2 ∧
      (InitInfo.decode (flitPayload f)).version ≠ 1 ∧ s.noWaiting ∧ (s.port p).queues = [] ∧
      (s.port p).flows = [] ∧ (s.port p).full = false ∧ (s.port p).badVersion = none) ∧
    (∃ (a : Agent) (p : Fin 64) (x : Nat) (s : State),
      s.reaches a .CLZ_PORT_CTRL p ∧ s.noWaiting ∧ (s.port p).state = .active ∧ F.CLZ_PORT_CTRL_ENABLE.of x = 1 ∧
      s.fld F.CLZ_PORT_CTRL_ENABLE p = 1 ∧ F.CLZ_PORT_CTRL_RETIRE.of x = 0 ∧
      F.CLZ_PORT_CTRL_LANE_OFF.of x = s.fld F.CLZ_PORT_CTRL_LANE_OFF p) ∧
    (∃ (a : Agent) (p : Fin 64) (x : Nat) (s : State),
      s.reaches a .CLZ_PORT_CTRL p ∧ s.noWaiting ∧ (s.port p).state = .active ∧ F.CLZ_PORT_CTRL_ENABLE.of x = 1 ∧
      s.fld F.CLZ_PORT_CTRL_ENABLE p = 1 ∧ F.CLZ_PORT_CTRL_RETRAIN.of x = 0 ∧ F.CLZ_PORT_CTRL_RETIRE.of x = 0 ∧
      F.CLZ_PORT_CTRL_LANE_OFF.of x ≠ s.fld F.CLZ_PORT_CTRL_LANE_OFF p) ∧
    (∃ (p : Fin 64) (l : Fin 4) (s : State),
      (s.port p).state = .active ∧ bit (lanesUsed (s.port p).agreed) l = 1 ∧ s.noWaiting) ∧
    (∃ (p : Fin 64) (s : State),
      (s.port p).state = .off) ∧
    (∃ (a : Agent) (p : Fin 64) (x : Nat) (s : State),
      s.reaches a .CLZ_PORT_CTRL p ∧ (s.port p).state = .active ∧ F.CLZ_PORT_CTRL_ENABLE.of x = 1 ∧
      F.CLZ_PORT_CTRL_RETRAIN.of x = 0 ∧ F.CLZ_PORT_CTRL_LANE_OFF.of x = s.fld F.CLZ_PORT_CTRL_LANE_OFF p ∧
      s.retired (portChannel p) = false) := by
  refine ⟨⟨.mgt, 63, ctrl, (link 7 id), ?_⟩,
    ⟨63, (link 7 fun x => { x with state := .detect }), ?_⟩,
    ⟨63, ((link 7 fun x => { x with state := .detect }).setReg .CLZ_PORT_CTRL 63 0 (ctrl + at_ F.CLZ_PORT_CTRL_LANE_OFF 15)), ?_⟩,
    ⟨63, (link 7 fun x => { x with state := .train }), ?_⟩,
    ⟨63, (link 7 fun x => { x with state := .lock }), ?_⟩,
    ⟨63, (link 500000005 fun x => { x with state := .train, since := 5 }), ?_⟩,
    ⟨63, (link 500000004 fun x => { x with state := .train, since := 5 }), ?_⟩,
    ⟨63, (initFlit 1 15), hdr0, (link 7 fun x => { x with state := .init, working := 15 }), ?_⟩,
    ⟨63, (initFlit 1 3), hdr0, (link 7 fun x => { x with state := .init, working := 15, lastInit := some (InitInfo.decode (flitPayload (initFlit 1 3))), initCount := 3 }), ?_⟩,
    ⟨63, (initFlit 0 15), hdr0, (link 7 fun x => { x with state := .init, working := 15 }), ?_⟩,
    ⟨.mgt, 63, (ctrl + at_ F.CLZ_PORT_CTRL_RETRAIN 1), (live 7 id), ?_⟩,
    ⟨.mgt, 63, (ctrl + at_ F.CLZ_PORT_CTRL_LANE_OFF 8), (live 7 id), ?_⟩,
    ⟨63, 3, (live 7 id), ?_⟩,
    ⟨63, (link 7 id), ?_⟩,
    ⟨.mgt, 63, (ctrl + at_ F.CLZ_PORT_CTRL_RETIRE 1), (live 7 id), ?_⟩⟩
  all_goals repeat' apply And.intro
  all_goals decide +kernel

end O15a

/-! ## Witnesses of the statements of chapter 15b -/

namespace O15b

/-- Port 63 is ACTIVE with the role link. -/
def live (t : Nat) (f : Port → Port) : State := ((upAt t).onPart fun p => { p with
  profile := { p.profile with portRole := List.replicate 64 1 } }).onPort 63 fun x => f { x with
    role := 1, credits := List.replicate 9 100, state := .active, working := 15, agreed := 15, fresh := false }

def hdr (k seq ack : Nat) (v : Bool) : FlitHdr :=
  { ack := ack, seq := seq, a := (15, 0), b := (15, 0), kind := k, cont := 0, ackv := v, win := false }

def data (seq : Nat) : FlitHdr := hdr 1 seq 0 false

def readHdr : LongHdr := {
  vc := 2, bytes := 128, flow := 0, hops := 0, dst := 0, src := 200, job := 0, counter := 0, addr := 4096, poison := 0
  afmt := 0, aop := 0, agent := 0, cls := 0, status := 0, volatile := false, resend := false, pseq := 9 }

def ackMsg (n : Nat) : LinkMsg := .ack 4 0 0 0 200 n

def sent (seq : Nat) (first : Option Nat) : TxFlit :=
  { seq := seq, slots := (ackMsg seq).encode, cont := 0, win := false, firstResend := first }

theorem test_witness_FlitsAndReplay :
    (∃ (p : Fin 64) (f : List Nat) (h : FlitHdr) (s : State),
      (s.port p).state = .active ∧ s.noShots ∧ tget 0 s.inj.portDiscard p ≤ s.time.tick ∧ flitHdr? f = some h ∧
      h.kind = 1 ∧ h.seq = (s.port p).rxNext) ∧
    (∃ (p : Fin 64) (f : List Nat) (h : FlitHdr) (r : LongHdr) (s : State),
      (s.port p).state = .active ∧ s.noShots ∧ (s.port p).role = 1 ∧ tget 0 s.inj.portDiscard p ≤ s.time.tick ∧
      flitHdr? f = some h ∧ h.kind = 1 ∧ h.seq = (s.port p).rxNext ∧ h.cont = 0 ∧
      LinkMsg.decode ((flitPayload f).take 32) = some (.readReq r) ∧ r.dst = s.deviceId ∧
      (∀ b, b ∈ (flitPayload f).drop 32 → b = 0)) ∧
    (∃ (p : Fin 64) (f : List Nat) (h : FlitHdr) (s : State),
      (s.port p).state = .active ∧ s.noShots ∧ tget 0 s.inj.portDiscard p ≤ s.time.tick ∧ flitHdr? f = some h ∧
      h.kind = 1 ∧ h.seq ≠ (s.port p).rxNext) ∧
    (∃ (p : Fin 64) (f : List Nat) (fec : Bool) (s : State),
      (s.port p).state = .active ∧ s.noShots ∧ (flitHdr? f = none ∨ fec = true)) ∧
    (∃ (p : Fin 64) (f : List Nat) (h : FlitHdr) (s : State),
      (s.port p).state = .active ∧ s.noShots ∧ flitHdr? f = some h ∧ h.kind = 0 ∧ h.ackv = true ∧ h.a.1 = 15 ∧
      h.b.1 < 9) ∧
    (∃ (p : Fin 64) (f : List Nat) (h : FlitHdr) (s : State),
      (s.port p).state = .active ∧ s.noShots ∧ flitHdr? f = some h ∧ h.kind = 3 ∧ h.ackv = false ∧
      (s.port p).unacked ≠ []) ∧
    (∃ (p : Fin 64) (s : State),
      (s.port p).state = .active ∧ 2000 ≤ s.time.tick - (s.port p).progress ∧ (s.port p).unacked ≠ []) ∧
    (∃ (p : Fin 64) (s : State),
      s.time.tick - (s.port p).progress < 2000) ∧
    (∃ (p : Fin 64) (n : Nat) (s : State),
      (s.port p).state = .active ∧ (s.port p).nakAt = some n ∧ 1000 ≤ s.time.tick - n) ∧
    (∃ (p : Fin 64) (s : State),
      (s.port p).nakAt = none) ∧
    (∃ (p : Fin 64) (t : TxFlit) (n : Nat) (s : State),
      (s.port p).state = .active ∧ t ∈ (s.port p).unacked ∧ t.firstResend = some n ∧ 20000 ≤ s.time.tick - n ∧
      s.noWaiting ∧ s.retired (portChannel p) = false) ∧
    (∃ (p : Fin 64) (s : State),
      (s.port p).state = .active ∧ (∀ t, t ∈ (s.port p).unacked → t.firstResend = none)) ∧
    (∃ (p : Fin 64) (vc : Nat) (m : LinkMsg) (rest : List LinkMsg) (s : State),
      (s.port p).state = .active ∧ s.pickMessage p = some (.queue vc) ∧ tget [] (s.port p).queues vc = m :: rest ∧
      m.slots ≤ 15 ∧ m.mtype < 9 ∧ (s.port p).unacked.length < 4096) ∧
    (∃ (p : Fin 64) (s : State),
      (s.port p).covered 7 = false ∧ (s.port p).covered 6 = true) ∧
    (∃ (p : Fin 64) (s : State),
      s.pickMessage p = none) := by
  refine ⟨⟨63, ((data 65535).encode (ackMsg 5).encode), (data 65535), (live 7 fun x => { x with rxNext := 65535, nakAt := some 3 }), ?_⟩,
    ⟨63, ((data 0).encode (LinkMsg.readReq readHdr).encode), (data 0), readHdr, (live 7 id), ?_⟩,
    ⟨63, ((data 65535).encode (ackMsg 5).encode), (data 65535), (live 7 fun x => { x with rxNext := 0, rxAny := true }), ?_⟩,
    ⟨63, [1, 2], false, (live 7 id), ?_⟩,
    ⟨63, ({ hdr 0 0 65535 true with b := (8, 4095) }.encode []), { hdr 0 0 65535 true with b := (8, 4095) }, (live 7 fun x => { x with unacked := [sent 65534 none, sent 65535 none, sent 0 none] }), ?_⟩,
    ⟨63, ((hdr 3 0 0 false).encode []), (hdr 3 0 0 false), (live 7 fun x => { x with unacked := [sent 65535 none, sent 0 (some 3)] }), ?_⟩,
    ⟨63, (live 2007 fun x => { x with progress := 7, unacked := [sent 65535 none, sent 0 (some 3)] }), ?_⟩,
    ⟨63, (live 2006 fun x => { x with progress := 7, unacked := [sent 65535 none] }), ?_⟩,
    ⟨63, 7, (live 1007 fun x => { x with nakAt := some 7 }), ?_⟩,
    ⟨63, (live 1007 id), ?_⟩,
    ⟨63, (sent 0 (some 7)), 7, (live 20007 fun x => { x with unacked := [sent 65535 none, sent 0 (some 7)] }), ?_⟩,
    ⟨63, (live 20007 fun x => { x with unacked := [sent 65535 none] }), ?_⟩,
    ⟨63, 4, (ackMsg 5), [ackMsg 6], (live 7 fun x => { x with txSeq := 65535, queues := [(4, [ackMsg 5, ackMsg 6])] }), ?_⟩,
    ⟨63, (live 7 fun x => { x with queues := [(4, [ackMsg 5, ackMsg 6]), (6, [.ascent 1 false 3 500])] }), ?_⟩,
    ⟨63, (live 7 fun x => { x with credits := [], queues := [(4, [ackMsg 5])] }), ?_⟩⟩
  all_goals repeat' apply And.intro
  all_goals decide +kernel

end O15b

/-! ## Witnesses of the statements of chapter 15c -/

namespace O15c

/-- Port 63 is ACTIVE with the role link. -/
def live (t : Nat) (f : Port → Port) : State := ((upAt t).onPart fun p => { p with
  profile := { p.profile with portRole := List.replicate 64 1 } }).onPort 63 fun x => f { x with
    role := 1, credits := List.replicate 9 100, state := .active, working := 15, agreed := 15, fresh := false }

/-- Every message leaves by port 63. -/
def routed (s : State) : State :=
  ((s.setReg .CLZ_EXC_MATCH 0 0 0x80000000).setReg .CLZ_EXC_PORTS_HI 0 0 0x80000000)

def readHdr (b : Nat) : LongHdr := {
  vc := 2, bytes := b, flow := 0, hops := 0, dst := 0, src := 200, job := 0, counter := 0
  addr := 2 ^ 44 + 7 * 2 ^ 26 + 4096, poison := 0, afmt := 0, aop := 0, agent := 0, cls := 0, status := 0
  volatile := false, resend := false, pseq := 9 }

def gAlloc : Alloc := {
  vi := 5, space := .g, base := 7 * 2 ^ 26 + 4096, size := 256, hall := 7, kind := 0, half := 0, attr := 1, region := none
  mapping := false, unmapping := false }

def asked (b : Nat) : State := ((routed (live 7 id)).onMem fun m => { m with
  readReqs := [.readReq (readHdr b)], g := [⟨7 * 2 ^ 26 + 4097, 8⟩], gPoison := [(7 * 2 ^ 20 + 64, true)] }).onPart fun p => { p with allocs := [gAlloc] }

def packet : Packet := { idx := 3, src := gaMake 200 1 0, dst := gaMake 0 1 4096, len := 128, data := none, poison := 0, sent := false, acked := false, pseq := some 9 }

def pull : CopyJob := {
  id := 12, origin := .alcove 40 3, started := true, vi := 0, part := none, launch := none, error := 0, poison := false
  cause := 0, sharedPoison := none, before := [], packets := [packet]
  req := { w0 := gaMake 200 1 0, w1 := gaMake 0 1 4096, w2 := 128, w3 := 2 ^ 48 } }

def waits : Unanswered := { agent := 0, pseq := 9, copy := some 12, packet := 3, msg := .readReq (readHdr 128), lastSend := 1, firstResend := none }

def answered : State := (live 7 id).onMem fun m => { m with
  readCpls := [.readCpl (readHdr 128) (List.replicate 128 5)], unanswered := [waits]
  engines := [(63, { CopyEngine.reset with running := some pull })] }

def blocked : Ingress := { msg := .readReq (readHdr 64), vc := 2, since := 7, own := true, win := false }

def peer : InitInfo := { version := 1, caps := 4, device := 200, port := 3, role := 1, lanes := 15, fresh := true, rxNext := 0, credits := [] }

/-- Window 3 of port 63 takes 100 of each 1000 treads from 200 on; window 15 stands armed at 300 to 399. -/
def windows (t base : Nat) (s15 : Nat) (f : Port → Port) : State :=
  (((((((live t fun x => f { x with peer := some peer }).setReg .CLZ_WIN_PERIOD 63 0 1000).setReg .CLZ_WIN_OFFSET 63 3 200).setReg
    .CLZ_WIN_LEN 63 3 100).setReg .CLZ_WIN_OFFSET 63 15 s15).setReg .CLZ_WIN_LEN 63 15 100).setReg .CLZ_WIN_CFG 63 15 (0x80000000 + 2 ^ 29 + 2 ^ 16)).setReg .CLZ_WIN_BASE_LO 63 0 base
def armed3 (s : State) : State := s.setReg .CLZ_WIN_CFG 63 3 (0x80000000 + 2 ^ 29 + 2 ^ 16)

theorem test_witness_LinkTraffic :
    (∃ (i v q : Nat) (h : LongHdr) (s : State),
      let ga := gaMake s.deviceId 0 0 + h.addr
      let a := gByte (gaOffset ga)
      let answer : LinkMsg := .readCpl { h with
            vc := 4, flow := 0, hops := 0, dst := h.src, src := s.deviceId, counter := 0
            poison := partMask (unitMarks s.mem.gPoison 64 a h.bytes), bytes := h.bytes, status := 0, volatile := false
            resend := false } (loadBytes s.mem.g a h.bytes)
      s.mem.readReqs[i]? = some (.readReq h) ∧ gaSpace ga = spaceG ∧ s.remoteTarget ga h.bytes 0 = some v ∧
      addressFields ga = true ∧ s.namesMemory ga h.bytes = true ∧ s.jobOk v h.job = true ∧ s.noShots ∧
      s.routePort answer = some q) ∧
    (∃ (i q : Nat) (h : LongHdr) (s : State),
      let ga := gaMake s.deviceId 0 0 + h.addr
      let answer : LinkMsg := .readCpl { h with
            vc := 4, flow := 0, hops := 0, dst := h.src, src := s.deviceId, counter := 0, poison := 0, bytes := 0
            status := statusRefused, volatile := false, resend := false } []
      s.mem.readReqs[i]? = some (.readReq h) ∧ gaSpace ga = spaceG ∧ s.remoteTarget ga h.bytes 0 = none ∧
      s.routePort answer = some q) ∧
    (∃ (i e id : Nat) (h : LongHdr) (data : List Nat) (x : Unanswered) (j : CopyJob) (p : Packet) (s : State),
      s.mem.readCpls[i]? = some (.readCpl h data) ∧ h.status = 0 ∧
      s.mem.unanswered.find? (fun u => u.agent == h.agent && u.pseq == h.pseq) = some x ∧ x.copy = some id ∧
      x.packet = p.idx ∧ tget 0 s.inj.answerDrop id = 0 ∧ e < 64 ∧
      s.mem.engines.find? (fun y => y.2.holds id) = some (e, s.engine e) ∧ (s.engine e).running = some j ∧
      j.id = id ∧ (s.engine e).queue = [] ∧ j.error = 0 ∧ j.req.kind = kindCopy ∧ j.packets = [p] ∧
      p.sent = false ∧ p.data = none ∧ gaDevice p.dst = s.deviceId ∧ gaDevice j.req.w0 ≠ s.deviceId ∧ s.noShots) ∧
    (∃ (i : Nat) (h : LongHdr) (data : List Nat) (s : State),
      s.mem.readCpls[i]? = some (.readCpl h data) ∧
      s.mem.unanswered.find? (fun u => u.agent == h.agent && u.pseq == h.pseq) = none) ∧
    (∃ (p : Fin 64) (w : Ingress) (s : State),
      (s.port p).ingress = [w] ∧ w.own = true ∧ 20000 ≤ s.time.tick - w.since) ∧
    (∃ (p : Fin 64) (s : State),
      (∀ w, w ∈ (s.port p).ingress → s.time.tick - w.since < 20000)) ∧
    (∃ (a : Agent) (p : Fin 64) (w : Fin 16) (s : State),
      s.reaches a .CLZ_WIN_CFG p w ∧ (s.port p).flows = [] ∧ (s.port p).openWindow = none ∧ s.portWidth p ≠ 0) ∧
    (∃ (p : Fin 64) (w : Fin 16) (s : State),
      (s.port p).state = .active ∧ s.winArmed p w = true ∧ s.inSpan p w = true) ∧
    (∃ (p : Fin 64) (w : Fin 16) (s : State),
      (s.winArmed p w = false ∨ s.inSpan p w = false)) ∧
    (∃ (p : Fin 64) (w : Nat) (s : State),
      (s.port p).openWindow = some w ∧ s.inSpan p w = false) ∧
    (∃ (p : Fin 64) (w : Nat) (s : State),
      (s.port p).openWindow = some w ∧ s.inSpan p w = true) := by
  refine ⟨⟨0, 5, 63, (readHdr 128), (asked 128), ?_⟩,
    ⟨0, 63, (readHdr 64), ((asked 64).onPart fun p => { p with allocs := [] }), ?_⟩,
    ⟨0, 63, 12, (readHdr 128), (List.replicate 128 5), waits, pull, packet, answered, ?_⟩,
    ⟨0, (readHdr 128), [5], ((live 7 id).onMem fun m => { m with readCpls := [.readCpl (readHdr 128) [5]] }), ?_⟩,
    ⟨63, blocked, (live 20007 fun x => { x with ingress := [blocked] }), ?_⟩,
    ⟨63, (live 20006 fun x => { x with ingress := [blocked] }), ?_⟩,
    ⟨.mgt, 63, 3, (windows 7 0 300 id), ?_⟩,
    ⟨63, 3, (armed3 (windows 299 0 300 id)), ?_⟩,
    ⟨63, 3, (armed3 (windows 300 0 300 id)), ?_⟩,
    ⟨63, 3, (armed3 (windows 300 0 300 fun x => { x with openWindow := some 3 })), ?_⟩,
    ⟨63, 3, (armed3 (windows 299 0 300 fun x => { x with openWindow := some 3 })), ?_⟩⟩
  all_goals repeat' apply And.intro
  all_goals decide +kernel

theorem test_witness_FlitsRoundTrip :
    (∃ (h : FlitHdr) (payload : List Nat),
      h.fits ∧ payload.length ≤ 240 ∧ (∀ b, b ∈ payload → b < 256)) ∧
    (∃ (m : LinkMsg),
      m.fits) ∧
    (∃ (i : InitInfo),
      i.fits) := by
  refine ⟨⟨{ ack := 65535, seq := 65535, a := (8, 4095), b := (15, 0), kind := 3, cont := 15, ackv := true, win := true }, [1, 255], ?_⟩,
    ⟨(.readCpl { readHdr 100 with dst := 2 ^ 17 - 1, addr := 2 ^ 47 - 1, vc := 7, hops := 255, cls := 3, volatile := true, resend := true, pseq := 2 ^ 32 - 1 } (List.replicate 100 255)), ?_⟩,
    ⟨{ version := 65535, caps := 65535, device := 2 ^ 17 - 1, port := 255, role := 255, lanes := 15, fresh := true, rxNext := 65535, credits := List.replicate 9 65535 }, ?_⟩⟩
  all_goals repeat' apply And.intro
  all_goals decide +kernel

end O15c

/-! ## Witnesses of the statements of chapter 16 -/

namespace O16

def vfs : State := (up.onPart fun p => { p with vfEnable := true, numVfs := 255 }).onBoot fun b =>
  { b with record := { b.record with state := 2 } }

/-- Management works and PCIe may train. -/
def managed : State := State.reset.onBoot fun b => { b with step := 6 }

def img : Image := { component := 1, stepping := 0xB0, version := 7, svn := 3, bytes := 100, signed := true, compat := [], bundles := [], data := [1, 2] }

def updating (n : Nat) : State := managed.onHost fun h => { h with update := n }

def msixUp : State := ((up.setFld F.VI_MSIX_BASE 64 3).setFld F.VI_MSIX_COUNT 8 3).onHost fun h =>
  { h with
    msix := [(66, { addr := 0xFEE00000, data := 5, mask := true, pending := true })]
    funcs := [(3, some { FuncCtl.reset 3 with msixEnable := true })] }

theorem test_witness_HostReaches :
    (∃ (v : Fin 256) (off len : Nat) (s : State),
      s.barOpen v = true ∧ s.bar4Access v off len false = none ∧ s.fld F.PCI_BAR_ERR_VALID = 0) ∧
    (∃ (v : Fin 256) (off len a : Nat) (s : State),
      s.barOpen v = true ∧ s.bar4Access v off len false = some (spaceG, a) ∧ s.noShots) ∧
    (∃ (v : Fin 256) (off : Nat) (b : List Nat) (a : Nat) (s : State),
      s.barOpen v = true ∧ s.bar4Access v off b.length true = some (spaceG, a)) ∧
    (∃ (v : Fin 256) (off : Nat) (b : List Nat) (s : State),
      s.barOpen v = true ∧ s.bar4Access v off b.length true = none) ∧
    (∃ (v : Fin 256) (s : State),
      s.barOpen v = false) ∧
    (∃ (rate width : Nat) (s : State),
      s.mayTrain = true ∧ 1 ≤ rate ∧ rate ≤ 5 ∧ width ∈ [1, 2, 4, 8, 16]) ∧
    (∃ (rate : Nat) (s : State),
      (s.mayTrain = false ∨ 6 ≤ rate)) ∧
    (∃ (s : State),
      s.host.linkUp = true) ∧
    (∃ (s : State),
      s.host.linkUp = false) ∧
    (∃ (n : Nat) (s : State),
      s.inService = true ∧ s.host.linkUp = true ∧ s.part.vfEnable = false ∧ s.boot.record.state ≠ 0 ∧ n ≤ 255) ∧
    (∃ (s : State),
      (s.boot.record.state = 0 ∨ s.host.linkUp = false)) ∧
    (∃ (s : State),
      s.part.vfEnable = true ∧ s.noArmed) ∧
    (∃ (s : State),
      s.part.vfEnable = false) ∧
    (∃ (v : Fin 256) (s : State),
      v.val ≠ 0 ∧ s.viEnabled v = true ∧ s.host.linkUp = true ∧ s.boot.step = 9 ∧ s.boot.resets = [] ∧
      s.queuesOf v = [] ∧ s.ownAllocs [v.val] = [] ∧ s.vst.pools = [] ∧ s.noArmed) ∧
    (∃ (v : Fin 256) (s : State),
      (v.val = 0 ∨ s.host.linkUp = false)) ∧
    (∃ (s : State),
      s.host.linkUp = true ∧ s.part.vfEnable = false ∧ s.boot.step = 9 ∧ s.boot.resets = [] ∧ s.queuesOf 0 = [] ∧
      s.ownAllocs [0] = [] ∧ s.vst.pools = [] ∧ s.noArmed) ∧
    (∃ (v : Fin 256) (i pv : Nat) (s : State),
      s.msixVector v i = some pv) ∧
    (∃ (v : Fin 256) (s : State),
      s.barOpen v = true) := by
  refine ⟨⟨0, 0, 0, up, ?_⟩,
    ⟨0, (2 ^ 39 - 2 ^ 30), 8, 0, up, ?_⟩,
    ⟨0, (2 ^ 39 - 2 ^ 30 + 60), ([7, 300, 9] ++ List.replicate 70 5), 60, up, ?_⟩,
    ⟨0, 0, [], up, ?_⟩,
    ⟨41, up, ?_⟩,
    ⟨5, 16, managed, ?_⟩,
    ⟨6, managed, ?_⟩,
    ⟨up, ?_⟩,
    ⟨State.reset, ?_⟩,
    ⟨255, (up.onBoot fun b => { b with record := { b.record with state := 1 } }), ?_⟩,
    ⟨(up.onBoot fun b => { b with record := { b.record with state := 0 } }), ?_⟩,
    ⟨(vfs.onHost fun h => { h with funcs := [(3, some { FuncCtl.reset 3 with msixEnable := true })] }), ?_⟩,
    ⟨up, ?_⟩,
    ⟨255, vfs, ?_⟩,
    ⟨0, up, ?_⟩,
    ⟨(up.onHost fun h => { h with funcs := [(0, some { FuncCtl.reset 0 with msixEnable := true })] }), ?_⟩,
    ⟨3, 2, 66, msixUp, ?_⟩,
    ⟨3, (vfs.onHost fun h => { h with translations := [{ func := 3, pasid := some 9, page := 103 }, { func := 3, pasid := none, page := 103 }] }), ?_⟩⟩
  all_goals repeat' apply And.intro
  all_goals decide +kernel

theorem test_witness_ManagementAnswers :
    (∃ (e : Nat) (s : State),
      s.mgtUp = true ∧ 8 ≤ e ∧ e < 255) ∧
    (∃ (e : Nat) (s : State),
      s.mgtUp = true ∧ (e < 8 ∨ 255 ≤ e)) ∧
    (∃ (s : State),
      s.mgtUp = true) ∧
    (∃ (s : State),
      s.mgtUp = true) ∧
    (∃ (s : State),
      s.mgtUp = false) ∧
    (∃ (s : State),
      s.mgtUp = true ∧ s.host.update = 0) ∧
    (∃ (s : State),
      s.mgtUp = true ∧ s.host.update ≠ 0) ∧
    (∃ (s : State),
      s.mgtUp = true ∧ (s.host.update = 1 ∨ s.host.update = 2) ∧ s.host.component = none) ∧
    (∃ (s : State),
      s.mgtUp = true ∧ s.host.update = 0) ∧
    (∃ (x : Image) (s : State),
      s.host.component = some (.pmc x) ∧ s.host.update = 4) ∧
    (∃ (s : State),
      s.mgtUp = true ∧ s.host.component = none) ∧
    (∃ (s : State),
      s.mgtUp = true ∧ s.host.update = 2 ∧ s.host.component = none) ∧
    (∃ (x : Image) (bank : Nat) (s : State),
      s.host.flashQueue = [.component (.pmc x) bank] ∧ s.updateMayWrite = true) ∧
    (∃ (i x : Nat) (rest : List FlashOp) (s : State),
      s.host.flashQueue = .retiredPage false i x :: rest) ∧
    (∃ (x : Image) (bank : Nat) (s : State),
      s.host.flashQueue = [.component (.pmc x) bank] ∧ s.updateMayWrite = true) ∧
    (∃ (s : State),
      s.host.flashQueue = []) := by
  refine ⟨⟨254, managed, ?_⟩,
    ⟨7, managed, ?_⟩,
    ⟨managed, ?_⟩,
    ⟨managed, ?_⟩,
    ⟨State.reset, ?_⟩,
    ⟨managed, ?_⟩,
    ⟨(updating 2), ?_⟩,
    ⟨(updating 1), ?_⟩,
    ⟨managed, ?_⟩,
    ⟨img, ((updating 4).onHost fun h => { h with component := some (.pmc img) }), ?_⟩,
    ⟨(updating 2), ?_⟩,
    ⟨((updating 2).onHost fun h => { h with applied := [1, 2] }), ?_⟩,
    ⟨img, 1, ((updating 5).onHost fun h => { h with flashQueue := [.component (.pmc img) 1], component := some (.pmc img) }), ?_⟩,
    ⟨3, 77, [.component (.pmc img) 1], ((updating 5).onHost fun h => { h with flashQueue := [.retiredPage false 3 77, .component (.pmc img) 1] }), ?_⟩,
    ⟨img, 1, ((updating 5).onHost fun h => { h with flashQueue := [.component (.pmc img) 1], component := some (.pmc img) }), ?_⟩,
    ⟨managed, ?_⟩⟩
  all_goals repeat' apply And.intro
  all_goals decide +kernel

end O16

/-! ## Witnesses of the statements of chapter 17 -/

namespace O17

/-- Buckets of bridge lanes have a limit and weights. -/
def charges : State := (up.setReg .RAS_THRESH_A 0 7 (10 * 65536 + 40)).setReg .RAS_THRESH_B 0 7 (1 * 2 ^ 24 + 50 * 65536 + 20 * 256 + 3)

def rec : RasRecord := { RasRecord.blank with recordId := 9, kind := 3, detector := 2, channel := 5, signature := [1, 300, 2] }

def owed1 (ch : Nat) : OwedRetire :=
  { channel := ch, since := 3, hard := false, commanded := true, rootId := 0, detector := 0, injected := false }

def owes (ch : Nat) : State := (upAt 500).onRas fun r => { r with owed := [owed1 ch] }

/-- A route leads from this device over port 3 to device 4. -/
def linked : State :=
  (((upAt 300000).setReg .CLZ_EXC_MATCH 0 0 0x80000004).setReg .CLZ_EXC_PORTS_LO 0 0 8).setReg .CLZ_EXC_MASK 0 0 0x1FFFF
    |>.setPort 3 { Port.reset with state := .active, role := 1 }

def remote (t : Option Nat) : Unanswered := {
  agent := 5, pseq := 70, copy := some 12, packet := 0, lastSend := 1000, firstResend := t
  msg := .readReq { vc := 0, bytes := 64, flow := 0, hops := 0, dst := 4, src := 0, job := 0, counter := 0, addr := 4096
                    poison := 0, afmt := 0, aop := 0, agent := 5, cls := 0, status := 0, volatile := false
                    resend := false, pseq := 70 } }

def job : CopyJob := {
  id := 12, origin := .alcove 40 3, started := true, vi := 0, part := none, launch := none, error := 0, poison := false
  cause := 0, sharedPoison := none, before := []
  req := { w0 := 4 * 2 ^ 47, w1 := 2 ^ 40, w2 := 0, w3 := 0 }
  packets := [{ idx := 0, src := 4 * 2 ^ 47, dst := 2 ^ 40, len := 64, data := none, poison := 0, sent := false
                acked := false, pseq := some 70 }] }

def awaiting (t : Option Nat) : State := linked.onMem fun m => { m with
  unanswered := [remote t], engines := [(5, { CopyEngine.reset with running := some job })] }

theorem test_witness_DetectorsCharge :
    (∃ (kind : Fin 9) (s : State),
      s.reg .RAS_THRESH_C 0 kind ≠ 0 ∧
      s.reg .RAS_THRESH_C 0 kind * 1000000 ≤ s.time.tick - tget 0 s.ras.leakAt kind) ∧
    (∃ (kind : Fin 9) (s : State),
      s.time.tick - tget 0 s.ras.leakAt kind < s.reg .RAS_THRESH_C 0 kind * 1000000) ∧
    (∃ (lane : Fin 288) (s : State),
      s.retired (channelId 7 lane) = false ∧ s.ras.folds = []) ∧
    (∃ (lane : Fin 288) (s : State),
      s.retired (channelId 7 lane) = false ∧ s.ras.folds = []) ∧
    (∃ (n : Fin 256) (s : State),
      s.retired (channelId 4 n) = false) ∧
    (∃ (n : Fin 256) (s : State),
      s.retired (channelId 4 n) = true) ∧
    (∃ (r : RasRecord) (rest : List RasRecord) (s : State),
      s.ras.unstored = r :: rest ∧ s.ras.nextSlot < storeSlots ∧
      (∀ x, tget none s.ras.store s.ras.nextSlot = some x → x.kind ≠ kindRetired)) ∧
    (∃ (s : State),
      s.ras.unstored = []) ∧
    (∃ (a : Agent) (id : Nat) (r : RasRecord) (s : State),
      s.reaches a .RAS_REC_CMD ∧ s.quiet ∧ 0 < id ∧ id < 2 ^ 32 ∧
      (s.ras.store.filterMap (·.2)).find? (fun x => x.recordId == id) = some r) ∧
    (∃ (a : Agent) (id : Nat) (s : State),
      s.reaches a .RAS_REC_CMD ∧ s.quiet ∧ 0 < id ∧ id < 2 ^ 32 ∧
      (s.ras.store.filterMap (·.2)).find? (fun x => x.recordId == id) = none) ∧
    (∃ (a : Agent) (x : Nat) (s : State),
      s.reaches a .RAS_RETIRE ∧ s.quiet ∧ x < 2 ^ 32) := by
  refine ⟨⟨7, (((upAt 1000000).setReg .RAS_THRESH_C 0 7 1).setFld F.RAS_BUCKET_LEVEL 5 0 (channelId 7 287)), ?_⟩,
    ⟨7, ((upAt 999999).setReg .RAS_THRESH_C 0 7 1), ?_⟩,
    ⟨287, charges, ?_⟩,
    ⟨0, charges, ?_⟩,
    ⟨255, up, ?_⟩,
    ⟨255, (up.setFld F.RAS_BUCKET_RETIRED 1 0 (channelId 4 255)), ?_⟩,
    ⟨rec, [rec], (up.onRas fun r => { r with unstored := [rec, rec], nextSlot := 16383, store := [(16383, some rec)] }), ?_⟩,
    ⟨up, ?_⟩,
    ⟨.mgt, 9, rec, (up.onRas fun r => { r with store := [(16383, some rec)] }), ?_⟩,
    ⟨(.hc 3), 8, (up.onRas fun r => { r with store := [(16383, some rec)] }), ?_⟩,
    ⟨.mgt, 0x4FFF, up, ?_⟩⟩
  all_goals repeat' apply And.intro
  all_goals decide +kernel

theorem test_witness_ChannelsRetire :
    (∃ (ch : Fin 65536) (s : State),
      (∀ o, o ∈ s.ras.owed → o.channel ≠ ch.val)) ∧
    (∃ (p : Fin 64) (o : OwedRetire) (ch : Fin 65536) (s : State),
      ch.val = channelId 1 p ∧ s.ras.owed.find? (fun y => y.channel == ch.val) = some o ∧ s.retired ch = false ∧
      s.boot.retireA.length < 1024 ∧ s.noArmed ∧ s.noWaiting ∧ (List.range 16).all (fun w => !s.winArmed p w) ∧
      (s.port p).queues = [] ∧ (s.port p).flows = [] ∧ (s.port p).state ≠ .retired) ∧
    (∃ (c : Fin 256) (o : OwedRetire) (ch : Fin 65536) (s : State),
      ch.val = channelId 3 c ∧ s.ras.owed.find? (fun y => y.channel == ch.val) = some o ∧ s.retired ch = false ∧
      s.boot.retireA.length < 1024 ∧ s.noArmed ∧ s.part.regions = [] ∧ s.fld F.TGEN_STATUS_STATE c ≠ 1) ∧
    (∃ (n : Fin 256) (o : OwedRetire) (ch : Fin 65536) (s : State),
      ch.val = channelId 4 n ∧ s.ras.owed.find? (fun y => y.channel == ch.val) = some o ∧ s.retired ch = false ∧
      s.boot.retireA.length < 1024 ∧ s.noArmed ∧ s.noScan ∧ (s.alcove n).grant = none) ∧
    (∃ (n : Fin 256) (k : Nat) (o : OwedRetire) (ch : Fin 65536) (s : State),
      k < 4 ∧ ch.val = channelId 5 (4 * n + k) ∧ s.ras.owed.find? (fun y => y.channel == ch.val) = some o ∧
      s.retired ch = false ∧ s.retired (channelId 4 n) = false ∧ s.boot.retireA.length < 1023 ∧ s.noArmed ∧
      s.noScan ∧ (s.alcove n).grant = none) ∧
    (∃ (e : Fin 64) (o : OwedRetire) (ch : Fin 65536) (s : State),
      ch.val = channelId 6 e ∧ s.ras.owed.find? (fun y => y.channel == ch.val) = some o ∧ s.retired ch = false ∧
      s.boot.retireA.length < 1024 ∧ s.noArmed ∧ s.noScan ∧ s.noShots ∧ s.engine e = .reset ∧
      (∀ x, x < 64 → (s.engine x).queue = [])) := by
  refine ⟨⟨7, up, ?_⟩,
    ⟨63, (owed1 (channelId 1 63)), 4159, (owes (channelId 1 63)), ?_⟩,
    ⟨255, (owed1 (channelId 3 255)), 12543, ((owes (channelId 3 255)).onHbm fun h => { h with writebacks := [sectorKey 255 3 1, sectorKey 254 3 1] }), ?_⟩,
    ⟨255, (owed1 (channelId 4 255)), 16639, ((owes (channelId 4 255)).setAlcove 255 { Alcove.reset with core := { Core.reset with state := .idle } }), ?_⟩,
    ⟨255, 3, (owed1 (channelId 5 1023)), 21503, ((owes (channelId 5 1023)).setAlcove 255 { Alcove.reset with core := { Core.reset with state := .idle } }), ?_⟩,
    ⟨63, (owed1 (channelId 6 63)), 24639, (owes (channelId 6 63)), ?_⟩⟩
  all_goals repeat' apply And.intro
  all_goals decide +kernel

theorem test_witness_RemoteRetries :
    (∃ (i q : Nat) (x : Unanswered) (s : State),
      s.mem.unanswered[i]? = some x ∧ 25000 ≤ s.time.tick - x.lastSend ∧
      (∀ t, x.firstResend = some t → s.time.tick - t < 200000) ∧ x.agent < 64 ∧
      s.routePort (x.msg.setHdr fun h => { h with resend := true, hops := 0 }) = some q ∧ x.msg.flow = 0 ∧
      (x.msg.setHdr fun h => { h with resend := true, hops := 0 }).hops < 63) ∧
    (∃ (i : Nat) (x : Unanswered) (s : State),
      s.mem.unanswered[i]? = some x ∧ s.time.tick - x.lastSend < 25000) ∧
    (∃ (i e id n tag t : Nat) (x : Unanswered) (j : CopyJob) (s : State),
      s.mem.unanswered[i]? = some x ∧ x.firstResend = some t ∧ 200000 ≤ s.time.tick - t ∧ x.copy = some id ∧
      s.mem.engines.find? (fun y => y.2.holds id) = some (e, s.engine e) ∧ (s.engine e).running = some j ∧
      j.id = id ∧ e < 64 ∧ j.origin = .alcove n tag ∧ (s.alcove n).grant = none ∧ tget 0 s.inj.answerDrop id = 0 ∧
      s.fld F.CE_ERROR_VALID e = 0) ∧
    (∃ (i : Nat) (x : Unanswered) (s : State),
      s.mem.unanswered[i]? = some x ∧ (∀ t, x.firstResend = some t → s.time.tick - t < 200000)) ∧
    (∃ (h : Fin 8) (i : Nat) (f : FilterEntry) (s : State),
      (s.filter h)[i]? = some f ∧ 512000 ≤ s.time.tick - f.lastTick) ∧
    (∃ (h : Fin 8) (i : Nat) (f : FilterEntry) (s : State),
      (s.filter h)[i]? = some f ∧ s.time.tick - f.lastTick < 512000) := by
  refine ⟨⟨0, 3, (remote none), (awaiting none), ?_⟩,
    ⟨0, { remote none with lastSend := 299000 }, ((awaiting none).onMem fun m => { m with unanswered := [{ remote none with lastSend := 299000 }] }), ?_⟩,
    ⟨0, 5, 12, 40, 3, 100000, (remote (some 100000)), job, (awaiting (some 100000)), ?_⟩,
    ⟨0, (remote (some 100001)), (awaiting (some 100001)), ?_⟩,
    ⟨7, 0, { srcDev := 4, srcAgent := 5, base := 0, map := 0, lastTick := 1000 }, ((upAt 513000).onRas fun r => { r with filters := [(7, [{ srcDev := 4, srcAgent := 5, base := 0, map := 0, lastTick := 1000 }])] }), ?_⟩,
    ⟨7, 0, { srcDev := 4, srcAgent := 5, base := 0, map := 0, lastTick := 1000 }, ((upAt 512999).onRas fun r => { r with filters := [(7, [{ srcDev := 4, srcAgent := 5, base := 0, map := 0, lastTick := 1000 }])] }), ?_⟩⟩
  all_goals repeat' apply And.intro
  all_goals decide +kernel

end O17

/-! ## Witnesses of the statements of chapter 18 -/

namespace O18

def shadow (h : Nat) (x : Shadow) (s : State) : State := s.onSdc fun d => { d with shadows := tset .reset d.shadows h x }

def testing : Shadow := { Shadow.reset with state := .selfTest, began := 7, planes := [3], tiles := [5] }

def diff0 : ShadowDiff := { unit := 3, tile := 7, row := 127, col := 127, count := 2, shadowVal := 1, alcoveVal := 2 }

/-- A legal header of a set with a 64-byte pattern. -/
def header (target focus packId hours : Nat) : List Nat :=
  padBytes 128 ([1, 0, focus, 0, packId, 0, 0, 0] ++ zeros 12 ++ [target, 0, 0xB0, 0, (if focus = 1 then 0 else 64), 0, 0, 0, hours, 0, 0, 0])

def setOf (target focus packId hours : Nat) : ScanSet := {
  header := header target focus packId hours, bytes := if focus = 1 then 224 else 288, expected := [], signed := true }

def round0 (chunks : Nat) : Round := { key := 0, set := setOf 0 0 0 0, slot := none, since := 0, chunks := chunks }

def scanning (x : ScanRun) (s : State) : State :=
  s.onSdc fun d => { d with round := some (round0 1), scans := [(7, some x)] }

def run0 (target : Nat) (retest : Option Nat) : ScanRun := { target := target, retest := retest, forced := 0, mark := .natural }

def pack0 (id : Nat) : Pack := { set := setOf 0 0 id 0, ms := 0, expired := false }

def updating (p : Payload) (f : SdcSt → SdcSt) : State := (up.onHost fun h => { h with component := some p, update := 5 }).onSdc f

theorem test_witness_ShadowSelfTest :
    (∃ (h : Fin 8) (s : State),
      (s.shadowOf h).state = .selfTest ∧ 50000 ≤ s.time.tick - (s.shadowOf h).began ∧ s.noShots ∧
      (s.shadowOf h).judging = false) ∧
    (∃ (h : Fin 8) (s : State),
      (s.shadowOf h).state = .selfTest ∧ 50000 ≤ s.time.tick - (s.shadowOf h).began ∧ s.noShots) ∧
    (∃ (h : Fin 8) (d : ShadowDiff) (s : State),
      (s.shadowOf h).state = .selfTest ∧ 50000 ≤ s.time.tick - (s.shadowOf h).began ∧ s.noShots ∧
      (s.shadowOf h).judging = true ∧ (s.shadowOf h).diff = some d ∧ (s.shadowOf h).checksums = []) ∧
    (∃ (h : Fin 8) (s : State),
      (s.shadowOf h).state = .idle ∧ s.scanOf h = none ∧ 0 < s.fld F.SDC_SH_CTRL_SELFTEST_MS 0 h ∧
      s.fld F.SDC_SH_CTRL_SELFTEST_MS 0 h * 1000000 ≤ s.time.tick - (s.shadowOf h).tested) := by
  refine ⟨⟨7, (shadow 7 testing (upAt 50007)), ?_⟩,
    ⟨7, (shadow 7 testing (upAt 50007)), ?_⟩,
    ⟨7, diff0, (shadow 7 { testing with judging := true, diff := some diff0, alcove := 255 } (upAt 50007)), ?_⟩,
    ⟨7, (shadow 7 { Shadow.reset with tested := 5 } (upAt 1000000005)), ?_⟩⟩
  all_goals repeat' apply And.intro
  all_goals decide +kernel

theorem test_witness_ScanRoundsRun :
    (∃ (t key : Nat) (x : ScanSet) (slot : Option Nat) (s : State),
      s.inService = true ∧ s.fld F.SDC_CTRL_SCAN_EN = 1 ∧ s.openRound = none ∧ s.sdc.lastRound = some t ∧
      s.sdc.lastSet = none ∧ s.setList.head? = some (key, x, slot) ∧
      max 40 (s.fld F.SDC_CTRL_ROUND_MS) * 1000000 ≤ s.time.tick - t) ∧
    (∃ (r : Round) (s : State),
      s.openRound = some r ∧ r.chunks < r.set.chunks ∧ s.ras.unstored = [] ∧ s.host.flashQueue = []) ∧
    (∃ (t : Nat) (s : State),
      s.sdc.lastRound = some t ∧ s.time.tick - t < 40000000) := by
  refine ⟨⟨5, 0, (setOf 0 0 0 0), none, ((((upAt 1000000005).setFld F.SDC_CTRL_KINDS 15).setFld F.SDC_CTRL_SCAN_EN 1).onSdc fun d => { d with base := [setOf 0 0 0 0, setOf 1 0 0 0], lastRound := some 5 }), ?_⟩,
    ⟨(round0 0), (up.onSdc fun d => { d with round := some (round0 0) }), ?_⟩,
    ⟨5, ((upAt 40000004).onSdc fun d => { d with lastRound := some 5, base := [setOf 0 0 0 0] }), ?_⟩⟩
  all_goals repeat' apply And.intro
  all_goals decide +kernel

theorem test_witness_ScanOutcomes :
    (∃ (h : Fin 8) (r : Round) (x : ScanRun) (s : State),
      s.openRound = some r ∧ s.scanOf h = some x ∧ x.retest = none ∧ r.set.chunks ≤ r.chunks ∧ s.noShots) ∧
    (∃ (h : Fin 8) (mask : Nat) (r : Round) (x : ScanRun) (s : State),
      s.openRound = some r ∧ s.scanOf h = some x ∧ x.retest = none ∧ r.set.chunks ≤ r.chunks ∧ s.noShots ∧
      mask &&& scanDomains x.target ≠ 0) ∧
    (∃ (h : Fin 8) (first : Nat) (r : Round) (x : ScanRun) (s : State),
      s.openRound = some r ∧ s.scanOf h = some x ∧ x.retest = some first ∧ x.forced = 0) ∧
    (∃ (h : Fin 8) (mask first : Nat) (r : Round) (x : ScanRun) (s : State),
      s.openRound = some r ∧ s.scanOf h = some x ∧ x.retest = some first ∧ x.target ≠ 0xFFFF ∧
      x.mark.nocharge = false ∧ mask &&& scanDomains x.target ≠ 0) ∧
    (∃ (a : Agent) (h : Fin 8) (s : State),
      s.reaches a .SDC_SH_CTRL h ∧ s.quiet ∧ (s.shadowOf h).state = .idle ∧ s.scanOf h = none) := by
  refine ⟨⟨7, (round0 1), (run0 (channelId 4 255) none), (scanning (run0 (channelId 4 255) none) up), ?_⟩,
    ⟨7, 0x82, (round0 1), (run0 (channelId 4 255) none), (scanning (run0 (channelId 4 255) none) up), ?_⟩,
    ⟨7, 0x82, (round0 1), (run0 (channelId 4 255) (some 0x82)), (scanning (run0 (channelId 4 255) (some 0x82)) up), ?_⟩,
    ⟨7, 0x82, 0x82, (round0 1), (run0 (channelId 4 255) (some 0x82)), (scanning (run0 (channelId 4 255) (some 0x82)) up), ?_⟩,
    ⟨.mgt, 7, up, ?_⟩⟩
  all_goals repeat' apply And.intro
  all_goals decide +kernel

theorem test_witness_PacksAndBaseSets :
    (∃ (x : ScanSet) (k : Nat) (s : State),
      s.host.component = some (.pack x) ∧ s.host.update = 5 ∧ x.legal = true ∧ x.packId ≠ 0 ∧ x.bytes ≤ 2 ^ 20 ∧
      x.withdraw = false ∧ k < 16 ∧ s.pack k = none ∧ (∀ j, j < k → s.pack j ≠ none) ∧
      (∀ j, j < 16 → ∀ p, s.pack j = some p → p.set.packId ≠ x.packId) ∧ s.openRound = none ∧
      s.updateMayWrite = true) ∧
    (∃ (x : ScanSet) (s : State),
      s.host.component = some (.pack x) ∧ s.host.update = 5 ∧ s.packPlace x = none) ∧
    (∃ (l : List ScanSet) (b : Bool) (s : State),
      s.host.component = some (.scan l b) ∧ s.host.update = 5 ∧ l.length ≤ 8 ∧ (∀ x ∈ l, x.legalBase = true) ∧
      (l.map (·.bytes)).sum ≤ 2 ^ 24 ∧ s.openRound = none ∧ s.updateMayWrite = true) ∧
    (∃ (s : State),
      (∀ k, k < 16 → s.pack k = none)) ∧
    (∃ (k : Nat) (p : Pack) (s : State),
      k < 16 ∧ s.pack k = some p ∧ p.expired = false ∧ p.set.focus = true ∧ p.set.fld 0x1C 4 ≠ 0 ∧
      p.set.fld 0x1C 4 * 3600000 ≤ p.ms + 1 ∧ (∀ j, j < 16 → j ≠ k → s.pack j = none)) := by
  refine ⟨⟨(setOf 0 0 9 0), 1, (updating (.pack (setOf 0 0 9 0)) fun d => { d with packs := [(0, some (pack0 8))] }), ?_⟩,
    ⟨(setOf 0 0 0 0), (updating (.pack (setOf 0 0 0 0)) id), ?_⟩,
    ⟨[setOf 0 0 0 0, setOf 1 0 0 0], false, (updating (.scan [setOf 0 0 0 0, setOf 1 0 0 0] false) fun d => { d with packs := [(15, some (pack0 8))] }), ?_⟩,
    ⟨up, ?_⟩,
    ⟨15, { pack0 9 with set := setOf 0 1 9 1, ms := 3599999 }, (up.onSdc fun d => { d with packs := [(15, some { pack0 9 with set := setOf 0 1 9 1, ms := 3599999 })] }), ?_⟩⟩
  all_goals repeat' apply And.intro
  all_goals decide +kernel

end O18

/-! ## Witnesses of the statements of chapter 19 -/

namespace O19

/-- Injector 2 names the link lane 5 for an uncorrectable codeword. -/
def injSet : State := (upAt 1000).setFld F.INJ_TARGET_TARGET 5 2

/-- Injector 2 ARMED at tread 0 for that lane. -/
def injArmed : State := (injSet.setReg .INJ_CTRL 2 0 0x84000002).setInjector 2 { due := true, next := some 0 }

theorem test_witness_InjectorsArm :
    (∃ (a : Agent) (i : Fin 16) (x : Nat) (s : State),
      s.reaches a .INJ_CTRL i ∧ x < 2 ^ 32 ∧
      atArming (F.INJ_CTRL_DETECTOR.of x) (F.INJ_CTRL_STORE.of x == 1) = false) ∧
    (∃ (a : Agent) (i : Fin 16) (x : Nat) (s : State),
      s.reaches a .INJ_CTRL i ∧ x < 2 ^ 32) ∧
    (∃ (i : Fin 16) (t : Nat) (s : State),
      (s.injector i).next = some t ∧ s.fld F.INJ_CTRL_STATE i = 1 ∧
      t ≤ s.now (s.injIsland (s.fld F.INJ_CTRL_DETECTOR i) (s.fld F.INJ_TARGET_TARGET i)) ∧
      atArming (s.fld F.INJ_CTRL_DETECTOR i) (s.shotStores i) = false) ∧
    (∃ (i : Fin 16) (t : Nat) (s : State),
      (s.injector i).next = some t ∧ s.fld F.INJ_CTRL_STATE i = 1 ∧
      t ≤ s.now (s.injIsland (s.fld F.INJ_CTRL_DETECTOR i) (s.fld F.INJ_TARGET_TARGET i)) ∧
      (s.injector i).due = false ∧ s.fld F.INJ_CTRL_DETECTOR i = 0x19 ∧ s.fld F.INJ_CTRL_PERIODIC i = 0) ∧
    (∃ (i : Fin 16) (s : State),
      (s.injector i).next = none) ∧
    (∃ (i : Fin 16) (t : Nat) (s : State),
      (s.injector i).next = some t ∧
      s.now (s.injIsland (s.fld F.INJ_CTRL_DETECTOR i) (s.fld F.INJ_TARGET_TARGET i)) < t) := by
  refine ⟨⟨.mgt, 2, 0x02, injSet, ?_⟩,
    ⟨.mgt, 2, 0xFFFFFFFF, injArmed, ?_⟩,
    ⟨2, 0, injArmed, ?_⟩,
    ⟨2, 0, ((injArmed.setFld F.INJ_CTRL_DETECTOR 0x19 2).setInjector 2 { due := false, next := some 0 }), ?_⟩,
    ⟨2, up, ?_⟩,
    ⟨2, 9000000, (injSet.setInjector 2 { due := false, next := some 9000000 }), ?_⟩⟩
  all_goals repeat' apply And.intro
  all_goals decide +kernel

end O19

/-! ## Witnesses of the statements of chapter 21 -/

namespace O21

def warmHall : HallPower := { HallPower.reset with
  powered := true, running := 1500, hallCap := 2100, thermalCap := 2100, pinCap := 1990, step := 2, temp := 99, moved := 5 }

def powered : State := { (upAt 20000000).setHallPower 3 warmHall with
  hcs := tset .reset [] 8 { HallCtl.reset with core := { Core.reset with state := .running } } }

theorem test_witness_PowerRuns :
    (∃ (h : Fin 8) (s : State),
      (s.hallPower h).powered = true) ∧
    (∃ (h : Fin 8) (s : State),
      (s.hallPower h).powered = false) ∧
    (∃ (s : State),
      s.boot.step = 9 ∧ s.fld F.BOOT_STATUS_STATE ≠ 5 ∧ (s.hc 8).core.state = .running ∧
      s.fld F.PWR_CTRL_LIMIT_EN = 1 ∧ s.inj.timerStopped = false) ∧
    (∃ (s : State),
      s.boot.step < 8) ∧
    (∃ (s : State),
      s.pwr.pins.throttleN = true) ∧
    (∃ (s : State),
      s.pwr.pins.throttleN = false) ∧
    (∃ (h : Fin 8) (s : State),
      (s.hallPower h).powered = true) ∧
    (∃ (h : Fin 8) (s : State),
      (s.hallPower h).powered = false) ∧
    (∃ (s : State),
      ((∃ x, x ∈ s.pwr.halls ∧ 115 ≤ x.2.temp) ∨ (∃ x, x ∈ s.pwr.stackTemp ∧ 110 ≤ x.2))) ∧
    (∃ (s : State),
      (∀ x, x ∈ s.pwr.halls → x.2.temp < 115) ∧ (∀ x, x ∈ s.pwr.stackTemp → x.2 < 110)) ∧
    (∃ (s : State),
      s.pwr.pins.pwrOk = true) ∧
    (∃ (s : State),
      s.pwr.pins.pwrOk = false) ∧
    (∃ (rail : Nat) (s : State),
      rail < 8 ∧ s.boot.step = 9 ∧ (s.hallPower rail).powered = true ∧ s.pwr.pins.pwrOk = true ∧
      s.pwr.tripped = false) ∧
    (∃ (rail : Nat) (s : State),
      rail ∈ [8, 9, 10, 11, 12, 13, 14, 15] ∧ s.boot.step = 9 ∧ s.pwr.pins.pwrOk = true) ∧
    (∃ (s : State),
      s.boot.step ≠ 9) ∧
    (∃ (rail : Nat) (s : State),
      s.bootAt 6 = true ∧ 0 < rail ∧ rail < 8 ∧ s.noWaiting ∧
      (∀ p, p < 64 → (s.port p).queues = [] ∧ (s.port p).flows = [])) ∧
    (∃ (rail : Nat) (s : State),
      s.bootAt 6 = true ∧ rail ∈ [0, 8, 9, 10, 12, 13, 14]) ∧
    (∃ (s : State),
      s.boot.step ≠ 6 ∧ s.boot.step ≠ 7) := by
  refine ⟨⟨3, powered, ?_⟩,
    ⟨4, powered, ?_⟩,
    ⟨(powered.onPwr fun p => { p with boardCap := 1500 }), ?_⟩,
    ⟨State.reset, ?_⟩,
    ⟨powered, ?_⟩,
    ⟨(powered.onPwr fun p => { p with pins := { p.pins with throttleN := false } }), ?_⟩,
    ⟨3, powered, ?_⟩,
    ⟨4, powered, ?_⟩,
    ⟨(powered.setHallPower 3 { warmHall with temp := 115 }), ?_⟩,
    ⟨powered, ?_⟩,
    ⟨powered, ?_⟩,
    ⟨(powered.onPwr fun p => { p with pins := { p.pins with pwrOk := false } }), ?_⟩,
    ⟨3, powered, ?_⟩,
    ⟨11, powered, ?_⟩,
    ⟨State.reset, ?_⟩,
    ⟨3, (State.reset.onBoot fun b => { b with step := 6 }), ?_⟩,
    ⟨0, (State.reset.onBoot fun b => { b with step := 6 }), ?_⟩,
    ⟨up, ?_⟩⟩
  all_goals repeat' apply And.intro
  all_goals decide +kernel

end O21

/-! ## Witnesses of the statements of atomics, slot words and memory -/

namespace Onew

/-- The bundle of one word in slot `k`. -/
def only (k : Nat) (w : BitVec 128) : BitVec 1024 := BitVec.ofNat 1024 (w.toNat * 2 ^ (128 * k))

/-- What a core fetches at bundle 40. -/
def fetched (b : BitVec 1024) : Fetched := { idx := 40, bits := b, poison := false }

/-- Alcove 255 runs at bundle 40, which is `b`. -/
def runs (b : BitVec 1024) : State := up.setAlcove 255 { Alcove.reset with
  istore := [(40, b)], core := { Core.reset with state := .running, pc := 40 } }

theorem test_witness_IntegerAtomicsExact :
    (∃ (afmt a b : _),
      let w := 8 * atomicSize afmt
      3 ≤ afmt ∧ afmt ≤ 6 ∧ a < 2 ^ w ∧ b < 2 ^ w) ∧
    (∃ (afmt : _) (l m : List Nat),
      3 ≤ afmt ∧ afmt ≤ 6 ∧ l.Perm m) := by
  refine ⟨⟨3, (2 ^ 31), (2 ^ 32 - 1), ?_⟩,
    ⟨5, [2 ^ 63, 2 ^ 63, 5], [5, 2 ^ 63, 2 ^ 63], ?_⟩⟩
  all_goals repeat' apply And.intro
  all_goals decide +kernel

theorem test_witness_SlotWordsOfNop :
    (∃ (n : Fin 256) (f : Fetched) (s : State),
      (∀ k, k < 8 → bundleSlot f.bits k = 0) ∧ ((s.fetch n).alcove n).core.pc + 1 < 4096 ∧
      ((s.fetch n).alcove n).core.loops = []) ∧
    (∃ (n : Fin 256) (f : Fetched) (k : Nat) (s : State),
      s.readyFor n f ∧ k < 8 ∧ (∀ j, j < 8 → j ≠ k → bundleSlot f.bits j = 0) ∧
      slotRsv (bundleSlot f.bits k) = 0 ∧ slotOp (bundleSlot f.bits k) < 0x100 ∧ bundleSlot f.bits k ≠ 0 ∧
      ((s.fetch n).alcove n).core.pc < 4096 ∧ ((s.fetch n).alcove n).grant = none) ∧
    (∃ (n : Fin 256) (f : Fetched) (k : Nat) (s : State),
      s.standsBefore n f ∧ f.poison = false ∧ k < 8 ∧ (∀ j, j < 8 → j ≠ k → bundleSlot f.bits j = 0) ∧
      slotRsv (bundleSlot f.bits k) ≠ 0 ∧ ((s.fetch n).alcove n).core.pc < 4096 ∧
      ((s.fetch n).alcove n).grant = none) := by
  refine ⟨⟨255, (fetched 0), (runs 0), ?_⟩,
    ⟨255, (fetched (only 7 (BitVec.ofNat 128 0xFF))), 7, (runs (only 7 (BitVec.ofNat 128 0xFF))), ?_⟩,
    ⟨255, (fetched (only 7 (BitVec.ofNat 128 (2 ^ 19)))), 7, (runs (only 7 (BitVec.ofNat 128 (2 ^ 19)))), ?_⟩⟩
  all_goals repeat' apply And.intro
  all_goals decide +kernel

theorem test_witness_MemoriesStayCanonical :
    (∃ (s t : State),
      s.memoryWf = true ∧ step s = .next t) := by
  · refine ⟨up, (up.tickOn), ?_⟩
    exact ⟨by decide +kernel, rfl⟩

end Onew

/-! ## Commands that are not well formed -/

theorem test_wellFormed_value : (Instr.registerWrite .mgt 0x2010 4 (2 ^ 32) none).wellFormed = false := by decide
theorem test_wellFormed_size : (Instr.registerWrite .mgt 0x2010 0 0 none).wellFormed = false := by decide
theorem test_wellFormed_address : (Instr.registerWrite .mgt (2 ^ 32) 4 0 none).wellFormed = false := by decide
theorem test_wellFormed_write : (Instr.registerWrite (.host 41) 0x2010 8 (2 ^ 64 - 1) none).wellFormed = true := by decide
theorem test_wellFormed_read_size : (Instr.registerClearingRead .mgt 0x2010 0 none).wellFormed = false := by decide
theorem test_wellFormed_read_address : (Instr.registerClearingRead .mgt (2 ^ 32) 4 none).wellFormed = false := by decide
theorem test_wellFormed_doorbell_offset : (Instr.doorbellWrite 1 4096 4 0 0).wellFormed = false := by decide
theorem test_wellFormed_doorbell_size : (Instr.doorbellWrite 1 0 3 0 0).wellFormed = false := by decide
theorem test_wellFormed_doorbell_value : (Instr.doorbellWrite 1 0 2 65536 0).wellFormed = false := by decide
theorem test_wellFormed_doorbell_record : (Instr.doorbellWrite 1 0 4 0 (2 ^ 32)).wellFormed = false := by decide
theorem test_wellFormed_poll : (Instr.notifyPoll 1 (2 ^ 32)).wellFormed = false := by decide
theorem test_wellFormed_entry_length : (Instr.adminCommandFetch 1 [1, 2]).wellFormed = false := by decide
theorem test_wellFormed_entry_byte : (Instr.adminCommandFetch 1 (256 :: zeros 63)).wellFormed = false := by decide
theorem test_wellFormed_ring_head : (Instr.adminRingFullPoll 1 (2 ^ 32)).wellFormed = false := by decide
theorem test_wellFormed_queue_head : (Instr.completionRingHeadRead 1 (2 ^ 32)).wellFormed = false := by decide
theorem test_wellFormed_record_length : (Instr.syncConfig 1 (zeros 65)).wellFormed = false := by decide
theorem test_wellFormed_record_byte : (Instr.syncConfig 1 [256]).wellFormed = false := by decide
theorem test_wellFormed_init_flit : (Instr.initFlitReceive 1 (zeros 255)).wellFormed = false := by decide +kernel
theorem test_wellFormed_data_flit : (Instr.dataFlitReceive 1 (256 :: zeros 255) false).wellFormed = false := by decide +kernel
theorem test_wellFormed_control_flit : (Instr.controlFlitReceive 1 [] false).wellFormed = false := by decide
theorem test_wellFormed_nak : (Instr.nakReceive 1 [] false).wellFormed = false := by decide
theorem test_wellFormed_flit : (Instr.nakReceive 1 (zeros 256) false).wellFormed = true := by decide +kernel
theorem test_wellFormed_scan_mask : (Instr.scanRoundEnd 1 256).wellFormed = false := by decide
theorem test_wellFormed_retest_mask : (Instr.scanRetestEnd 1 256 0 0).wellFormed = false := by decide
theorem test_wellFormed_retest_pattern : (Instr.scanRetestEnd 1 1 (2 ^ 32) 0).wellFormed = false := by decide
theorem test_wellFormed_retest_diff : (Instr.scanRetestEnd 1 1 0 (2 ^ 32)).wellFormed = false := by decide
theorem test_wellFormed_selftest : (Instr.shadowSelftestComplete 1 true (2 ^ 32)).wellFormed = false := by decide
theorem test_wellFormed_bar4_read : (Instr.bar4Read 1 0 0).wellFormed = false := by decide
theorem test_wellFormed_bar4_write : (Instr.bar4Write 1 0 [] false).wellFormed = false := by decide
theorem test_wellFormed_bar4_byte : (Instr.bar4Write 1 0 [256] false).wellFormed = false := by decide
theorem test_wellFormed_pasid : (Instr.atsInvalidate 1 (some (2 ^ 20)) 0 1).wellFormed = false := by decide
theorem test_wellFormed_pages : (Instr.atsInvalidate 1 none 0 0).wellFormed = false := by decide
theorem test_wellFormed_page : (Instr.atsInvalidate 1 none (2 ^ 52) 1).wellFormed = false := by decide
theorem test_wellFormed_msix : (Instr.msixUnmask 1 (some 2048)).wellFormed = false := by decide
theorem test_wellFormed_eid : (Instr.setEndpointId 256).wellFormed = false := by decide
theorem test_wellFormed_mctp_type : (Instr.mctpControlMessage 128 0).wellFormed = false := by decide
theorem test_wellFormed_pldm_type : (Instr.mctpControlMessage 1 64).wellFormed = false := by decide
theorem test_wellFormed_mgt_read : (Instr.mgtRegisterRead (2 ^ 32)).wellFormed = false := by decide
theorem test_wellFormed_mgt_write : (Instr.mgtRegisterWrite 0 (2 ^ 32)).wellFormed = false := by decide
theorem test_wellFormed_mgt_address : (Instr.mgtRegisterWrite (2 ^ 32) 0).wellFormed = false := by decide
theorem test_wellFormed_sensor : (Instr.getSensorReading 65536).wellFormed = false := by decide
theorem test_wellFormed_hbm_span : (Instr.hbmAccess 0 (.write 31 [1, 2] false) []).wellFormed = false := by decide
theorem test_wellFormed_hbm_empty : (Instr.hbmAccess 0 (.write 0 [] false) []).wellFormed = false := by decide
theorem test_wellFormed_hbm_byte : (Instr.hbmAccess 0 (.write 0 [256] false) []).wellFormed = false := by decide
theorem test_wellFormed_set_header :
    (Instr.firmwareComponentVerify (.pack { header := [1], bytes := 288, expected := [], signed := true })).wellFormed =
      false := by decide
theorem test_wellFormed_profile : (Instr.firmwareComponentVerify (.profiles [[1]] true)).wellFormed = false := by decide
theorem test_wellFormed_stepping : (Instr.firmwareComponentVerify (.hall { O13.img 2 with stepping := 256 })).wellFormed =
    false := by decide
theorem test_wellFormed_image_byte : (Instr.firmwareComponentVerify (.pmc { O13.img 1 with data := [256] })).wellFormed =
    false := by decide
theorem test_wellFormed_bridge : (Instr.registerBridgeUpdate (2 ^ 65)).wellFormed = false := by decide
theorem test_wellFormed_rail : (Instr.railRegulationTimeout 16).wellFormed = false := by decide
theorem test_wellFormed_rail_fault : (Instr.railFaultInService 16).wellFormed = false := by decide
theorem test_wellFormed_watts : (Instr.powerLimitEvaluate (zeros 17) [] 0).wellFormed = false := by decide
theorem test_wellFormed_volts : (Instr.powerLimitEvaluate [] (zeros 17) 0).wellFormed = false := by decide
theorem test_wellFormed_good : (Instr.powerLimitEvaluate [] [] 65536).wellFormed = false := by decide
theorem test_wellFormed_vfs : (Instr.vfEnableSet 65536).wellFormed = false := by decide
theorem test_wellFormed_rate : (Instr.pcieLinkUp 0 16 false).wellFormed = false := by decide
theorem test_wellFormed_high_rate : (Instr.pcieLinkUp 7 16 false).wellFormed = false := by decide
theorem test_wellFormed_width : (Instr.pcieLinkUp 5 3 false).wellFormed = false := by decide
theorem test_wellFormed_lanes : (Instr.hbmBringupStep 1 true 128).wellFormed = false := by decide
theorem test_wellFormed_named_write : (Instr.timeCtrlWrite .mgt (2 ^ 32)).wellFormed = false := by decide
theorem test_wellFormed_tick : (Instr.timeBeatSend).wellFormed = true := by decide

/-! ## The manual's worked examples -/

/-- The state after a command, or the state before one that stops. -/
def after (c : Instr) (s : State) : State :=
  match exec c s with
  | .next t => t
  | _ => s

/-- 00_scope.md, R10: software clears a W1C bit in the cycle in which hardware sets it; the bit reads 1. -/
theorem test_set_beats_clear :
    (after (.registerWrite .mgt (Reg.addr .GLB_DENY_LOG) 4 0x80000000 (some { hi := 31, lo := 31, upd := .setBits 1 }))
      (up.setReg .GLB_DENY_LOG 0 0 0x89002C00)).fld F.GLB_DENY_LOG_VALID = 1 := by decide +kernel

/-- 00_scope.md, R10: a counter of 0xFF is written to 0 in the cycle in which hardware counts one event; it reads 1. -/
theorem test_add_after_write :
    (after (.registerWrite .mgt (Reg.addr .HBM_RETIRED_HIT 3) 4 0 (some { hi := 31, lo := 0, upd := .add 1 }))
      (up.setReg .HBM_RETIRED_HIT 3 0 0xFF)).reg .HBM_RETIRED_HIT 3 = 1 := by decide +kernel

/-- 22_register_reference.md: the addresses of the worked example. -/
theorem test_register_addresses :
    Reg.addr .XU_CHK_STATUS 150 = 0x3960C ∧ Reg.addr .CLZ_WIN_CFG 29 3 = 0xA7530 ∧
      Reg.addr .RAS_BUCKET 0 0x208E = 0xD8238 ∧ Reg.addr .VST_Q_STATUS 41 2 = 0x82948 := by decide +kernel

/-- 22_register_reference.md: VI 41 reads view offset 0x0_2010, which is denied. -/
theorem test_denied_read :
    let t := after (.registerClearingRead (.host 41) 0x2010 4 none) O22.vfs
    t.reg .PCI_BAR_ERR 0 0 = 0x80002900 ∧ t.readData = 0 := by decide +kernel

/-- 22_register_reference.md: a write by the firmware of H4 that may not reach its register is logged. -/
theorem test_denied_write :
    (after (.registerWrite (.hc 4) 0xB000 4 1 none) up).reg .GLB_DENY_LOG 0 0 = 0x89002C00 := by decide +kernel

/-- 08_memory_spaces_and_ordering.md, R178: byte 0x10_0000 of the gallery of H3 on device 4,101. -/
theorem test_global_address : gaMake 4101 spaceG (3 * 2 ^ 26 + 0x100000) = 0x080290000C100000 := by decide +kernel

/-- 09_stacked_memory.md, R211: the partition of half-halls 4 and 7 and its offset 0x3C40. -/
theorem test_interleave :
    ({ localN := 4, chans := upTo 64 16 ++ upTo 112 16, halfHalls := [4, 7], baseHH := 4 } : PartMap).place 0x3C40 =
      some { chan := 125, line := 1, byte := 64 } := by decide +kernel

/-- 08_memory_spaces_and_ordering.md, R202: BF16 256 and 1 add to 256. -/
theorem test_atomic_order : atomicCombine 1 0 0x4380 0x3F80 = 0x4380 ∧ atomicCombine 1 0 0x3F80 0x3F80 = 0x4000 := by
  decide +kernel

/-- 11_annealer.md, R267. -/
theorem test_threshold : thresholdT 128 = 0xB504F334 ∧ thresholdT 128 / 2 = 0x5A82799A := by decide +kernel

/-- 04_stavan_instruction_set.md: the words of the bundle at PC 97. -/
theorem test_slot_words :
    opOf (slotOp 0x00000000000000400000050500100100#128) = some .ADD ∧
    slotMod 0x00000000000000400000050500100100#128 = 1 ∧ slotDst 0x00000000000000400000050500100100#128 = 5 ∧
    slotImm 0x00000000000000400000050500100100#128 = 64 ∧
    opOf (slotOp 0x00000000000000000006050100800120#128) = some .CMP ∧
    slotMod 0x00000000000000000006050100800120#128 = 8 ∧ slotSrc2 0x00000000000000000006050100800120#128 = 6 ∧
    opOf (slotOp 0x00000000000000000000020300800202#128) = some .VLD ∧
    opOf (slotOp 0x00000000000000000004030400202300#128) = some .VADD ∧
    slotPred 0x00000000000000000004030400202300#128 = 2 ∧
    opOf (slotOp 0x00000000004000400000140621200402#128) = some .MPASS ∧
    slotMod 0x00000000004000400000140621200402#128 = 0x212 ∧ slotDst 0x00000000004000400000140621200402#128 = 6 ∧
    opOf (slotOp 0x000000000000005A0000000000001601#128) = some .BRC ∧
    slotImm 0x000000000000005A0000000000001601#128 = 90 := by decide +kernel

/-- The descriptor of the example of 07_tile_walker.md. -/
def grid : TileDesc := {
  m := 3000, n := 5000, tileM := 256, tileN := 256, kStep := 4096, order := 0, split := false, ctrlRsv := 0, rsv := 0
  seqFirst := 0, seqStride := 0, seqCount := 0, rowBase := 0, colBase := 0 }

/-- 07_tile_walker.md: rank 5 of 32 receives the tiles of grid cells (3, 0) and (4, 7). -/
theorem test_tiles :
    grid.gridRows = 12 ∧ grid.gridCols = 20 ∧ grid.tile 5 32 0 = (768, 0, 256, 256) ∧
      grid.tile 5 32 1 = (1024, 1792, 256, 256) ∧ grid.share 15 32 = 8 ∧ grid.share 16 32 = 7 := by decide +kernel

/-- 02_stair_time.md, R37: the four timestamps of the example, in 1/16 tread. -/
theorem test_delay_exchange :
    let x := (((up.setExchange 3 { DelayExch.empty with
      t1 := some (16 * 5000000), t2 := some (16 * 5000262 + 8), t3 := some (16 * 5000400), t4 := some (16 * 5000637 + 8)
      awaiting := true }).exchangeDone 3).exchange 3)
    x.last = [16 * 250] ∧ x.offset = 16 * 12 + 8 := by decide +kernel

/-- 14_interrupts.md: a fast source at level 18 goes before a normal one at level 4, and its entry selects bank 1. -/
theorem test_fast_first :
    let t := after (.interruptTake 2) O14.pended
    (t.hc 2).core.pc = 0x123 ∧ (t.hc 2).core.bank = 1 ∧ (t.icSource 323).state = .active ∧
      (t.icSource 263).state = .pending := by decide +kernel

/-- 08_memory_spaces_and_ordering.md, R202: MIN compares signed for INT32 and unsigned for UINT32. -/
theorem test_integer_atomics : atomicCombine 3 1 0x80000000 1 = 0x80000000 ∧ atomicCombine 4 1 0x80000000 1 = 1 := by
  decide +kernel

/-- 17_faults_and_retirement.md, R441, R443: the Section Type as a GUID's bytes, and the severities of three kinds. -/
theorem test_record_header :
    llynioSection = [0x41, 0x7C, 0x2A, 0x9D, 0x10, 0x5E, 0x6B, 0x4F, 0x8B, 0x37, 0x41, 0xC0, 0xF2, 0xA6, 0xE5, 0x9D] ∧
      ({ RasRecord.blank with kind := kindWarn }).severity = 3 ∧
      ({ RasRecord.blank with kind := kindRetired }).severity = 0 ∧ fruText .e = "KPZ-8384-E".toList.map Char.toNat ++
        List.replicate 10 0 := by decide +kernel

end Sys2Proof.Tests
end

section
/-! Stair time: what one beat of the discipline loop (R35) does to a replica's count, and O8. A beat either steps or
holds the replica, which is then in ACQUIRE, or it keeps the count and gives it a new rate; no case subtracts. -/

namespace Sys2Proof.Machine

/-- Clamping between a bound and its negative bounds the magnitude. -/
theorem natAbs_clampTo_neg_le {k : Int} (hk : 0 ≤ k) (x : Int) : ((clampTo (-k) k x).natAbs : Int) ≤ k := by
  unfold clampTo
  split
  case isTrue below => omega
  case isFalse notBelow =>
    split
    case isTrue above => omega
    case isFalse notAbove => omega

/-- Up to its `since` tick a replica stands at its base. -/
theorem Replica.at_of_le_since {r : Replica} {tick : Nat} (h : tick ≤ r.since) : r.at tick = r.base := by
  simp [Replica.at, Nat.sub_eq_zero_of_le h]

/-- A count never lies below its base: the increment is not negative (R26). -/
theorem Replica.base_le_at (r : Replica) (tick : Nat) : r.base ≤ r.at tick :=
  Nat.le_add_right _ _

/-- R35: an offset over 4,096 treads puts the replica into ACQUIRE, with a base no lower than its count: a forward step
raises the base, a hold keeps it. -/
theorem Replica.beat_of_large_offset (r : Replica) (now : Nat) {sent here : Int} (h : 65536 < (sent - here).natAbs) :
    r.at now ≤ (r.beat now sent here).base ∧ (r.beat now sent here).state = .acquire := by
  by_cases ahead : 0 < sent - here
  · simp only [Replica.beat, if_pos h, if_pos ahead]
    exact ⟨Nat.le_add_right _ _, rfl⟩
  · simp only [Replica.beat, if_pos h, if_neg ahead]
    exact ⟨Nat.le_refl _, rfl⟩

/-- R35: any other offset is corrected by rate alone. The count goes on from where it is, and the new increment is
nominal with the frequency correction and the slew, each within its limit. The branches of such a beat differ only in
the time state, the lock counters and `left`. -/
theorem Replica.beat_of_small_offset (r : Replica) (now : Nat) {sent here : Int} (h : (sent - here).natAbs ≤ 65536) :
    (r.beat now sent here).base = r.at now ∧
    (r.beat now sent here).since = max now r.since ∧
    (r.beat now sent here).freq =
      clampTo (-freqLimit) freqLimit (r.freq + (r.beat now sent here).filt * 64) ∧
    (r.beat now sent here).inc =
      ((treadUnit : Int) + (r.beat now sent here).freq +
        clampTo (-slewLimit) slewLimit ((r.beat now sent here).filt * 1024)).toNat := by
  simp only [Replica.beat, if_neg (Nat.not_lt.mpr h)]
  repeat' split
  all_goals exact ⟨rfl, rfl, rfl, rfl⟩

/-- R26: every beat leaves the base at or above the count it finds. -/
theorem Replica.at_le_beat_base (r : Replica) (now : Nat) (sent here : Int) :
    r.at now ≤ (r.beat now sent here).base := by
  rcases Nat.lt_or_ge 65536 (sent - here).natAbs with large | small
  · exact (r.beat_of_large_offset now large).1
  · exact Nat.le_of_eq (r.beat_of_small_offset now small).1.symm

/-- R35: a beat with an offset of at most 4,096 treads does not move the count. -/
theorem Replica.beat_at_of_small_offset (r : Replica) (now : Nat) {sent here : Int}
    (h : (sent - here).natAbs ≤ 65536) : (r.beat now sent here).at now = r.at now := by
  obtain ⟨hbase, hsince, -, -⟩ := r.beat_of_small_offset now h
  rw [Replica.at_of_le_since (hsince ▸ Nat.le_max_left _ _), hbase]

/-- R35: such a beat keeps the frequency correction within 200 ppm. -/
theorem Replica.beat_freq_of_small_offset (r : Replica) (now : Nat) {sent here : Int}
    (h : (sent - here).natAbs ≤ 65536) : (r.beat now sent here).freq.natAbs ≤ 3355 := by
  obtain ⟨-, -, hfreq, -⟩ := r.beat_of_small_offset now h
  rw [hfreq]
  exact Int.ofNat_le.mp (natAbs_clampTo_neg_le (k := freqLimit) (by decide) _)

/-- R35: beside its frequency correction such a beat changes the rate by at most 1/1,024 of nominal. Both limits
together lie far below nominal, so the increment is never cut off at zero. -/
theorem Replica.beat_slew_of_small_offset (r : Replica) (now : Nat) {sent here : Int}
    (h : (sent - here).natAbs ≤ 65536) :
    (((r.beat now sent here).inc : Int) - ((treadUnit : Int) + (r.beat now sent here).freq)).natAbs ≤ 16384 := by
  obtain ⟨-, -, -, hinc⟩ := r.beat_of_small_offset now h
  have hfreq := r.beat_freq_of_small_offset now h
  have hslew := natAbs_clampTo_neg_le (k := slewLimit) (by decide) ((r.beat now sent here).filt * 1024)
  rw [hinc]
  simp only [treadUnit, slewLimit] at hslew ⊢
  omega

/-- R35: a beat that moves a replica, or that holds one which was counting, leaves it in ACQUIRE. -/
theorem Replica.beat_state_of_moved_or_held (r : Replica) (now : Nat) (sent here : Int) (counting : r.since ≤ now)
    (h : (r.beat now sent here).at now ≠ r.at now ∨ now < (r.beat now sent here).since) :
    (r.beat now sent here).state = .acquire := by
  rcases Nat.lt_or_ge 65536 (sent - here).natAbs with large | small
  · exact (r.beat_of_large_offset now large).2
  · obtain ⟨-, hsince, -, -⟩ := r.beat_of_small_offset now small
    rcases h with moved | held
    · exact absurd (r.beat_at_of_small_offset now small) moved
    · omega

/-- Settles O8: each clause from what a beat with a large and with a small offset does. -/
theorem lockedReplicasOnlySlew : Obligations.LockedReplicasOnlySlew := by
  unfold Obligations.LockedReplicasOnlySlew
  refine ⟨fun r now later sent here _ => ?neverBack, fun r now sent here _ small => ?slews,
    fun r now sent here => r.beat_state_of_moved_or_held now sent here⟩
  case neverBack => exact Nat.le_trans (r.at_le_beat_base now sent here) (Replica.base_le_at _ later)
  case slews =>
    exact ⟨r.beat_at_of_small_offset now small, r.beat_freq_of_small_offset now small,
      r.beat_slew_of_small_offset now small⟩

end Sys2Proof.Machine
end

section
/-! Atomics on integer elements: what each AOP does to an element of an integer format (R202), and O22. -/

namespace Sys2Proof.Machine

/-- The order by which MIN and MAX choose: signed for INT32 (3) and INT64 (5), unsigned for the other formats (R202). -/
def atomicLess (afmt a b : Nat) : Bool :=
  if afmt == 3 || afmt == 5 then
    decide (toInt (8 * atomicSize afmt) a < toInt (8 * atomicSize afmt) b)
  else decide (a < b)

section
variable {afmt : Nat} (h : 3 ≤ afmt) (a b : Nat)
include h

theorem atomicCombine_add : atomicCombine afmt 0 a b = (a + b) % 2 ^ (8 * atomicSize afmt) := by
  obtain ⟨k, rfl⟩ := Nat.exists_eq_add_of_le' h
  rfl

theorem atomicCombine_min : atomicCombine afmt 1 a b = if atomicLess afmt a b then a else b := by
  obtain ⟨k, rfl⟩ := Nat.exists_eq_add_of_le' h
  rfl

theorem atomicCombine_max : atomicCombine afmt 2 a b = if atomicLess afmt a b then b else a := by
  obtain ⟨k, rfl⟩ := Nat.exists_eq_add_of_le' h
  rfl

theorem atomicCombine_and : atomicCombine afmt 3 a b = a &&& b := by
  obtain ⟨k, rfl⟩ := Nat.exists_eq_add_of_le' h
  rfl

theorem atomicCombine_or : atomicCombine afmt 4 a b = a ||| b := by
  obtain ⟨k, rfl⟩ := Nat.exists_eq_add_of_le' h
  rfl

theorem atomicCombine_xor : atomicCombine afmt 5 a b = a ^^^ b := by
  obtain ⟨k, rfl⟩ := Nat.exists_eq_add_of_le' h
  rfl

end

theorem atomicLess_signed {afmt : Nat} (h : afmt = 3 ∨ afmt = 5) (a b : Nat) :
    atomicLess afmt a b = true ↔ toInt (8 * atomicSize afmt) a < toInt (8 * atomicSize afmt) b := by
  rcases h with rfl | rfl
  case inl => exact decide_eq_true_iff
  case inr => exact decide_eq_true_iff

theorem atomicLess_unsigned {afmt : Nat} (h : afmt = 4 ∨ afmt = 6) (a b : Nat) :
    atomicLess afmt a b = true ↔ (a : Int) < (b : Int) := by
  rcases h with rfl | rfl
  case inl => exact decide_eq_true_iff.trans Int.ofNat_lt.symm
  case inr => exact decide_eq_true_iff.trans Int.ofNat_lt.symm

/-- Where the order of MIN and MAX is that of a reading `f` of the elements, they choose the least and the greatest
reading. -/
theorem atomicCombine_min_max_of_reading {afmt : Nat} (h : 3 ≤ afmt) (f : Nat → Int) {a b : Nat}
    (order : atomicLess afmt a b = true ↔ f a < f b) :
    f (atomicCombine afmt 1 a b) = min (f a) (f b) ∧ f (atomicCombine afmt 2 a b) = max (f a) (f b) := by
  rw [atomicCombine_min h, atomicCombine_max h]
  by_cases less : atomicLess afmt a b = true
  · have := order.mp less
    rw [if_pos less, if_pos less]
    omega
  · have := mt order.mpr less
    rw [if_neg less, if_neg less]
    omega

/-- Each operation keeps its result inside the element. -/
theorem atomicCombine_lt {afmt op a b : Nat} (h : 3 ≤ afmt) (hop : op ≤ 5) (ha : a < 2 ^ (8 * atomicSize afmt))
    (hb : b < 2 ^ (8 * atomicSize afmt)) : atomicCombine afmt op a b < 2 ^ (8 * atomicSize afmt) := by
  match op, hop with
  | 0, _ => exact atomicCombine_add h a b ▸ Nat.mod_lt _ (Nat.two_pow_pos _)
  | 1, _ => rw [atomicCombine_min h]; split <;> assumption
  | 2, _ => rw [atomicCombine_max h]; split <;> assumption
  | 3, _ => exact atomicCombine_and h a b ▸ Nat.and_lt_two_pow a hb
  | 4, _ => exact atomicCombine_or h a b ▸ Nat.or_lt_two_pow ha hb
  | 5, _ => exact atomicCombine_xor h a b ▸ Nat.xor_lt_two_pow ha hb

/-- Two adds to one element may change places: both orders give the sum of all three, wrapped once. -/
theorem atomicCombine_add_right_comm {afmt : Nat} (h : 3 ≤ afmt) (x a b : Nat) :
    atomicCombine afmt 0 (atomicCombine afmt 0 x a) b = atomicCombine afmt 0 (atomicCombine afmt 0 x b) a := by
  simp only [atomicCombine_add h, Nat.mod_add_mod, Nat.add_right_comm x a b]

/-- Settles O22: each operation from its equation, and the order of arrival by exchanging neighbouring adds. -/
theorem integerAtomicsExact : Obligations.IntegerAtomicsExact := by
  unfold Obligations.IntegerAtomicsExact
  refine ⟨fun afmt a b h _ ha hb => ⟨atomicCombine_add h a b, fun signed => ?signed, fun unsigned => ?unsigned,
    fun op hop => atomicCombine_lt h hop ha hb, fun i => ?bitwise⟩,
    fun a b => ?signless, fun afmt x l m h _ perm => ?order⟩
  case signed => exact atomicCombine_min_max_of_reading h (toInt _) (atomicLess_signed signed a b)
  case unsigned =>
    obtain ⟨hmin, hmax⟩ := atomicCombine_min_max_of_reading h Nat.cast (atomicLess_unsigned unsigned a b)
    omega
  case bitwise =>
    rw [atomicCombine_and h, atomicCombine_or h, atomicCombine_xor h]
    exact ⟨Nat.testBit_and .., Nat.testBit_or .., Nat.testBit_xor ..⟩
  case signless => exact ⟨rfl, rfl⟩
  case order => exact perm.foldl_eq' (fun a _ b _ x => atomicCombine_add_right_comm h x a b) x

end Sys2Proof.Machine
end

section
/-! The interrupt controller's operations one by one: what a firing makes of a source line (R345, R346), which registers
and sources a firing, an event and a bad completion leave as they are, and O44. -/

namespace Sys2Proof.Machine

/-! ## Registers left as they are -/

theorem State.reg_congr {s t : State} (h : t.regs = s.regs) (r : Reg) (w i : Nat) : t.reg r w i = s.reg r w i := by
  simp only [State.reg, h]

theorem State.sameRegsBut_of_regs_eq {s t : State} (h : t.regs = s.regs) (l : List (Reg × Nat × Nat)) :
    s.sameRegsBut t l :=
  fun r w i _ _ _ => State.reg_congr h r w i

theorem State.sameRegsBut_trans {s t u : State} {l m : List (Reg × Nat × Nat)} (h1 : s.sameRegsBut t l)
    (h2 : t.sameRegsBut u m) : s.sameRegsBut u (l ++ m) := by
  intro r w i hw hi hmem
  rw [List.mem_append, not_or] at hmem
  rw [h2 r w i hw hi hmem.2, h1 r w i hw hi hmem.1]

theorem State.fld_of_sameRegsBut {s t : State} {l : List (Reg × Nat × Nat)} (h : s.sameRegsBut t l) (f : Fld) {w i : Nat}
    (hw : w < f.reg.row.windows) (hi : i < f.reg.row.count) (hmem : (f.reg, w, i) ∉ l) : t.fld f w i = s.fld f w i := by
  rw [State.fld, h f.reg w i hw hi hmem, State.fld]

theorem State.sameRegsBut_addFld (s : State) (f : Fld) (n : Nat) {w i : Nat} (hw : w < f.reg.row.windows)
    (hi : i < f.reg.row.count) : s.sameRegsBut (s.addFld f n w i) [(f.reg, w, i)] :=
  State.sameRegsBut_setReg s f.reg w i _ hw hi

/-- R10: a counting field saturates at the largest value of its width. -/
theorem State.fld_addFld_same (s : State) (f : Fld) (n w i : Nat) (hf : f.fits) :
    (s.addFld f n w i).fld f w i = min f.max (s.fld f w i + n) := by
  have hpow := Nat.two_pow_pos (f.hi + 1 - f.lo)
  rw [State.addFld, State.fld_setFld_same _ _ _ _ _ hf]
  exact Nat.mod_eq_of_lt (by unfold Fld.max; omega)

/-! ## Source lines -/

theorem State.icSource_congr {s t : State} (h : t.ic = s.ic) (x : Nat) : t.icSource x = s.icSource x := by
  simp only [State.icSource, h]

@[simp] theorem State.icSource_setReg (s : State) (r : Reg) (w i v x : Nat) :
    (s.setReg r w i v).icSource x = s.icSource x := rfl

@[simp] theorem State.icSource_addFld (s : State) (f : Fld) (n w i x : Nat) :
    (s.addFld f n w i).icSource x = s.icSource x := rfl

@[simp] theorem State.icSource_setIcSource_same (s : State) (src : Nat) (x : IcSource) :
    (s.setIcSource src x).icSource src = x := tget_tset_same ..

theorem State.icSource_setIcSource_other (s : State) {src x : Nat} (y : IcSource) (h : x ≠ src) :
    (s.setIcSource src y).icSource x = s.icSource x := tget_tset_other _ _ _ h

/-! ## Messages and assignment -/

/-- A message changes no register and no source: it goes out, or waits in the MSI-X table. -/
theorem viMessage_regs_ic (s : State) (v vec : Nat) :
    (s.viMessage v vec).1.regs = s.regs ∧ (s.viMessage v vec).1.ic = s.ic := by
  unfold State.viMessage State.msixSend
  dsimp only
  repeat' split
  all_goals exact ⟨rfl, rfl⟩

/-- R349: assigning a source touches that source alone and no register. -/
theorem assignSource_regs_icSource (s : State) (src : Nat) :
    (s.assignSource src).1.regs = s.regs ∧ ∀ x, x ≠ src → (s.assignSource src).1.icSource x = s.icSource x := by
  unfold State.assignSource
  dsimp only
  split
  case isTrue disabled => exact ⟨rfl, fun x hx => State.icSource_setIcSource_other _ _ hx⟩
  case isFalse enabled =>
    split
    case h_1 noTarget => exact ⟨rfl, fun x hx => State.icSource_setIcSource_other _ _ hx⟩
    case h_2 t chosen =>
      split
      case isTrue host =>
        simp only [State.hostTake]
        refine ⟨(viMessage_regs_ic ..).1, fun x hx => ?_⟩
        rw [State.icSource_congr (viMessage_regs_ic ..).2, State.icSource_setIcSource_other _ _ hx,
          State.icSource_setIcSource_other _ _ hx]
      case isFalse controller => exact ⟨rfl, fun x hx => State.icSource_setIcSource_other _ _ hx⟩

/-- R347: a disabled source waits unassigned. -/
theorem assignSource_icSource_of_disabled {s : State} {src : Nat} (h : s.fld F.IC_SRC_CFG_ENABLE src = 0) :
    (s.assignSource src).1.icSource src = { s.icSource src with state := .pending, target := none } := by
  simp [State.assignSource, h]

/-! ## Firings -/

/-- A firing touches the count and the state of its source alone: among registers only the count, which goes up by one. -/
theorem fireOnce_regs_icSource (s : State) (src : Nat) :
    (s.fireOnce src).1.regs = (s.addFld F.IC_SRC_STATE_FIRINGS 1 src).regs ∧
      ∀ x, x ≠ src → (s.fireOnce src).1.icSource x = s.icSource x := by
  unfold State.fireOnce
  dsimp only
  split
  case h_1 inactive => exact assignSource_regs_icSource ..
  case h_2 pending => exact ⟨rfl, fun _ _ => rfl⟩
  case h_3 active => exact ⟨rfl, fun x hx => State.icSource_setIcSource_other _ _ hx⟩
  case h_4 activePending => exact ⟨rfl, fun _ _ => rfl⟩

theorem fireOnce_sameRegsBut (s : State) {src : Nat} (h : src < 1024) :
    s.sameRegsBut (s.fireOnce src).1 [(.IC_SRC_STATE, src, 0)] := fun r w i hw hi hmem => by
  rw [State.reg_congr (fireOnce_regs_icSource s src).1]
  exact State.sameRegsBut_addFld s F.IC_SRC_STATE_FIRINGS 1 h (by decide) r w i hw hi hmem

theorem fireOnce_firings (s : State) (src : Nat) :
    (s.fireOnce src).1.fld F.IC_SRC_STATE_FIRINGS src = min 0xFFFF (s.fld F.IC_SRC_STATE_FIRINGS src + 1) := by
  rw [State.fld, State.reg_congr (fireOnce_regs_icSource s src).1]
  exact State.fld_addFld_same s F.IC_SRC_STATE_FIRINGS 1 src 0 (show 15 < 32 by decide)

/-! R346: how a firing moves its source, by the state it finds. -/

section
variable {s : State} {src : Nat}

theorem fireOnce_of_pending (h : (s.icSource src).state = .pending) :
    (s.fireOnce src).1.icSource src = s.icSource src := by
  simp [State.fireOnce, h]

theorem fireOnce_of_activePending (h : (s.icSource src).state = .activePending) :
    (s.fireOnce src).1.icSource src = s.icSource src := by
  simp [State.fireOnce, h]

theorem fireOnce_of_active (h : (s.icSource src).state = .active) :
    (s.fireOnce src).1.icSource src = { s.icSource src with state := .activePending } := by
  simp [State.fireOnce, h]

theorem fireOnce_of_inactive_disabled (hsrc : src < 1024) (h : (s.icSource src).state = .inactive)
    (disabled : s.fld F.IC_SRC_CFG_ENABLE src = 0) :
    (s.fireOnce src).1.icSource src = { s.icSource src with state := .pending, target := none } := by
  have kept : (s.addFld F.IC_SRC_STATE_FIRINGS 1 src).fld F.IC_SRC_CFG_ENABLE src = s.fld F.IC_SRC_CFG_ENABLE src :=
    State.fld_of_sameRegsBut (State.sameRegsBut_addFld s F.IC_SRC_STATE_FIRINGS 1 hsrc (by decide)) _ hsrc (by decide)
      (by simp [F.IC_SRC_STATE_FIRINGS, F.IC_SRC_CFG_ENABLE])
  have assigned := assignSource_icSource_of_disabled (kept.trans disabled)
  simpa [State.fireOnce, h] using assigned

end

/-! ## Events of the controller -/

/-- One turn of the controller's own event: bits of `IC_EVENT` are set and source 106 fires; the second part is what that
firing sets once more. -/
def State.icEventOnce (s : State) (b : Nat) : State × Nat :=
  (s.setReg .IC_EVENT 0 0 (s.reg .IC_EVENT ||| b)).fireOnce icOwnSource

/-- An event takes no turn where it sets nothing, and else one turn or two. -/
theorem icEvent_cases (s : State) (b : Nat) :
    (b = 0 ∧ s.icEvent b = s) ∨ s.icEvent b = (s.icEventOnce b).1 ∨
      s.icEvent b = ((s.icEventOnce b).1.icEventOnce (s.icEventOnce b).2).1 := by
  unfold State.icEvent
  dsimp only
  split
  case isTrue zero => exact .inl ⟨zero, rfl⟩
  case isFalse nonzero =>
    split
    case isTrue once => exact .inr (.inl rfl)
    case isFalse again => exact .inr (.inr rfl)

theorem icEventOnce_sameRegsBut (s : State) (b : Nat) :
    s.sameRegsBut (s.icEventOnce b).1 [(.IC_EVENT, 0, 0), (.IC_SRC_STATE, icOwnSource, 0)] :=
  State.sameRegsBut_trans (State.sameRegsBut_setReg s _ 0 0 _ (by decide) (by decide))
    (fireOnce_sameRegsBut _ (by decide))

theorem icEventOnce_icSource_other (s : State) (b : Nat) {x : Nat} (hx : x ≠ icOwnSource) :
    (s.icEventOnce b).1.icSource x = s.icSource x :=
  (fireOnce_regs_icSource _ icOwnSource).2 x hx

theorem icEventOnce_testBit (s : State) (b : Nat) {j : Nat} (hj : j < 32) :
    ((s.icEventOnce b).1.reg .IC_EVENT).testBit j = ((s.reg .IC_EVENT).testBit j || b.testBit j) := by
  rw [State.icEventOnce, fireOnce_sameRegsBut _ (by decide) .IC_EVENT 0 0 (by decide) (by decide) (by decide),
    State.reg_setReg_same, Nat.testBit_mod_two_pow, Nat.testBit_or]
  simp [hj]

/-- The controller's event changes `IC_EVENT`, the count of source 106 and no other register. -/
theorem icEvent_sameRegsBut (s : State) (b : Nat) :
    s.sameRegsBut (s.icEvent b) [(.IC_EVENT, 0, 0), (.IC_SRC_STATE, icOwnSource, 0)] := by
  intro r w i hw hi hmem
  have turn (t : State) (c : Nat) := icEventOnce_sameRegsBut t c r w i hw hi hmem
  rcases icEvent_cases s b with ⟨-, unset⟩ | once | twice
  · rw [unset]
  · rw [once, turn]
  · rw [twice, turn, turn]

theorem icEvent_icSource_other (s : State) (b : Nat) {x : Nat} (hx : x ≠ icOwnSource) :
    (s.icEvent b).icSource x = s.icSource x := by
  rcases icEvent_cases s b with ⟨-, unset⟩ | once | twice
  · rw [unset]
  · rw [once, icEventOnce_icSource_other _ _ hx]
  · rw [twice, icEventOnce_icSource_other _ _ hx, icEventOnce_icSource_other _ _ hx]

/-- A bit that an event sets stands in `IC_EVENT` after it: a second turn only sets more. -/
theorem icEvent_testBit {s : State} {b j : Nat} (hj : j < 32) (h : b.testBit j = true) :
    ((s.icEvent b).reg .IC_EVENT).testBit j = true := by
  rcases icEvent_cases s b with ⟨zero, -⟩ | once | twice
  · simp [zero] at h
  · simp [once, icEventOnce_testBit _ _ hj, h]
  · simp [twice, icEventOnce_testBit _ _ hj, h]

/-! ## Bad completions -/

theorem badEoi_event (s : State) : s.badEoi.fld F.IC_EVENT_BAD_EOI = 1 := by
  have set : (s.badEoi.reg .IC_EVENT).testBit 0 = true := icEvent_testBit (by decide) (by decide)
  simpa [Nat.testBit_zero, State.fld, Fld.of, F.IC_EVENT_BAD_EOI, bits] using set

theorem badEoi_count (s : State) :
    s.badEoi.fld F.IC_BAD_EOI_COUNT_COUNT = min 0xFFFFFFFF (s.fld F.IC_BAD_EOI_COUNT_COUNT + 1) := by
  rw [State.badEoi, State.fld_of_sameRegsBut (icEvent_sameRegsBut _ _) _ (by decide) (by decide) (by decide)]
  exact State.fld_addFld_same s F.IC_BAD_EOI_COUNT_COUNT 1 0 0 (show 31 < 32 by decide)

theorem badEoi_icSource_other (s : State) {x : Nat} (hx : x ≠ icOwnSource) : s.badEoi.icSource x = s.icSource x :=
  icEvent_icSource_other _ _ hx

/-! ## The firing of a source other than the controller's own -/

section
variable (s : State) {src : Nat}

theorem fire_firings (hsrc : src < 1024) (own : src ≠ icOwnSource) :
    (s.fire src).fld F.IC_SRC_STATE_FIRINGS src = min 0xFFFF (s.fld F.IC_SRC_STATE_FIRINGS src + 1) := by
  rw [State.fire, State.fld_of_sameRegsBut (icEvent_sameRegsBut _ _) _ hsrc (by decide)
    (by simpa [F.IC_SRC_STATE_FIRINGS] using own)]
  exact fireOnce_firings s src

theorem fire_icSource_same (own : src ≠ icOwnSource) :
    (s.fire src).icSource src = (s.fireOnce src).1.icSource src :=
  icEvent_icSource_other _ _ own

theorem fire_icSource_other {x : Nat} (hx : x ≠ src) (own : x ≠ icOwnSource) :
    (s.fire src).icSource x = s.icSource x :=
  (icEvent_icSource_other _ _ own).trans ((fireOnce_regs_icSource s src).2 x hx)

end

/-! ## A write of `IC_SWI` -/

theorem quiet_of_raised {s t : State} (h : t = s.raised t) (quiet : s.quiet = true) : t.quiet = true := by
  rw [h]
  exact quiet

theorem swiWritten_raised (s : State) (v : Nat) : s.swiWritten v = s.raised (s.swiWritten v) := by
  unfold State.swiWritten
  dsimp only
  split
  case isTrue software => exact fire_raised ..
  case isFalse other => exact badEoi_raised s

/-- R359: a write of `IC_SWI` stores nothing, as its field is write-only, and has its effect on a state with the same
registers and sources. -/
theorem exec_icSwiWrite {a : Agent} {s : State} (v : Nat) (reach : s.reaches a .IC_SWI = true) (quiet : s.quiet = true) :
    ∃ t : State, t = s.raised t ∧ s.sameRegsBut t [] ∧ t.ic = s.ic ∧
      exec (.icSwiWrite a v) s = .next (t.swiWritten (v % 2 ^ 32)) := by
  have stored : writtenValue a .IC_SWI (s.reg .IC_SWI) (v % 2 ^ 32) = s.reg .IC_SWI :=
    writtenValue_kept _ _ _ _ (by decide)
  have write : doNamedWrite a .IC_SWI 0 0 v s =
      (s.setReg .IC_SWI 0 0 (s.reg .IC_SWI)).swiWritten (v % 2 ^ 32) := by
    rw [namedWrite_of_reaches s a _ 0 0 v (by decide) (by decide) reach, regWrite_eq _ _ _ _ _ _ rfl, stored]
    rfl
  have settled := settle_of_quiet _ (quiet_of_raised
    (raised_trans (setReg_raised s .IC_SWI 0 0 (s.reg .IC_SWI)) (swiWritten_raised _ (v % 2 ^ 32))) quiet)
  refine ⟨s.setReg .IC_SWI 0 0 (s.reg .IC_SWI), rfl, State.sameRegsBut_kept s _ 0 0 (by decide) (by decide), rfl, ?_⟩
  calc exec (.icSwiWrite a v) s = .next (doNamedWrite a .IC_SWI 0 0 v s).settle := rfl
    _ = _ := by rw [write, settled]

theorem swiWritten_of_software {s : State} {v : Nat} (lower : 112 ≤ F.IC_SWI_SOURCE.of v % 128)
    (upper : F.IC_SWI_SOURCE.of v % 128 < 120) : s.swiWritten v = s.fire (F.IC_SWI_SOURCE.of v) := by
  simp [State.swiWritten, lower, upper]

theorem swiWritten_of_other {s : State} {v : Nat}
    (h : ¬(112 ≤ F.IC_SWI_SOURCE.of v % 128 ∧ F.IC_SWI_SOURCE.of v % 128 < 120)) : s.swiWritten v = s.badEoi := by
  unfold State.swiWritten
  exact if_neg (by simpa using h)

/-- Settles O44: the write has its effect on an equal state, and there it is one firing or one bad completion. -/
theorem softwareSourceFires : Obligations.SoftwareSourceFires := by
  unfold Obligations.SoftwareSourceFires
  refine ⟨fun a v src s reach quiet hsrc lower upper => ?software, fun a v s reach quiet other => ?other⟩
  case software =>
    obtain ⟨t, raised, regs, ic, run⟩ := exec_icSwiWrite v reach quiet
    have same : ∀ x, t.icSource x = s.icSource x := State.icSource_congr ic
    have bound : src < 1024 := hsrc ▸ bits_lt _ 9 0
    have own : src ≠ icOwnSource := by unfold icOwnSource; omega
    have keptFld (f : Fld) (hw : src < f.reg.row.windows) (hi : 0 < f.reg.row.count) : t.fld f src = s.fld f src :=
      State.fld_of_sameRegsBut regs f hw hi List.not_mem_nil
    subst hsrc
    rw [swiWritten_of_software lower upper] at run
    refine Answers.intro run ?_
    simp only [← same, ← keptFld F.IC_SRC_STATE_FIRINGS bound (by decide),
      ← keptFld F.IC_SRC_CFG_ENABLE bound (by decide), fire_icSource_same t own]
    exact ⟨fire_firings t bound own, fireOnce_of_pending, fireOnce_of_active, fireOnce_of_activePending,
      fireOnce_of_inactive_disabled bound, fun x => fire_icSource_other t, raised_trans raised (fire_raised ..)⟩
  case other =>
    obtain ⟨t, raised, regs, ic, run⟩ := exec_icSwiWrite v reach quiet
    rw [swiWritten_of_other other] at run
    refine Answers.intro run ⟨badEoi_event t, ?count, fun x hx => ?sources, raised_trans raised (badEoi_raised t)⟩
    case count =>
      rw [badEoi_count, State.fld_of_sameRegsBut regs _ (by decide) (by decide) List.not_mem_nil]
    case sources => rw [badEoi_icSource_other t hx, State.icSource_congr ic]

end Sys2Proof.Machine
end
